-- ==== Sys2Proof/Word.lean ====
section
/-!
DEFINITION. Word.lean: the word types of the machine (R10, R28).
-/

namespace Sys2Proof

/-- A scalar register, an address, a semaphore word. -/
abbrev Word := BitVec 64

/-- A byte of memory. -/
abbrev Byte := BitVec 8

/-- A vector register or a stream entry: 2048 bits (R28, R35). -/
abbrev VReg := BitVec 2048

/-- A predicate: one bit for each byte lane of a vector register (R28). -/
abbrev PReg := BitVec 256

end Sys2Proof
end

