-- ==== Sys2Proof/Syntax.lean ====
section
/-!
DEFINITION. Syntax.lean: the instruction set of spec/02_encoding.md as one inductive type.
One constructor per row of spec/opcode_table.json: the Nuten instructions (R57, R59), the RV64 rows (R64),
and the steps of the engines, the scheduler, the cox, the host and the physical module, whose operands name the
unit that acts (a core by its core key 64*partition + logical core, a bank by 0 or 1).
-/

namespace Sys2Proof

/-- The scheduling control bits of a Nuten word: V and IDLE (R46, R48). -/
structure Ctl where
  v : BitVec 2
  idle : BitVec 10
deriving DecidableEq, Repr

/-- What a VENDOR_DEFINED_REQUEST names: the standards body, the vendor ID and the request code (R349). -/
structure VendorCode where
  standard : BitVec 16
  vendor : BitVec 16
  request : BitVec 16
deriving DecidableEq, Repr

/-- Format VVV of R57. -/
structure FVvv where
  vd : BitVec 9
  va : BitVec 9
  vb : BitVec 9
  pg : BitVec 6
  ty : BitVec 3
deriving DecidableEq, Repr

/-- Format VVI of R57. -/
structure FVvi where
  vd : BitVec 9
  va : BitVec 9
  pg : BitVec 6
  ty : BitVec 3
  imm : BitVec 9
deriving DecidableEq, Repr

/-- Format VVX of R57. -/
structure FVvx where
  vd : BitVec 9
  va : BitVec 9
  xs : BitVec 5
  pg : BitVec 6
  ty : BitVec 3
deriving DecidableEq, Repr

/-- Format VRD of R57. -/
structure FVrd where
  vd : BitVec 9
  va : BitVec 9
  pg : BitVec 6
  ty : BitVec 3
  fn : BitVec 6
deriving DecidableEq, Repr

/-- Format VCV of R57. -/
structure FVcv where
  vd : BitVec 9
  va : BitVec 9
  pg : BitVec 6
  ets : BitVec 4
  etd : BitVec 4
  rm : BitVec 3
  sat : BitVec 1
deriving DecidableEq, Repr

/-- Format PVV of R57. -/
structure FPvv where
  pd : BitVec 6
  va : BitVec 9
  vb : BitVec 9
  pg : BitVec 6
  ty : BitVec 3
  cc : BitVec 3
deriving DecidableEq, Repr

/-- Format PPP of R57. -/
structure FPpp where
  pd : BitVec 6
  pa : BitVec 6
  pb : BitVec 6
  pc : BitVec 6
  tt : BitVec 8
deriving DecidableEq, Repr

/-- Format PXF of R57. -/
structure FPxf where
  pd : BitVec 6
  xd : BitVec 5
  xa : BitVec 5
  ty : BitVec 3
  fn : BitVec 4
deriving DecidableEq, Repr

/-- Format VMA of R57. -/
structure FVma where
  vt : BitVec 9
  xb : BitVec 5
  pg : BitVec 6
  et : BitVec 4
  off : BitVec 12
deriving DecidableEq, Repr

/-- Format VG of R57. -/
structure FVg where
  vt : BitVec 9
  xb : BitVec 5
  vi : BitVec 9
  pg : BitVec 6
  et : BitVec 4
  sh : BitVec 3
deriving DecidableEq, Repr

/-- Format BR of R57. -/
structure FBr where
  off : BitVec 24
deriving DecidableEq, Repr

/-- Format MT of R57. -/
structure FMt where
  acc : BitVec 4
  ma : BitVec 6
  mb : BitVec 6
  xg : BitVec 5
  crs : BitVec 4
  pm1 : BitVec 8
  ta : BitVec 1
  tb : BitVec 1
  clr : BitVec 1
deriving DecidableEq, Repr

/-- Format MS of R57. -/
structure FMs where
  ms : BitVec 6
  sr : BitVec 5
  crs : BitVec 4
  et : BitVec 4
deriving DecidableEq, Repr

/-- Format AS of R57. -/
structure FAs where
  acc : BitVec 4
  sr : BitVec 5
  xg : BitVec 5
  etd : BitVec 4
  rm : BitVec 3
  sat : BitVec 1
  crs : BitVec 4
deriving DecidableEq, Repr

/-- Format CP of R57. -/
structure FCp where
  tu : BitVec 2
  xa : BitVec 5
  xb : BitVec 5
  xd : BitVec 5
  flg : BitVec 4
deriving DecidableEq, Repr

/-- Format SB of R57. -/
structure FSb where
  sr : BitVec 5
  xd : BitVec 5
  xa : BitVec 5
  win : BitVec 3
deriving DecidableEq, Repr

/-- Format TK of R57. -/
structure FTk where
  xd : BitVec 5
  xa : BitVec 5
  xb : BitVec 5
  imm : BitVec 21
deriving DecidableEq, Repr

/-- Format CR of R57. -/
structure FCr where
  mask : BitVec 8
deriving DecidableEq, Repr

/-- Format SS of R57. -/
structure FSs where
  xd : BitVec 5
  xa : BitVec 5
  xb : BitVec 5
  code : BitVec 16
deriving DecidableEq, Repr

/-- Format GR of R57. -/
structure FGr where
  xd : BitVec 5
  xa : BitVec 5
  xb : BitVec 5
  ge : BitVec 8
  ch : BitVec 1
  op : BitVec 4
  et : BitVec 4
deriving DecidableEq, Repr

/-- Format SC of R57. -/
structure FSc where
  scope : BitVec 3
  xd : BitVec 5
  xa : BitVec 5
deriving DecidableEq, Repr

/-- Format TL of R57. -/
structure FTl where
  tln : BitVec 3
  xd : BitVec 5
  xa : BitVec 5
deriving DecidableEq, Repr

/-- Format SM of R57. -/
structure FSm where
  xd : BitVec 5
  xh : BitVec 5
  xa : BitVec 5
  xb : BitVec 5
  scope : BitVec 3
deriving DecidableEq, Repr

/-- Format MA of R57. -/
structure FMa where
  xd : BitVec 5
  xa : BitVec 5
  sz : BitVec 2
  scope : BitVec 3
  off : BitVec 21
deriving DecidableEq, Repr

/-- The issue queues of R47, numbered as the MASK bits of R56. -/
inductive Queue
  | cc | vec | mat | c0 | c1 | c2 | c3 | col
deriving DecidableEq, Repr

/-- The engines an alarm can concern (R366): a control core, the three engines of a core, a port processor, or the
network-on-chip of a die. -/
inductive Engine
  | control | vec | mat | copy | port | die
deriving DecidableEq, Repr

/-- The two register blocks of BAR0 (R397). -/
inductive RegBlock
  | modl | ctx (c : Nat)
deriving DecidableEq, Repr

/-- RV64 loads (R64). -/
inductive LoadOp
  | lb | lh | lw | ld | lbu | lhu | lwu
deriving DecidableEq, Repr

/-- RV64 stores (R64). -/
inductive StoreOp
  | sb | sh | sw | sd
deriving DecidableEq, Repr

/-- RV64A read-modify-write operations (R64). -/
inductive AmoOp
  | swap | add | xor | and | or | min | max | minu | maxu
deriving DecidableEq, Repr

/-- RV64I conditional branches (R64). -/
inductive BrOp
  | beq | bne | blt | bge | bltu | bgeu
deriving DecidableEq, Repr

/-- Register-immediate operations with a 12-bit immediate (RV64I). -/
inductive ImmOp
  | addi | slti | sltiu | xori | ori | andi | addiw
deriving DecidableEq, Repr

/-- Register-immediate operations with a shift amount (RV64I, Zba, Zbb). -/
inductive ShOp
  | slli | srli | srai | rori | slliUw
deriving DecidableEq, Repr

/-- The 32-bit shift forms with a 5-bit shift amount (RV64I, Zbb). -/
inductive ShwOp
  | slliw | srliw | sraiw | roriw
deriving DecidableEq, Repr

/-- Register-register operations (RV64I, M, Zba, Zbb). -/
inductive RegOp
  | add | sub | sll | slt | sltu | xor | srl | sra | or | and
  | addw | subw | sllw | srlw | sraw
  | mul | mulh | mulhsu | mulhu | div | divu | rem | remu
  | mulw | divw | divuw | remw | remuw
  | sh1add | sh2add | sh3add | addUw | sh1addUw | sh2addUw | sh3addUw
  | andn | orn | xnor | max | maxu | min | minu | rol | ror | rolw | rorw
deriving DecidableEq, Repr

/-- One-operand operations (Zbb). -/
inductive UnOp
  | clz | ctz | cpop | clzw | ctzw | cpopw | sextB | sextH | zextH | orcB | rev8
deriving DecidableEq, Repr

/-- Every RV64I, M, Zba or Zbb instruction that has no row of its own in the table (row RV64_INSTRUCTION). -/
inductive RvOp
  | lui (rd : BitVec 5) (imm : BitVec 20)
  | auipc (rd : BitVec 5) (imm : BitVec 20)
  | jal (rd : BitVec 5) (off : BitVec 20)
  | jalr (rd rs1 : BitVec 5) (imm : BitVec 12)
  | branch (op : BrOp) (rs1 rs2 : BitVec 5) (off : BitVec 12)
  | imm (op : ImmOp) (rd rs1 : BitVec 5) (imm : BitVec 12)
  | sh (op : ShOp) (rd rs1 : BitVec 5) (shamt : BitVec 6)
  | shw (op : ShwOp) (rd rs1 : BitVec 5) (shamt : BitVec 5)
  | reg (op : RegOp) (rd rs1 rs2 : BitVec 5)
  | un (op : UnOp) (rd rs1 : BitVec 5)
deriving DecidableEq, Repr

/-- What the row ILLEGAL_INSTRUCTION carries (R60 to R63): which of the two traps, its reason, the lowest bit of the
offending field, and what the checks that come before it in R62 still need. -/
structure Reject where
  /-- true: CAUSE_ILLEGAL_OPERAND; false: CAUSE_ILLEGAL_INSTR (R60) -/
  operand : Bool
  reason : BitVec 8
  field : BitVec 8
  /-- the word's V and IDLE and its issue queue, where the crew check of R62 step 6 precedes the failure -/
  ctl : Option (Ctl × Queue)
  /-- the privilege check of R326 precedes the failure -/
  priv : Bool
deriving DecidableEq, Repr

/-- The instructions and steps of spec/opcode_table.json, in the table's order. -/
inductive Instr
  /-- HOLD (R280). -/
  | hold (c : Ctl)
  /-- CATCH (R278). -/
  | catchCrew (c : Ctl) (f : FCr)
  /-- EASY (R279). -/
  | easy (c : Ctl)
  /-- LAUNCH (R248). -/
  | launch (c : Ctl) (f : FTk)
  /-- SPAWN (R254). -/
  | spawn (c : Ctl) (f : FTk)
  /-- JOIN (R255). -/
  | join (c : Ctl) (f : FTk)
  /-- TAIL (R258). -/
  | tail (c : Ctl) (f : FTk)
  /-- SETPRI (R268). -/
  | setpri (c : Ctl) (f : FTk)
  /-- EQSEND_RESERVE_NEXT (R261). -/
  | eqsendReserveNext (c : Ctl) (f : FTk)
  /-- EQSEND_RESERVE (R261). -/
  | eqsendReserve (c : Ctl) (f : FTk)
  /-- EQSEND_PUBLISH (R261). -/
  | eqsendPublish (c : Ctl) (f : FTk)
  /-- EQSEND_CLOSE (R261). -/
  | eqsendClose (c : Ctl) (f : FTk)
  /-- EQRECV_TAKE_NEXT (R261). -/
  | eqrecvTakeNext (c : Ctl) (f : FTk)
  /-- EQRECV_TAKE (R261). -/
  | eqrecvTake (c : Ctl) (f : FTk)
  /-- EQFREE (R261). -/
  | eqfree (c : Ctl) (f : FTk)
  /-- EQINIT (R261). -/
  | eqinit (c : Ctl) (f : FTk)
  /-- WIDF (R251). -/
  | widf (c : Ctl) (f : FTk)
  /-- WIDINS (R252). -/
  | widins (c : Ctl) (f : FTk)
  /-- BUDGET (R275). -/
  | budget (c : Ctl) (f : FTk)
  /-- DRAW (R270). -/
  | draw (c : Ctl) (f : FTk)
  /-- THALLOW (R283). -/
  | thallow (c : Ctl) (f : FTk)
  /-- SLIP (R277). -/
  | slip (c : Ctl) (f : FTk)
  /-- LERR (R250). -/
  | lerr (c : Ctl) (f : FTk)
  /-- NTRAP (R332). -/
  | ntrap (c : Ctl) (f : FSs)
  /-- TRET (R331). -/
  | tret (c : Ctl) (f : FSs)
  /-- KILL_LAUNCH (R345). -/
  | killLaunch (c : Ctl) (f : FSs)
  /-- KILL_CONTEXT (R345). -/
  | killContext (c : Ctl) (f : FSs)
  /-- QUIESCE (R347). -/
  | quiesce (c : Ctl) (f : FSs)
  /-- GATE (R343). -/
  | gate (c : Ctl) (f : FSs)
  /-- WAKE (R343). -/
  | wake (c : Ctl) (f : FSs)
  /-- BRK (R333). -/
  | brk (c : Ctl) (f : FSs)
  /-- TLBINV_ALL (R338). -/
  | tlbinvAll (c : Ctl) (f : FSs)
  /-- TLBINV_RANGE (R338). -/
  | tlbinvRange (c : Ctl) (f : FSs)
  /-- FLTANS (R342). -/
  | fltans (c : Ctl) (f : FSs)
  /-- VADD (R117). -/
  | vadd (c : Ctl) (f : FVvv)
  /-- VSUB (R117). -/
  | vsub (c : Ctl) (f : FVvv)
  /-- VMUL (R117). -/
  | vmul (c : Ctl) (f : FVvv)
  /-- VFMA (R117). -/
  | vfma (c : Ctl) (f : FVvv)
  /-- VFMS (R117). -/
  | vfms (c : Ctl) (f : FVvv)
  /-- VFNMA (R117). -/
  | vfnma (c : Ctl) (f : FVvv)
  /-- VMIN (R117). -/
  | vmin (c : Ctl) (f : FVvv)
  /-- VMAX (R117). -/
  | vmax (c : Ctl) (f : FVvv)
  /-- VDIV (R117). -/
  | vdiv (c : Ctl) (f : FVvv)
  /-- VAMIN (R117). -/
  | vamin (c : Ctl) (f : FVvv)
  /-- VAMAX (R117). -/
  | vamax (c : Ctl) (f : FVvv)
  /-- VSADD (R117). -/
  | vsadd (c : Ctl) (f : FVvv)
  /-- VSSUB (R117). -/
  | vssub (c : Ctl) (f : FVvv)
  /-- VMULH (R117). -/
  | vmulh (c : Ctl) (f : FVvv)
  /-- VDOT2 (R119). -/
  | vdot2 (c : Ctl) (f : FVvv)
  /-- VDOT4 (R119). -/
  | vdot4 (c : Ctl) (f : FVvv)
  /-- VAND (R117). -/
  | vand (c : Ctl) (f : FVvv)
  /-- VOR (R117). -/
  | vor (c : Ctl) (f : FVvv)
  /-- VXOR (R117). -/
  | vxor (c : Ctl) (f : FVvv)
  /-- VANDN (R117). -/
  | vandn (c : Ctl) (f : FVvv)
  /-- VSLL (R117). -/
  | vsll (c : Ctl) (f : FVvv)
  /-- VSRL (R117). -/
  | vsrl (c : Ctl) (f : FVvv)
  /-- VSRA (R117). -/
  | vsra (c : Ctl) (f : FVvv)
  /-- VSEL (R118). -/
  | vsel (c : Ctl) (f : FVvv)
  /-- VADDI (R120). -/
  | vaddi (c : Ctl) (f : FVvi)
  /-- VMINI (R120). -/
  | vmini (c : Ctl) (f : FVvi)
  /-- VMAXI (R120). -/
  | vmaxi (c : Ctl) (f : FVvi)
  /-- VANDI (R120). -/
  | vandi (c : Ctl) (f : FVvi)
  /-- VXORI (R120). -/
  | vxori (c : Ctl) (f : FVvi)
  /-- VSLLI (R120). -/
  | vslli (c : Ctl) (f : FVvi)
  /-- VSRLI (R120). -/
  | vsrli (c : Ctl) (f : FVvi)
  /-- VSRAI (R120). -/
  | vsrai (c : Ctl) (f : FVvi)
  /-- VADDX (R121). -/
  | vaddx (c : Ctl) (f : FVvx)
  /-- VSUBX (R121). -/
  | vsubx (c : Ctl) (f : FVvx)
  /-- VMULX (R121). -/
  | vmulx (c : Ctl) (f : FVvx)
  /-- VFMAX (R121). -/
  | vfmax (c : Ctl) (f : FVvx)
  /-- VMINX (R121). -/
  | vminx (c : Ctl) (f : FVvx)
  /-- VMAXX (R121). -/
  | vmaxx (c : Ctl) (f : FVvx)
  /-- VBCAST (R121). -/
  | vbcast (c : Ctl) (f : FVvx)
  /-- VSCALEX (R121). -/
  | vscalex (c : Ctl) (f : FVvx)
  /-- VFN (R125). -/
  | vfn (c : Ctl) (f : FVrd)
  /-- VNEG (R122). -/
  | vneg (c : Ctl) (f : FVrd)
  /-- VABS (R122). -/
  | vabs (c : Ctl) (f : FVrd)
  /-- VCLASS (R123). -/
  | vclass (c : Ctl) (f : FVrd)
  /-- VBITS (R124). -/
  | vbits (c : Ctl) (f : FVrd)
  /-- VCVT (R126). -/
  | vcvt (c : Ctl) (f : FVcv)
  /-- VRINT (R129). -/
  | vrint (c : Ctl) (f : FVcv)
  /-- VRSUM (R130). -/
  | vrsum (c : Ctl) (f : FVrd)
  /-- VRMAX (R130). -/
  | vrmax (c : Ctl) (f : FVrd)
  /-- VRMIN (R130). -/
  | vrmin (c : Ctl) (f : FVrd)
  /-- VRAMAX (R130). -/
  | vramax (c : Ctl) (f : FVrd)
  /-- VSCAN (R131). -/
  | vscan (c : Ctl) (f : FVrd)
  /-- VCMP (R132). -/
  | vcmp (c : Ctl) (f : FPvv)
  /-- VLD (R136). -/
  | vld (c : Ctl) (f : FVma)
  /-- VST (R136). -/
  | vst (c : Ctl) (f : FVma)
  /-- VGATH (R138). -/
  | vgath (c : Ctl) (f : FVg)
  /-- VSCAT (R138). -/
  | vscat (c : Ctl) (f : FVg)
  /-- VSCADD (R138). -/
  | vscadd (c : Ctl) (f : FVg)
  /-- RQREL (R140). -/
  | rqrel (c : Ctl) (f : FPxf)
  /-- RQSTAT (R141). -/
  | rqstat (c : Ctl) (f : FPxf)
  /-- VMOV (R122). -/
  | vmov (c : Ctl) (f : FVrd)
  /-- VPERM (R135). -/
  | vperm (c : Ctl) (f : FVvv)
  /-- VREV (R135). -/
  | vrev (c : Ctl) (f : FVrd)
  /-- VZIP (R135). -/
  | vzip (c : Ctl) (f : FVvv)
  /-- VUNZIP (R135). -/
  | vunzip (c : Ctl) (f : FVvv)
  /-- VTRN (R135). -/
  | vtrn (c : Ctl) (f : FVvv)
  /-- VSLIDE (R135). -/
  | vslide (c : Ctl) (f : FVvi)
  /-- VROTL (R135). -/
  | vrotl (c : Ctl) (f : FVvi)
  /-- VBCL (R135). -/
  | vbcl (c : Ctl) (f : FVvi)
  /-- PLOG (R133). -/
  | plog (c : Ctl) (f : FPpp)
  /-- PCNT (R134). -/
  | pcnt (c : Ctl) (f : FPxf)
  /-- PFIRST (R134). -/
  | pfirst (c : Ctl) (f : FPxf)
  /-- PFROMX (R134). -/
  | pfromx (c : Ctl) (f : FPxf)
  /-- PTOX (R134). -/
  | ptox (c : Ctl) (f : FPxf)
  /-- PWHILE (R134). -/
  | pwhile (c : Ctl) (f : FPxf)
  /-- LOOPB (R114). -/
  | loopb (c : Ctl) (f : FBr)
  /-- VRESUME (R143). -/
  | vresume (c : Ctl)
  /-- MMA_E4M3 (R156). -/
  | mmaE4m3 (c : Ctl) (f : FMt)
  /-- MMA_E5M2 (R156). -/
  | mmaE5m2 (c : Ctl) (f : FMt)
  /-- MMA_INT8 (R156). -/
  | mmaInt8 (c : Ctl) (f : FMt)
  /-- MMA_BF16 (R156). -/
  | mmaBf16 (c : Ctl) (f : FMt)
  /-- MMA_FP16 (R156). -/
  | mmaFp16 (c : Ctl) (f : FMt)
  /-- MMA_MXFP8 (R156). -/
  | mmaMxfp8 (c : Ctl) (f : FMt)
  /-- MMA_MXFP6 (R156). -/
  | mmaMxfp6 (c : Ctl) (f : FMt)
  /-- MMA_MXFP4 (R156). -/
  | mmaMxfp4 (c : Ctl) (f : FMt)
  /-- MMA_MXINT8 (R156). -/
  | mmaMxint8 (c : Ctl) (f : FMt)
  /-- MMA_TERN (R156). -/
  | mmaTern (c : Ctl) (f : FMt)
  /-- MCLAIM (R148). -/
  | mclaim (c : Ctl) (f : FMs)
  /-- MREL (R148). -/
  | mrel (c : Ctl) (f : FMs)
  /-- MLOAD (R150). -/
  | mload (c : Ctl) (f : FMs)
  /-- MZERO (R151). -/
  | mzero (c : Ctl) (f : FMs)
  /-- MRESUME (R177). -/
  | mresume (c : Ctl)
  /-- ASTORE (R165). -/
  | astore (c : Ctl) (f : FAs)
  /-- ASTORE_T (R165). -/
  | astoreT (c : Ctl) (f : FAs)
  /-- ACLR (R169). -/
  | aclr (c : Ctl) (f : FAs)
  /-- ALOAD (R170). -/
  | aload (c : Ctl) (f : FAs)
  /-- COPY (R225). -/
  | copy (c : Ctl) (f : FCp)
  /-- BINSCAT (R239). -/
  | binscat (c : Ctl) (f : FCp)
  /-- MIGRATE (R241). -/
  | migrate (c : Ctl) (f : FCp)
  /-- CRESUME (R233). -/
  | cresume (c : Ctl) (f : FCp)
  /-- CSTAT_TL (R234). -/
  | cstatTl (c : Ctl) (f : FCp)
  /-- CSTAT_STATUS (R234). -/
  | cstatStatus (c : Ctl) (f : FCp)
  /-- BINSET (R235). -/
  | binset (c : Ctl) (f : FCp)
  /-- BINDROP (R240). -/
  | bindrop (c : Ctl) (f : FCp)
  /-- SBIND (R212). -/
  | sbind (c : Ctl) (f : FSb)
  /-- SUNBIND (R214). -/
  | sunbind (c : Ctl) (f : FSb)
  /-- SFLUSH (R215). -/
  | sflush (c : Ctl) (f : FSb)
  /-- SSKIP (R216). -/
  | sskip (c : Ctl) (f : FSb)
  /-- SMAXR (R217). -/
  | smaxr (c : Ctl) (f : FSb)
  /-- SMAXC (R217). -/
  | smaxc (c : Ctl) (f : FSb)
  /-- SSTAT (R218). -/
  | sstat (c : Ctl) (f : FSb)
  /-- SPTEST (R245). -/
  | sptest (c : Ctl) (f : FSb)
  /-- SPCAST (R246). -/
  | spcast (c : Ctl) (f : FSb)
  /-- GRPSET_WRITE (R294). -/
  | grpsetWrite (c : Ctl) (f : FGr)
  /-- GRPSET_CLAIM (R294). -/
  | grpsetClaim (c : Ctl) (f : FGr)
  /-- GRPSET_RELEASE (R294). -/
  | grpsetRelease (c : Ctl) (f : FGr)
  /-- GRPGET_STORE (R295). -/
  | grpgetStore (c : Ctl) (f : FGr)
  /-- GRPGET_WORD (R295). -/
  | grpgetWord (c : Ctl) (f : FGr)
  /-- ALLRED (R298). -/
  | allred (c : Ctl) (f : FGr)
  /-- REDSC (R298). -/
  | redsc (c : Ctl) (f : FGr)
  /-- ALLGAT (R298). -/
  | allgat (c : Ctl) (f : FGr)
  /-- BCAST (R298). -/
  | bcast (c : Ctl) (f : FGr)
  /-- OWRITE (R291). -/
  | owrite (c : Ctl) (f : FGr)
  /-- OWRED (R291). -/
  | owred (c : Ctl) (f : FGr)
  /-- QPARM (R296). -/
  | qparm (c : Ctl) (f : FGr)
  /-- RNDWAIT (R309). -/
  | rndwait (c : Ctl) (f : FGr)
  /-- SLACKR (R319). -/
  | slackr (c : Ctl) (f : FGr)
  /-- KRESUME (R315). -/
  | kresume (c : Ctl) (f : FGr)
  /-- FENCE_SC (R195). -/
  | fenceSc (c : Ctl) (f : FSc)
  /-- FENCE_REL (R195). -/
  | fenceRel (c : Ctl) (f : FSc)
  /-- FENCE_ACQ (R195). -/
  | fenceAcq (c : Ctl) (f : FSc)
  /-- PFENCE (R356). -/
  | pfence (c : Ctl) (f : FSc)
  /-- EFENCE (R371). -/
  | efence (c : Ctl) (f : FSc)
  /-- VOUCH (R374). -/
  | vouch (c : Ctl) (f : FSc)
  /-- WAITTL (R201). -/
  | waittl (c : Ctl) (f : FTl)
  /-- TLREAD (R201). -/
  | tlread (c : Ctl) (f : FTl)
  /-- SEM_LD (R198). -/
  | semLd (c : Ctl) (f : FSm)
  /-- SEM_ST (R198). -/
  | semSt (c : Ctl) (f : FSm)
  /-- SEM_ADD (R198). -/
  | semAdd (c : Ctl) (f : FSm)
  /-- SEM_CAS (R198). -/
  | semCas (c : Ctl) (f : FSm)
  /-- SEM_MAX (R198). -/
  | semMax (c : Ctl) (f : FSm)
  /-- SEM_SWAP (R198). -/
  | semSwap (c : Ctl) (f : FSm)
  /-- SEM_WAIT (R198). -/
  | semWait (c : Ctl) (f : FSm)
  /-- BUMP (R200). -/
  | bump (c : Ctl) (f : FSm)
  /-- LDACQ (R196). -/
  | ldacq (c : Ctl) (f : FMa)
  /-- STREL (R196). -/
  | strel (c : Ctl) (f : FMa)
  /-- ILLEGAL_INSTRUCTION (R60). -/
  | illegalInstruction (r : Reject)
  /-- RV64_LOAD (R244). -/
  | rv64Load (op : LoadOp) (rd rs1 : BitVec 5) (imm : BitVec 12)
  /-- RV64_STORE (R244). -/
  | rv64Store (op : StoreOp) (rs1 rs2 : BitVec 5) (imm : BitVec 12)
  /-- AMO (R197). -/
  | amo (op : AmoOp) (dbl aq rl : Bool) (rd rs1 rs2 : BitVec 5)
  /-- LR (R197). -/
  | lr (dbl aq rl : Bool) (rd rs1 : BitVec 5)
  /-- SC (R197). -/
  | sc (dbl aq rl : Bool) (rd rs1 rs2 : BitVec 5)
  /-- RV_FENCE (R197). -/
  | rvFence (fm pred succ : BitVec 4) (rd rs1 : BitVec 5)
  /-- FENCE_I (R197). -/
  | fenceI (rd rs1 : BitVec 5) (imm : BitVec 12)
  /-- CSRRW (R11). -/
  | csrrw (rd : BitVec 5) (csr : BitVec 12) (rs1 : BitVec 5)
  /-- CSRRS (R11). -/
  | csrrs (rd : BitVec 5) (csr : BitVec 12) (rs1 : BitVec 5)
  /-- CSRRC (R11). -/
  | csrrc (rd : BitVec 5) (csr : BitVec 12) (rs1 : BitVec 5)
  /-- CSRRWI (R11). -/
  | csrrwi (rd : BitVec 5) (csr : BitVec 12) (uimm : BitVec 5)
  /-- CSRRSI (R11). -/
  | csrrsi (rd : BitVec 5) (csr : BitVec 12) (uimm : BitVec 5)
  /-- CSRRCI (R11). -/
  | csrrci (rd : BitVec 5) (csr : BitVec 12) (uimm : BitVec 5)
  /-- RV64_INSTRUCTION (R64). -/
  | rv64Instruction (op : RvOp)
  /-- ENGINE_ISSUE (R48). -/
  | engineIssue (core : Nat) (q : Queue)
  /-- VECTOR_ISSUE (R109). -/
  | vectorIssue (core : Nat)
  /-- VECTOR_COMPLETION (R107). -/
  | vectorCompletion (core bank : Nat)
  /-- TRAP_DELIVERY (R330). -/
  | trapDelivery (core bank : Nat)
  /-- ENTRY_ARRIVAL (R35). -/
  | entryArrival (core bank sn : Nat)
  /-- OUTPUT_DRAIN (R211). -/
  | outputDrain (core bank sn : Nat)
  /-- COPY_START (R226). -/
  | copyStart (core tu : Nat)
  /-- COPY_ITERATION (R224). -/
  | copyIteration (core tu : Nat)
  /-- COPY_COMPLETION (R228). -/
  | copyCompletion (core tu : Nat)
  /-- BINSCAT_TOKEN (R237). -/
  | binscatToken (core tu : Nat)
  /-- PAGE_MOVE (R242). -/
  | pageMove (n : Nat)
  /-- MIGRATE_COMPLETION (R241). -/
  | migrateCompletion (n : Nat)
  /-- TILE_SCHEDULER_START (R164). -/
  | tileSchedulerStart (core : Nat)
  /-- MCLAIM_PERFORMED (R148). -/
  | mclaimPerformed (core bank : Nat)
  /-- MLOAD_LINE (R150). -/
  | mloadLine (core bank : Nat)
  /-- ASTORE_ENTRY (R166). -/
  | astoreEntry (core bank : Nat)
  /-- ALOAD_ENTRY (R170). -/
  | aloadEntry (core bank : Nat)
  /-- PUNTY_MARK (R173). -/
  | puntyMark (core array : Nat)
  /-- MATRIX_COMPLETION (R160). -/
  | matrixCompletion (core bank : Nat)
  /-- MATRIX_DEADLOCK_PREEMPTION (R149). -/
  | matrixDeadlockPreemption (core : Nat)
  /-- POP (R265). -/
  | pop (core bank : Nat)
  /-- IMAGE_LOADED (R271). -/
  | imageLoaded (core bank : Nat)
  /-- PARK (R199). -/
  | park (core bank : Nat)
  /-- WAIT_CONDITION_MET (R199). -/
  | waitConditionMet (core bank : Nat)
  /-- EVICTION (R262). -/
  | eviction (core bank : Nat)
  /-- PRE_EMPTION (R266). -/
  | preEmption (core bank : Nat)
  /-- IMAGE_SAVED (R271). -/
  | imageSaved (core bank : Nat)
  /-- AGE_STEP (R264). -/
  | ageStep (uid : Nat)
  /-- RETIREMENT (R258). -/
  | retirement (core : Nat)
  /-- PRELOAD (R274). -/
  | preload (core bank : Nat)
  /-- BUDGET_END (R276). -/
  | budgetEnd (ctx slot : Nat)
  /-- CONTROL_FORM_PERFORMED (R286). -/
  | controlFormPerformed (core : Nat)
  /-- CONTRIBUTION_SEND (R304). -/
  | contributionSend (core bank ch : Nat)
  /-- CONTRIBUTION_ARRIVAL (R305). -/
  | contributionArrival (n : Nat)
  /-- ROUND_REDUCTION (R301). -/
  | roundReduction (group tag : Nat)
  /-- RESULT_DELIVERY (R308). -/
  | resultDelivery (group tag rank : Nat)
  /-- CLOSE_NOTICE (R305). -/
  | closeNotice (n : Nat)
  /-- WORK_ENTRY_FIRE (R290). -/
  | workEntryFire (core bank ch : Nat)
  /-- WORK_ENTRY_COMPLETE (R290). -/
  | workEntryComplete (core bank ch : Nat)
  /-- REPLAY_READY (R342). -/
  | replayReady (core bank : Nat)
  /-- GATED_RESPONSE (R344). -/
  | gatedResponse (n : Nat)
  /-- REMOTE_RESEND (R344). -/
  | remoteResend (n : Nat)
  /-- AUTOMATIC_WAKE (R343). -/
  | automaticWake (core : Nat)
  /-- QTL_REACHED (R346). -/
  | qtlReached (ctx : Nat)
  /-- SEAL_COMPLETE (R358). -/
  | sealComplete (core : Nat)
  /-- RESUMPTION (R361). -/
  | resumption (core : Nat)
  /-- THERMAL_MOVE (R284). -/
  | thermalMove (core : Nat)
  /-- ROTATE_DEADLINE (R284). -/
  | rotateDeadline (core : Nat)
  /-- ROTATION_SLICE (R380). -/
  | rotationSlice (phys : Nat)
  /-- DROOP_HALVING (R282). -/
  | droopHalving (quad : Nat)
  /-- DROOP_RESTORE (R282). -/
  | droopRestore (quad : Nat)
  /-- HBM_REFRESH (R390). -/
  | hbmRefresh (stack : Nat)
  /-- REFRESH_END (R390). -/
  | refreshEnd (stack : Nat)
  /-- UNCORRECTABLE_ERROR (R370). -/
  | uncorrectableError (uid : Nat) (va : BitVec 64) (write : Bool)
  /-- WATCHDOG (R366). -/
  | watchdog (core : Nat) (eng : Engine)
  /-- PARITY_ALARM (R366). -/
  | parityAlarm (core : Nat) (eng : Engine)
  /-- PROTOCOL_ALARM (R366). -/
  | protocolAlarm (core : Nat) (eng : Engine)
  /-- VECTOR_ENGINE_RESET (R142). -/
  | vectorEngineReset (core : Nat)
  /-- MATRIX_ENGINE_RESET (R174). -/
  | matrixEngineReset (core : Nat)
  /-- COPY_ENGINE_RESET (R232). -/
  | copyEngineReset (core : Nat)
  /-- PORT_PROCESSOR_RESET (R316). -/
  | portProcessorReset (port : Nat)
  /-- CORE_RESET (R367). -/
  | coreReset (core : Nat)
  /-- DIE_RESET (R367). -/
  | dieReset (die : Nat)
  /-- COMPUTE_DOMAIN_LOSS (R360). -/
  | computeDomainLoss (quad : Nat)
  /-- LEHR_DOMAIN_LOSS (R360). -/
  | lehrDomainLoss (quad : Nat)
  /-- LEHR_POWER_RETURN (R360). -/
  | lehrPowerReturn (quad : Nat)
  /-- SCAN (R372). -/
  | scan (passed : Bool)
  /-- CHECK_MODE_COMPLETION (R375). -/
  | checkModeCompletion (phys n : Nat) (other : Nat) (sig : BitVec 64)
  /-- CSTATE_CONFIGURE (R324). -/
  | cstateConfigure (ctx : Nat)
  /-- CSTATE_RUN (R324). -/
  | cstateRun (ctx : Nat)
  /-- CSTATE_FREE (R324). -/
  | cstateFree (ctx : Nat)
  /-- CSTATE_KILL (R324). -/
  | cstateKill (ctx : Nat)
  /-- CGRANT (R351). -/
  | cgrant (ctx : Nat) (value : BitVec 64)
  /-- LAUNCH_DOORBELL (R248). -/
  | launchDoorbell (ctx : Nat) (value : BitVec 64)
  /-- LBUD (R323). -/
  | lbud (ctx : Nat) (value : BitVec 64)
  /-- KILLL (R345). -/
  | killl (ctx : Nat) (value : BitVec 64)
  /-- KILLC (R345). -/
  | killc (ctx : Nat) (value : BitVec 64)
  /-- HANS (R332). -/
  | hans (ctx : Nat) (value : BitVec 64)
  /-- FANS_RETRY (R342). -/
  | fansRetry (ctx : Nat) (tag : BitVec 32)
  /-- FANS_DENY (R342). -/
  | fansDeny (ctx : Nat) (tag : BitVec 32)
  /-- SEMD (R365). -/
  | semd (ctx : Nat) (value : BitVec 64)
  /-- REGISTER_WRITE (R323). -/
  | registerWrite (block : RegBlock) (off : Nat) (value : BitVec 64)
  /-- FWGO (R400). -/
  | fwgo (value : BitVec 64)
  /-- FIRMWARE_VERIFICATION (R348). -/
  | firmwareVerification (img : List (BitVec 8))
  /-- SCHFW (R401). -/
  | schfw (value : BitVec 64)
  /-- PARTCFG (R320). -/
  | partcfg (value : BitVec 64)
  /-- PRESET (R401). -/
  | preset (value : BitVec 64)
  /-- ISMEL_INITIALISATION (R400). -/
  | ismelInitialisation (failed : List Nat)
  /-- HOST_READ (R398). -/
  | hostRead (part addr len : Nat)
  /-- HOST_WRITE (R398). -/
  | hostWrite (part addr : Nat) (bytes : List (BitVec 8))
  /-- LINK_RETRAIN (R396). -/
  | linkRetrain (full : Bool)
  /-- PORT_TRAINING (R399). -/
  | portTraining (port lanes : Nat)
  /-- FLIT_REPLAY (R399). -/
  | flitReplay (port : Nat)
  /-- QUADRANT_THERMAL_POWER_DOWN (R405). -/
  | quadrantThermalPowerDown (quad : Nat)
  /-- QUADRANT_THERMAL_RESUME (R405). -/
  | quadrantThermalResume (quad : Nat)
  /-- STACK_OVERHEAT_HALVING (R405). -/
  | stackOverheatHalving (stack : Nat)
  /-- GET_CERTIFICATE (R349). -/
  | getCertificate (slot offset len : Nat)
  /-- CHALLENGE (R349). -/
  | challenge (slot : Nat) (nonce : List (BitVec 8))
  /-- GET_MEASUREMENTS (R349). -/
  | getMeasurements (index : Nat) (nonce : List (BitVec 8))
  /-- VENDOR_DEFINED_REQUEST (R349). -/
  | vendorDefinedRequest (code : VendorCode)
  /-- UNSUPPORTED_REQUEST (R349). -/
  | unsupportedRequest (code : BitVec 8)
  /-- STACK_OVERHEAT_RESTORE (R405). -/
  | stackOverheatRestore (stack : Nat)
  /-- CDAT_DOE_REQUEST (R396). -/
  | cdatDoeRequest (entry : Nat)
  /-- HOST_COHERENCE_REQUEST (R398). -/
  | hostCoherenceRequest (addr : Nat)
  /-- ECALL (R328). -/
  | ecall
  /-- EBREAK (R328). -/
  | ebreak
  /-- BUDGET_TICK (R276). -/
  | budgetTick
  /-- ALLOWANCE_UPDATE (R283). -/
  | allowanceUpdate
  /-- POWER_CAP_HALVING (R403). -/
  | powerCapHalving
  /-- POWER_CAP_RESTORE (R403). -/
  | powerCapRestore
  /-- SEMAPHORE_SCRUB (R42). -/
  | semaphoreScrub
  /-- SLACK_PUBLICATION (R318). -/
  | slackPublication
  /-- HELD_FAULT_POST (R341). -/
  | heldFaultPost
  /-- PACKAGE_RESET (R367). -/
  | packageReset
  /-- ROLLING_RESET (R368). -/
  | rollingReset
  /-- MODULE_INPUT_LOSS (R402). -/
  | moduleInputLoss
  /-- MPWR_POWER_DOWN (R404). -/
  | mpwrPowerDown
  /-- MPWR_WAKE (R404). -/
  | mpwrWake
  /-- MPWR_SHUTDOWN (R404). -/
  | mpwrShutdown
  /-- BOOT (R400). -/
  | boot
  /-- FUNCTION_LEVEL_RESET (R396). -/
  | functionLevelReset
  /-- CONVENTIONAL_RESET (R396). -/
  | conventionalReset
  /-- LINK_DOWN (R396). -/
  | linkDown
  /-- THERMAL_INPUT_LOSS (R405). -/
  | thermalInputLoss
  /-- GET_VERSION (R349). -/
  | getVersion
  /-- GET_CAPABILITIES (R349). -/
  | getCapabilities
  /-- NEGOTIATE_ALGORITHMS (R349). -/
  | negotiateAlgorithms
  /-- GET_DIGESTS (R349). -/
  | getDigests
deriving DecidableEq, Repr

end Sys2Proof
end

