-- ==== Sys2Proof/WellFormed.lean ====
section
/-!
DEFINITION. WellFormed.lean: which terms of Instr the encodings of spec/02_encoding.md can give, and which units a
step can name.
A Nuten word has V other than 3 (R48), its zero fields are 0 (R57), and a row that is one code of an opcode holds
that code.
-/

namespace Sys2Proof

/-- A reject carries a reason of the table of R63, with the cause that the table gives it. -/
def wfReject (r : Reject) : Bool :=
  if r.operand then decide (0x11 ≤ r.reason.toNat) && decide (r.reason.toNat ≤ 0x1A)
  else decide (1 ≤ r.reason.toNat) && decide (r.reason.toNat ≤ 6)

/-- The terms that the encodings and the numbering of the units admit. -/
def WellFormed : Instr → Bool
  | .hold c => c.v != 3
  | .catchCrew c _ => c.v != 3
  | .easy c => c.v != 3
  | .launch c f => c.v != 3 && f.xb == 0 && f.imm == 0
  | .spawn c _ => c.v != 3
  | .join c f => c.v != 3 && f.xb == 0 && f.imm == 0
  | .tail c f => c.v != 3 && f.xd == 0 && f.xb == 0 && f.imm == 0
  | .setpri c f => c.v != 3 && f.xb == 0 && f.imm == 0
  | .eqsendReserveNext c f => c.v != 3 && f.xb == 0 && f.imm.toNat / 8 == 0
  | .eqsendReserve c f => c.v != 3 && f.xb == 0 && f.imm.toNat / 8 == 1
  | .eqsendPublish c f => c.v != 3 && f.xb == 0 && f.imm.toNat / 8 == 2 && f.xd == 0
  | .eqsendClose c f => c.v != 3 && f.xb == 0 && f.imm.toNat / 8 == 3 && f.xd == 0
  | .eqrecvTakeNext c f => c.v != 3 && f.xb == 0 && f.imm.toNat / 8 == 0
  | .eqrecvTake c f => c.v != 3 && f.xb == 0 && f.imm.toNat / 8 == 1
  | .eqfree c f => c.v != 3 && f.xd == 0 && f.xb == 0 && f.imm.toNat / 8 == 0
  | .eqinit c f => c.v != 3 && f.xd == 0 && f.imm == 0
  | .widf c f => c.v != 3 && f.xb == 0
  | .widins c _ => c.v != 3
  | .budget c f => c.v != 3 && f.xa == 0 && f.xb == 0 && f.imm == 0
  | .draw c _ => c.v != 3
  | .thallow c f => c.v != 3 && f.xb == 0
  | .slip c f => c.v != 3 && f.xa == 0 && f.xb == 0
  | .lerr c f => c.v != 3 && f.xb == 0 && f.imm == 0
  | .ntrap c f => c.v != 3 && f.xb == 0
  | .tret c f => c.v != 3 && f.xd == 0 && f.xa == 0 && f.xb == 0 && f.code == 0
  | .killLaunch c f => c.v != 3 && f.xb == 0 && f.code == 0
  | .killContext c f => c.v != 3 && f.xb == 0 && f.code == 1 && f.xa == 0
  | .quiesce c f => c.v != 3 && f.xb == 0 && f.code == 0
  | .gate c f => c.v != 3 && f.xb == 0 && f.code == 0
  | .wake c f => c.v != 3 && f.xb == 0 && f.code == 0
  | .brk c f => c.v != 3 && f.xd == 0 && f.xa == 0 && f.xb == 0
  | .tlbinvAll c f => c.v != 3 && f.xd == 0 && f.code == 0
  | .tlbinvRange c f => c.v != 3 && f.xd == 0 && f.code == 1
  | .fltans c f => c.v != 3 && f.code == 0
  | .vadd c _ => c.v != 3
  | .vsub c _ => c.v != 3
  | .vmul c _ => c.v != 3
  | .vfma c _ => c.v != 3
  | .vfms c _ => c.v != 3
  | .vfnma c _ => c.v != 3
  | .vmin c _ => c.v != 3
  | .vmax c _ => c.v != 3
  | .vdiv c _ => c.v != 3
  | .vamin c _ => c.v != 3
  | .vamax c _ => c.v != 3
  | .vsadd c _ => c.v != 3
  | .vssub c _ => c.v != 3
  | .vmulh c _ => c.v != 3
  | .vdot2 c _ => c.v != 3
  | .vdot4 c _ => c.v != 3
  | .vand c _ => c.v != 3
  | .vor c _ => c.v != 3
  | .vxor c _ => c.v != 3
  | .vandn c _ => c.v != 3
  | .vsll c _ => c.v != 3
  | .vsrl c _ => c.v != 3
  | .vsra c _ => c.v != 3
  | .vsel c _ => c.v != 3
  | .vaddi c _ => c.v != 3
  | .vmini c _ => c.v != 3
  | .vmaxi c _ => c.v != 3
  | .vandi c _ => c.v != 3
  | .vxori c _ => c.v != 3
  | .vslli c _ => c.v != 3
  | .vsrli c _ => c.v != 3
  | .vsrai c _ => c.v != 3
  | .vaddx c _ => c.v != 3
  | .vsubx c _ => c.v != 3
  | .vmulx c _ => c.v != 3
  | .vfmax c _ => c.v != 3
  | .vminx c _ => c.v != 3
  | .vmaxx c _ => c.v != 3
  | .vbcast c f => c.v != 3 && f.va == 0
  | .vscalex c _ => c.v != 3
  | .vfn c _ => c.v != 3
  | .vneg c f => c.v != 3 && f.fn == 0
  | .vabs c f => c.v != 3 && f.fn == 0
  | .vclass c f => c.v != 3 && f.fn == 0
  | .vbits c _ => c.v != 3
  | .vcvt c _ => c.v != 3
  | .vrint c _ => c.v != 3
  | .vrsum c f => c.v != 3 && f.fn == 0
  | .vrmax c f => c.v != 3 && f.fn == 0
  | .vrmin c f => c.v != 3 && f.fn == 0
  | .vramax c f => c.v != 3 && f.fn == 0
  | .vscan c f => c.v != 3 && f.fn == 0
  | .vcmp c _ => c.v != 3
  | .vld c _ => c.v != 3
  | .vst c _ => c.v != 3
  | .vgath c _ => c.v != 3
  | .vscat c _ => c.v != 3
  | .vscadd c _ => c.v != 3
  | .rqrel c f => c.v != 3 && f.pd == 0 && f.ty == 0
  | .rqstat c f => c.v != 3 && f.pd == 0 && f.ty == 0
  | .vmov c f => c.v != 3 && f.fn == 0
  | .vperm c _ => c.v != 3
  | .vrev c f => c.v != 3 && f.fn == 0
  | .vzip c _ => c.v != 3
  | .vunzip c _ => c.v != 3
  | .vtrn c _ => c.v != 3
  | .vslide c _ => c.v != 3
  | .vrotl c _ => c.v != 3
  | .vbcl c _ => c.v != 3
  | .plog c _ => c.v != 3
  | .pcnt c f => c.v != 3 && f.xa == 0 && f.fn == 0
  | .pfirst c f => c.v != 3 && f.xa == 0
  | .pfromx c f => c.v != 3 && f.xd == 0
  | .ptox c f => c.v != 3 && f.xa == 0
  | .pwhile c f => c.v != 3 && f.fn == 0
  | .loopb c _ => c.v != 3
  | .vresume c => c.v != 3
  | .mmaE4m3 c _ => c.v != 3
  | .mmaE5m2 c _ => c.v != 3
  | .mmaInt8 c _ => c.v != 3
  | .mmaBf16 c _ => c.v != 3
  | .mmaFp16 c _ => c.v != 3
  | .mmaMxfp8 c _ => c.v != 3
  | .mmaMxfp6 c _ => c.v != 3
  | .mmaMxfp4 c _ => c.v != 3
  | .mmaMxint8 c _ => c.v != 3
  | .mmaTern c _ => c.v != 3
  | .mclaim c f => c.v != 3 && f.sr == 0 && f.et == 0
  | .mrel c f => c.v != 3 && f.sr == 0 && f.et == 0
  | .mload c _ => c.v != 3
  | .mzero c f => c.v != 3 && f.sr == 0 && f.et == 0
  | .mresume c => c.v != 3
  | .astore c _ => c.v != 3
  | .astoreT c _ => c.v != 3
  | .aclr c f => c.v != 3 && f.sr == 0 && f.xg == 0 && f.etd == 0 && f.rm == 0 && f.sat == 0
  | .aload c _ => c.v != 3
  | .copy c _ => c.v != 3
  | .binscat c f => c.v != 3 && f.xb == 0 && f.flg == 0
  | .migrate c f => c.v != 3 && f.flg == 0
  | .cresume c f => c.v != 3 && f.xa == 0 && f.xb == 0 && f.xd == 0 && f.flg == 0
  | .cstatTl c f => c.v != 3 && f.xa == 0 && f.xb == 0 && f.flg == 0
  | .cstatStatus c f => c.v != 3 && f.xa == 0 && f.xb == 0 && f.flg == 1
  | .binset c f => c.v != 3 && f.tu == 0 && f.xd == 0 && f.flg == 0
  | .bindrop c f => c.v != 3 && f.tu == 0 && f.flg == 0
  | .sbind c f => c.v != 3 && f.xd == 0 && f.win == 0
  | .sunbind c f => c.v != 3 && f.xd == 0 && f.win == 0
  | .sflush c f => c.v != 3 && f.xd == 0 && f.xa == 0 && f.win == 0
  | .sskip c f => c.v != 3 && f.xd == 0 && f.win == 0
  | .smaxr c f => c.v != 3 && f.xa == 0 && f.win == 0
  | .smaxc c f => c.v != 3 && f.xa == 0 && f.win == 0
  | .sstat c f => c.v != 3 && f.xa == 0 && f.win == 0
  | .sptest c f => c.v != 3 && f.sr == 0 && f.win == 0
  | .spcast c f => c.v != 3 && f.sr == 0
  | .grpsetWrite c f => c.v != 3 && f.xb == 0 && f.ch == 0 && f.et == 0 && f.op == 0
  | .grpsetClaim c f => c.v != 3 && f.xb == 0 && f.ch == 0 && f.et == 0 && f.op == 1
  | .grpsetRelease c f => c.v != 3 && f.xb == 0 && f.ch == 0 && f.et == 0 && f.op == 2
  | .grpgetStore c f => c.v != 3 && f.xb == 0 && f.ch == 0 && f.et == 0 && f.op == 0
  | .grpgetWord c f => c.v != 3 && f.xb == 0 && f.ch == 0 && f.et == 0 && f.op == 1
  | .allred c _ => c.v != 3
  | .redsc c _ => c.v != 3
  | .allgat c _ => c.v != 3
  | .bcast c _ => c.v != 3
  | .owrite c f => c.v != 3 && f.xb == 0 && f.op == 0 && f.et == 0
  | .owred c f => c.v != 3 && f.xb == 0 && f.op == 0 && f.et == 0
  | .qparm c f => c.v != 3 && f.xb == 0 && f.ch == 0 && f.et == 0
  | .rndwait c f => c.v != 3 && f.xb == 0 && f.ch == 0 && f.op == 0 && f.et == 0
  | .slackr c f => c.v != 3 && f.xb == 0 && f.ch == 0 && f.et == 0
  | .kresume c f => c.v != 3 && f.xa == 0 && f.xb == 0 && f.ge == 0 && f.op == 0 && f.et == 0
  | .fenceSc c f => c.v != 3 && f.xd == 0 && f.xa == 0
  | .fenceRel c f => c.v != 3 && f.xd == 0 && f.xa == 0
  | .fenceAcq c f => c.v != 3 && f.xd == 0 && f.xa == 0
  | .pfence c f => c.v != 3 && f.xa == 0
  | .efence c _ => c.v != 3
  | .vouch c f => c.v != 3 && f.xa == 0
  | .waittl c _ => c.v != 3
  | .tlread c f => c.v != 3 && f.xa == 0
  | .semLd c f => c.v != 3 && f.xa == 0 && f.xb == 0
  | .semSt c f => c.v != 3 && f.xd == 0 && f.xb == 0
  | .semAdd c f => c.v != 3 && f.xb == 0
  | .semCas c _ => c.v != 3
  | .semMax c f => c.v != 3 && f.xb == 0
  | .semSwap c f => c.v != 3 && f.xb == 0
  | .semWait c f => c.v != 3 && f.xd == 0 && f.xb == 0
  | .bump c _ => c.v != 3
  | .ldacq c _ => c.v != 3
  | .strel c _ => c.v != 3
  | .illegalInstruction r => wfReject r
  | .rv64Load _ _ _ _ => true
  | .rv64Store _ _ _ _ => true
  | .amo _ _ _ _ _ _ _ => true
  | .lr _ _ _ _ _ => true
  | .sc _ _ _ _ _ _ => true
  | .rvFence _ _ _ _ _ => true
  | .fenceI _ _ _ => true
  | .ecall => true
  | .ebreak => true
  | .csrrw _ _ _ => true
  | .csrrs _ _ _ => true
  | .csrrc _ _ _ => true
  | .csrrwi _ _ _ => true
  | .csrrsi _ _ _ => true
  | .csrrci _ _ _ => true
  | .rv64Instruction _ => true
  | .engineIssue core _ => decide (core < 256)
  | .vectorIssue core => decide (core < 256)
  | .vectorCompletion core bank => decide (core < 256) && decide (bank < 2)
  | .trapDelivery core bank => decide (core < 256) && decide (bank < 2)
  | .entryArrival core bank sn => decide (core < 256) && decide (bank < 2) && decide (sn < 32)
  | .outputDrain core bank sn => decide (core < 256) && decide (bank < 2) && decide (sn < 32)
  | .copyStart core tu => decide (core < 256) && decide (tu < 4)
  | .copyIteration core tu => decide (core < 256) && decide (tu < 4)
  | .copyCompletion core tu => decide (core < 256) && decide (tu < 4)
  | .binscatToken core tu => decide (core < 256) && decide (tu < 4)
  | .pageMove _ => true
  | .migrateCompletion _ => true
  | .tileSchedulerStart core => decide (core < 256)
  | .mclaimPerformed core bank => decide (core < 256) && decide (bank < 2)
  | .mloadLine core bank => decide (core < 256) && decide (bank < 2)
  | .astoreEntry core bank => decide (core < 256) && decide (bank < 2)
  | .aloadEntry core bank => decide (core < 256) && decide (bank < 2)
  | .puntyMark core array => decide (core < 256) && decide (array < 6)
  | .matrixCompletion core bank => decide (core < 256) && decide (bank < 2)
  | .matrixDeadlockPreemption core => decide (core < 256)
  | .pop core bank => decide (core < 256) && decide (bank < 2)
  | .imageLoaded core bank => decide (core < 256) && decide (bank < 2)
  | .park core bank => decide (core < 256) && decide (bank < 2)
  | .waitConditionMet core bank => decide (core < 256) && decide (bank < 2)
  | .eviction core bank => decide (core < 256) && decide (bank < 2)
  | .preEmption core bank => decide (core < 256) && decide (bank < 2)
  | .imageSaved core bank => decide (core < 256) && decide (bank < 2)
  | .ageStep _ => true
  | .retirement core => decide (core < 256)
  | .preload core bank => decide (core < 256) && decide (bank < 2)
  | .budgetTick => true
  | .budgetEnd ctx slot => decide (ctx < 64) && decide (slot < 64)
  | .droopHalving quad => decide (quad < 4)
  | .droopRestore quad => decide (quad < 4)
  | .allowanceUpdate => true
  | .thermalMove core => decide (core < 256)
  | .rotateDeadline core => decide (core < 256)
  | .hbmRefresh stack => decide (stack < 12)
  | .refreshEnd stack => decide (stack < 12)
  | .powerCapHalving => true
  | .powerCapRestore => true
  | .semaphoreScrub => true
  | .slackPublication => true
  | .controlFormPerformed core => decide (core < 256)
  | .contributionSend core bank ch => decide (core < 256) && decide (bank < 2) && decide (ch < 2)
  | .contributionArrival _ => true
  | .roundReduction _ _ => true
  | .resultDelivery _ _ rank => decide (rank < 1024)
  | .closeNotice _ => true
  | .workEntryFire core bank ch => decide (core < 256) && decide (bank < 2) && decide (ch < 2)
  | .workEntryComplete core bank ch => decide (core < 256) && decide (bank < 2) && decide (ch < 2)
  | .heldFaultPost => true
  | .replayReady core bank => decide (core < 256) && decide (bank < 2)
  | .uncorrectableError _ _ _ => true
  | .gatedResponse _ => true
  | .remoteResend _ => true
  | .automaticWake core => decide (core < 256)
  | .qtlReached ctx => decide (ctx < 64)
  | .sealComplete core => decide (core < 256)
  | .resumption core => decide (core < 256)
  | .watchdog core _ => decide (core < 256)
  | .parityAlarm core _ => decide (core < 256)
  | .protocolAlarm core _ => decide (core < 256)
  | .vectorEngineReset core => decide (core < 256)
  | .matrixEngineReset core => decide (core < 256)
  | .copyEngineReset core => decide (core < 256)
  | .portProcessorReset port => decide (port < 16)
  | .coreReset core => decide (core < 256)
  | .dieReset die => decide (die < 2)
  | .packageReset => true
  | .rollingReset => true
  | .computeDomainLoss quad => decide (quad < 4)
  | .lehrDomainLoss quad => decide (quad < 4)
  | .lehrPowerReturn quad => decide (quad < 4)
  | .moduleInputLoss => true
  | .scan _ => true
  | .checkModeCompletion phys _ other _ => decide (phys < 72) && decide (other < 72)
  | .rotationSlice phys => decide (phys < 72)
  | .cstateConfigure ctx => decide (ctx < 64)
  | .cstateRun ctx => decide (ctx < 64)
  | .cstateFree ctx => decide (ctx < 64)
  | .cstateKill ctx => decide (ctx < 64)
  | .cgrant ctx _ => decide (ctx < 64)
  | .launchDoorbell ctx _ => decide (ctx < 64)
  | .lbud ctx _ => decide (ctx < 64)
  | .killl ctx _ => decide (ctx < 64)
  | .killc ctx _ => decide (ctx < 64)
  | .hans ctx _ => decide (ctx < 64)
  | .fansRetry ctx _ => decide (ctx < 64)
  | .fansDeny ctx _ => decide (ctx < 64)
  | .semd ctx _ => decide (ctx < 64)
  | .registerWrite _ _ _ => true
  | .fwgo _ => true
  | .firmwareVerification _ => true
  | .schfw _ => true
  | .partcfg _ => true
  | .mpwrPowerDown => true
  | .mpwrWake => true
  | .mpwrShutdown => true
  | .preset _ => true
  | .boot => true
  | .ismelInitialisation _ => true
  | .hostRead part _ _ => decide (part < 4)
  | .hostWrite part _ _ => decide (part < 4)
  | .functionLevelReset => true
  | .conventionalReset => true
  | .linkDown => true
  | .linkRetrain _ => true
  | .portTraining port _ => decide (port < 16)
  | .flitReplay port => decide (port < 16)
  | .quadrantThermalPowerDown quad => decide (quad < 4)
  | .quadrantThermalResume quad => decide (quad < 4)
  | .stackOverheatHalving stack => decide (stack < 12)
  | .thermalInputLoss => true
  | .getVersion => true
  | .getCapabilities => true
  | .negotiateAlgorithms => true
  | .getDigests => true
  | .getCertificate _ _ _ => true
  | .challenge _ _ => true
  | .getMeasurements _ _ => true
  | .vendorDefinedRequest _ => true
  | .unsupportedRequest _ => true
  | .stackOverheatRestore stack => decide (stack < 12)
  | .cdatDoeRequest _ => true
  | .hostCoherenceRequest _ => true

end Sys2Proof
end

