-- ==== Sys2Proof/Decode.lean ====
section
/-!
DEFINITION. Decode.lean: the instruction decoder of spec/02_encoding.md and, after it, an encoder written from the
same tables.
The decoder is total on any bytes: what is no instruction is rejected with the cause, reason and field of R63, in
the order of checks of R62 as far as the word alone decides it.
-/

namespace Sys2Proof

/-- `n` bits of `w` from bit `lo` upwards, as a number. -/
def fld {m : Nat} (w : BitVec m) (lo n : Nat) : Nat := (w.extractLsb' lo n).toNat

/-! ### Nuten words -/

/-- The transfer-unit queue that field TU names (R47). -/
def unitQueue : Nat → Queue
  | 0 => .c0
  | 1 => .c1
  | 2 => .c2
  | _ => .c3

/-- The V and IDLE fields of a word (R46). -/
def decCtl (w : BitVec 64) : Ctl := ⟨w.extractLsb' 7 2, w.extractLsb' 9 10⟩

/-- The operand fields of format VVV (R57). -/
def decVvv (w : BitVec 64) : FVvv :=
  ⟨w.extractLsb' 55 9, w.extractLsb' 46 9, w.extractLsb' 37 9, w.extractLsb' 31 6, w.extractLsb' 28 3⟩

/-- The operand fields of format VVI (R57). -/
def decVvi (w : BitVec 64) : FVvi :=
  ⟨w.extractLsb' 55 9, w.extractLsb' 46 9, w.extractLsb' 40 6, w.extractLsb' 37 3, w.extractLsb' 28 9⟩

/-- The operand fields of format VVX (R57). -/
def decVvx (w : BitVec 64) : FVvx :=
  ⟨w.extractLsb' 55 9, w.extractLsb' 46 9, w.extractLsb' 41 5, w.extractLsb' 35 6, w.extractLsb' 32 3⟩

/-- The operand fields of format VRD (R57). -/
def decVrd (w : BitVec 64) : FVrd :=
  ⟨w.extractLsb' 55 9, w.extractLsb' 46 9, w.extractLsb' 40 6, w.extractLsb' 37 3, w.extractLsb' 31 6⟩

/-- The operand fields of format VCV (R57). -/
def decVcv (w : BitVec 64) : FVcv :=
  ⟨w.extractLsb' 55 9, w.extractLsb' 46 9, w.extractLsb' 40 6, w.extractLsb' 36 4, w.extractLsb' 32 4, w.extractLsb' 29 3, w.extractLsb' 28 1⟩

/-- The operand fields of format PVV (R57). -/
def decPvv (w : BitVec 64) : FPvv :=
  ⟨w.extractLsb' 58 6, w.extractLsb' 49 9, w.extractLsb' 40 9, w.extractLsb' 34 6, w.extractLsb' 31 3, w.extractLsb' 28 3⟩

/-- The operand fields of format PPP (R57). -/
def decPpp (w : BitVec 64) : FPpp :=
  ⟨w.extractLsb' 58 6, w.extractLsb' 52 6, w.extractLsb' 46 6, w.extractLsb' 40 6, w.extractLsb' 32 8⟩

/-- The operand fields of format PXF (R57). -/
def decPxf (w : BitVec 64) : FPxf :=
  ⟨w.extractLsb' 58 6, w.extractLsb' 53 5, w.extractLsb' 48 5, w.extractLsb' 45 3, w.extractLsb' 41 4⟩

/-- The operand fields of format VMA (R57). -/
def decVma (w : BitVec 64) : FVma :=
  ⟨w.extractLsb' 55 9, w.extractLsb' 50 5, w.extractLsb' 44 6, w.extractLsb' 40 4, w.extractLsb' 28 12⟩

/-- The operand fields of format VG (R57). -/
def decVg (w : BitVec 64) : FVg :=
  ⟨w.extractLsb' 55 9, w.extractLsb' 50 5, w.extractLsb' 41 9, w.extractLsb' 35 6, w.extractLsb' 31 4, w.extractLsb' 28 3⟩

/-- The operand fields of format BR (R57). -/
def decBr (w : BitVec 64) : FBr :=
  ⟨w.extractLsb' 40 24⟩

/-- The operand fields of format MT (R57). -/
def decMt (w : BitVec 64) : FMt :=
  ⟨w.extractLsb' 60 4, w.extractLsb' 54 6, w.extractLsb' 48 6, w.extractLsb' 43 5, w.extractLsb' 39 4, w.extractLsb' 31 8, w.extractLsb' 30 1, w.extractLsb' 29 1, w.extractLsb' 28 1⟩

/-- The operand fields of format MS (R57). -/
def decMs (w : BitVec 64) : FMs :=
  ⟨w.extractLsb' 58 6, w.extractLsb' 53 5, w.extractLsb' 44 4, w.extractLsb' 40 4⟩

/-- The operand fields of format AS (R57). -/
def decAs (w : BitVec 64) : FAs :=
  ⟨w.extractLsb' 60 4, w.extractLsb' 55 5, w.extractLsb' 50 5, w.extractLsb' 46 4, w.extractLsb' 43 3, w.extractLsb' 42 1, w.extractLsb' 38 4⟩

/-- The operand fields of format CP (R57). -/
def decCp (w : BitVec 64) : FCp :=
  ⟨w.extractLsb' 62 2, w.extractLsb' 57 5, w.extractLsb' 52 5, w.extractLsb' 47 5, w.extractLsb' 43 4⟩

/-- The operand fields of format SB (R57). -/
def decSb (w : BitVec 64) : FSb :=
  ⟨w.extractLsb' 59 5, w.extractLsb' 54 5, w.extractLsb' 49 5, w.extractLsb' 46 3⟩

/-- The operand fields of format TK (R57). -/
def decTk (w : BitVec 64) : FTk :=
  ⟨w.extractLsb' 59 5, w.extractLsb' 54 5, w.extractLsb' 49 5, w.extractLsb' 28 21⟩

/-- The operand fields of format CR (R57). -/
def decCr (w : BitVec 64) : FCr :=
  ⟨w.extractLsb' 56 8⟩

/-- The operand fields of format SS (R57). -/
def decSs (w : BitVec 64) : FSs :=
  ⟨w.extractLsb' 59 5, w.extractLsb' 54 5, w.extractLsb' 49 5, w.extractLsb' 33 16⟩

/-- The operand fields of format GR (R57). -/
def decGr (w : BitVec 64) : FGr :=
  ⟨w.extractLsb' 59 5, w.extractLsb' 54 5, w.extractLsb' 49 5, w.extractLsb' 41 8, w.extractLsb' 40 1, w.extractLsb' 36 4, w.extractLsb' 32 4⟩

/-- The operand fields of format SC (R57). -/
def decSc (w : BitVec 64) : FSc :=
  ⟨w.extractLsb' 61 3, w.extractLsb' 56 5, w.extractLsb' 51 5⟩

/-- The operand fields of format TL (R57). -/
def decTl (w : BitVec 64) : FTl :=
  ⟨w.extractLsb' 61 3, w.extractLsb' 56 5, w.extractLsb' 51 5⟩

/-- The operand fields of format SM (R57). -/
def decSm (w : BitVec 64) : FSm :=
  ⟨w.extractLsb' 59 5, w.extractLsb' 54 5, w.extractLsb' 49 5, w.extractLsb' 44 5, w.extractLsb' 41 3⟩

/-- The operand fields of format MA (R57). -/
def decMa (w : BitVec 64) : FMa :=
  ⟨w.extractLsb' 59 5, w.extractLsb' 54 5, w.extractLsb' 52 2, w.extractLsb' 49 3, w.extractLsb' 28 21⟩

/-- The zero fields of an opcode, from bit 63 downwards (R57); none for an unassigned opcode (R59). A field that some OP or CODE of the
instruction uses is no zero field of the others (DESIGN CHOICE: log 50). -/
def zeroFields (opc : Nat) (w : BitVec 64) : Option (List (Nat × Nat)) :=
  match opc with
  | 0x000 => some [(63, 28)]
  | 0x001 => some [(55, 28)]
  | 0x002 => some [(63, 28)]
  | 0x003 => some [(53, 49), (48, 28)]
  | 0x004 => some []
  | 0x005 => some [(53, 49), (48, 28)]
  | 0x006 => some [(63, 59), (53, 49), (48, 28)]
  | 0x007 => some [(53, 49), (48, 28)]
  | 0x008 => some (if fld w 31 2 ≥ 2 then [(63, 59), (53, 49)] else [(53, 49)])
  | 0x009 => some [(53, 49)]
  | 0x00A => some [(63, 59), (53, 49)]
  | 0x00B => some [(63, 59), (48, 28)]
  | 0x00C => some [(53, 49)]
  | 0x00D => some []
  | 0x00E => some [(58, 54), (53, 49), (48, 28)]
  | 0x00F => some []
  | 0x010 => some [(53, 49)]
  | 0x011 => some [(58, 54), (53, 49)]
  | 0x012 => some [(53, 49), (48, 28)]
  | 0x020 => some [(53, 49), (32, 28)]
  | 0x021 => some [(63, 59), (58, 54), (53, 49), (48, 33), (32, 28)]
  | 0x022 => some (if fld w 33 16 = 1 then [(58, 54), (53, 49), (32, 28)] else [(53, 49), (32, 28)])
  | 0x023 => some [(53, 49), (48, 33), (32, 28)]
  | 0x024 => some [(53, 49), (48, 33), (32, 28)]
  | 0x025 => some [(53, 49), (48, 33), (32, 28)]
  | 0x026 => some [(63, 59), (58, 54), (53, 49), (32, 28)]
  | 0x027 => some [(63, 59), (32, 28)]
  | 0x028 => some [(48, 33), (32, 28)]
  | 0x040 => some []
  | 0x041 => some []
  | 0x042 => some []
  | 0x043 => some []
  | 0x044 => some []
  | 0x045 => some []
  | 0x046 => some []
  | 0x047 => some []
  | 0x048 => some []
  | 0x049 => some []
  | 0x04A => some []
  | 0x04B => some []
  | 0x04C => some []
  | 0x04D => some []
  | 0x04E => some []
  | 0x04F => some []
  | 0x050 => some []
  | 0x051 => some []
  | 0x052 => some []
  | 0x053 => some []
  | 0x054 => some []
  | 0x055 => some []
  | 0x056 => some []
  | 0x057 => some []
  | 0x058 => some []
  | 0x059 => some []
  | 0x05A => some []
  | 0x05B => some []
  | 0x05C => some []
  | 0x05D => some []
  | 0x05E => some []
  | 0x05F => some []
  | 0x060 => some [(31, 28)]
  | 0x061 => some [(31, 28)]
  | 0x062 => some [(31, 28)]
  | 0x063 => some [(31, 28)]
  | 0x064 => some [(31, 28)]
  | 0x065 => some [(31, 28)]
  | 0x066 => some [(54, 46), (31, 28)]
  | 0x067 => some [(31, 28)]
  | 0x068 => some [(30, 28)]
  | 0x069 => some [(36, 31), (30, 28)]
  | 0x06A => some [(36, 31), (30, 28)]
  | 0x06B => some [(36, 31), (30, 28)]
  | 0x06C => some [(30, 28)]
  | 0x06D => some []
  | 0x06E => some []
  | 0x070 => some [(36, 31), (30, 28)]
  | 0x071 => some [(36, 31), (30, 28)]
  | 0x072 => some [(36, 31), (30, 28)]
  | 0x073 => some [(36, 31), (30, 28)]
  | 0x074 => some [(36, 31), (30, 28)]
  | 0x075 => some []
  | 0x080 => some []
  | 0x081 => some []
  | 0x082 => some []
  | 0x083 => some []
  | 0x084 => some []
  | 0x085 => some [(63, 58), (47, 45), (40, 28)]
  | 0x086 => some [(63, 58), (47, 45), (40, 28)]
  | 0x087 => some [(36, 31), (30, 28)]
  | 0x088 => some []
  | 0x089 => some [(36, 31), (30, 28)]
  | 0x08A => some []
  | 0x08B => some []
  | 0x08C => some []
  | 0x08D => some []
  | 0x08E => some []
  | 0x08F => some []
  | 0x090 => some [(31, 28)]
  | 0x091 => some [(52, 48), (44, 41), (40, 28)]
  | 0x092 => some [(52, 48), (40, 28)]
  | 0x093 => some [(57, 53), (40, 28)]
  | 0x094 => some [(52, 48), (40, 28)]
  | 0x095 => some [(44, 41), (40, 28)]
  | 0x098 => some [(39, 28)]
  | 0x099 => some [(63, 28)]
  | 0x0C0 => some []
  | 0x0C1 => some []
  | 0x0C2 => some []
  | 0x0C3 => some []
  | 0x0C4 => some []
  | 0x0C5 => some []
  | 0x0C6 => some []
  | 0x0C7 => some []
  | 0x0C8 => some []
  | 0x0C9 => some []
  | 0x0CA => some [(57, 53), (52, 48), (43, 40), (39, 28)]
  | 0x0CB => some [(57, 53), (52, 48), (43, 40), (39, 28)]
  | 0x0CC => some [(52, 48), (39, 28)]
  | 0x0CD => some [(57, 53), (52, 48), (43, 40), (39, 28)]
  | 0x0CE => some [(63, 28)]
  | 0x0D0 => some [(37, 28)]
  | 0x0D1 => some [(37, 28)]
  | 0x0D2 => some [(59, 55), (54, 50), (49, 46), (45, 43), (42, 42), (37, 28)]
  | 0x0D3 => some [(37, 28)]
  | 0x100 => some [(42, 28)]
  | 0x101 => some [(56, 52), (46, 43), (42, 28)]
  | 0x102 => some [(46, 43), (42, 28)]
  | 0x103 => some [(61, 57), (56, 52), (51, 47), (46, 43), (42, 28)]
  | 0x104 => some [(61, 57), (56, 52), (42, 28)]
  | 0x105 => some [(63, 62), (51, 47), (46, 43), (42, 28)]
  | 0x106 => some [(63, 62), (46, 43), (42, 28)]
  | 0x108 => some [(58, 54), (48, 46), (45, 28)]
  | 0x109 => some [(58, 54), (48, 46), (45, 28)]
  | 0x10A => some [(58, 54), (53, 49), (48, 46), (45, 28)]
  | 0x10B => some [(58, 54), (48, 46), (45, 28)]
  | 0x10C => some [(53, 49), (48, 46), (45, 28)]
  | 0x10D => some [(53, 49), (48, 46), (45, 28)]
  | 0x10E => some [(53, 49), (48, 46), (45, 28)]
  | 0x110 => some [(63, 59), (48, 46), (45, 28)]
  | 0x111 => some [(63, 59), (45, 28)]
  | 0x140 => some [(53, 49), (40, 40), (35, 32), (31, 28)]
  | 0x141 => some [(53, 49), (40, 40), (35, 32), (31, 28)]
  | 0x142 => some [(31, 28)]
  | 0x143 => some [(31, 28)]
  | 0x144 => some [(31, 28)]
  | 0x145 => some [(31, 28)]
  | 0x146 => some [(53, 49), (39, 36), (35, 32), (31, 28)]
  | 0x147 => some [(53, 49), (39, 36), (35, 32), (31, 28)]
  | 0x148 => some [(53, 49), (40, 40), (35, 32), (31, 28)]
  | 0x149 => some [(53, 49), (40, 40), (39, 36), (35, 32), (31, 28)]
  | 0x14A => some [(53, 49), (40, 40), (35, 32), (31, 28)]
  | 0x14B => some [(58, 54), (53, 49), (48, 41), (39, 36), (35, 32), (31, 28)]
  | 0x180 => some [(60, 56), (55, 51), (50, 28)]
  | 0x181 => some [(60, 56), (55, 51), (50, 28)]
  | 0x182 => some [(60, 56), (55, 51), (50, 28)]
  | 0x183 => some [(55, 51), (50, 28)]
  | 0x184 => some [(50, 28)]
  | 0x185 => some [(55, 51), (50, 28)]
  | 0x186 => some [(50, 28)]
  | 0x187 => some [(55, 51), (50, 28)]
  | 0x188 => some [(53, 49), (48, 44), (40, 28)]
  | 0x189 => some [(63, 59), (48, 44), (40, 28)]
  | 0x18A => some [(48, 44), (40, 28)]
  | 0x18B => some [(40, 28)]
  | 0x18C => some [(48, 44), (40, 28)]
  | 0x18D => some [(48, 44), (40, 28)]
  | 0x18E => some [(63, 59), (48, 44), (40, 28)]
  | 0x18F => some [(40, 28)]
  | 0x190 => some []
  | 0x191 => some []
  | _ => none

/-- The lowest bit of the first zero field that holds a one (R57, R62). -/
def firstOne (w : BitVec 64) : List (Nat × Nat) → Option Nat
  | [] => none
  | (hi, lo) :: rest => if fld w lo (hi + 1 - lo) = 0 then firstOne w rest else some lo

/-- The instruction of an assigned opcode whose zero fields hold 0 (R59); a code field outside the instruction's
codes is an illegal operand, reason 0x19 (R261, R345, R338, R234, R294, R295). -/
def buildNuten (opc : Nat) (c : Ctl) (w : BitVec 64) : Except Reject Instr :=
  match opc with
  | 0x000 => .ok (.hold c)
  | 0x001 => .ok (.catchCrew c (decCr w))
  | 0x002 => .ok (.easy c)
  | 0x003 => .ok (.launch c (decTk w))
  | 0x004 => .ok (.spawn c (decTk w))
  | 0x005 => .ok (.join c (decTk w))
  | 0x006 => .ok (.tail c (decTk w))
  | 0x007 => .ok (.setpri c (decTk w))
  | 0x008 => match fld w 31 18 with
    | 0 => .ok (.eqsendReserveNext c (decTk w))
    | 1 => .ok (.eqsendReserve c (decTk w))
    | 2 => .ok (.eqsendPublish c (decTk w))
    | 3 => .ok (.eqsendClose c (decTk w))
    | _ => .error ⟨true, 0x19, 28, some (c, .cc), false⟩
  | 0x009 => match fld w 31 18 with
    | 0 => .ok (.eqrecvTakeNext c (decTk w))
    | 1 => .ok (.eqrecvTake c (decTk w))
    | _ => .error ⟨true, 0x19, 28, some (c, .cc), false⟩
  | 0x00A => match fld w 31 18 with
    | 0 => .ok (.eqfree c (decTk w))
    | _ => .error ⟨true, 0x19, 28, some (c, .cc), false⟩
  | 0x00B => .ok (.eqinit c (decTk w))
  | 0x00C => .ok (.widf c (decTk w))
  | 0x00D => .ok (.widins c (decTk w))
  | 0x00E => .ok (.budget c (decTk w))
  | 0x00F => .ok (.draw c (decTk w))
  | 0x010 => .ok (.thallow c (decTk w))
  | 0x011 => .ok (.slip c (decTk w))
  | 0x012 => .ok (.lerr c (decTk w))
  | 0x020 => .ok (.ntrap c (decSs w))
  | 0x021 => .ok (.tret c (decSs w))
  | 0x022 => match fld w 33 16 with
    | 0 => .ok (.killLaunch c (decSs w))
    | 1 => .ok (.killContext c (decSs w))
    | _ => .error ⟨true, 0x19, 33, some (c, .cc), true⟩
  | 0x023 => .ok (.quiesce c (decSs w))
  | 0x024 => .ok (.gate c (decSs w))
  | 0x025 => .ok (.wake c (decSs w))
  | 0x026 => .ok (.brk c (decSs w))
  | 0x027 => match fld w 33 16 with
    | 0 => .ok (.tlbinvAll c (decSs w))
    | 1 => .ok (.tlbinvRange c (decSs w))
    | _ => .error ⟨true, 0x19, 33, some (c, .cc), true⟩
  | 0x028 => .ok (.fltans c (decSs w))
  | 0x040 => .ok (.vadd c (decVvv w))
  | 0x041 => .ok (.vsub c (decVvv w))
  | 0x042 => .ok (.vmul c (decVvv w))
  | 0x043 => .ok (.vfma c (decVvv w))
  | 0x044 => .ok (.vfms c (decVvv w))
  | 0x045 => .ok (.vfnma c (decVvv w))
  | 0x046 => .ok (.vmin c (decVvv w))
  | 0x047 => .ok (.vmax c (decVvv w))
  | 0x048 => .ok (.vdiv c (decVvv w))
  | 0x049 => .ok (.vamin c (decVvv w))
  | 0x04A => .ok (.vamax c (decVvv w))
  | 0x04B => .ok (.vsadd c (decVvv w))
  | 0x04C => .ok (.vssub c (decVvv w))
  | 0x04D => .ok (.vmulh c (decVvv w))
  | 0x04E => .ok (.vdot2 c (decVvv w))
  | 0x04F => .ok (.vdot4 c (decVvv w))
  | 0x050 => .ok (.vand c (decVvv w))
  | 0x051 => .ok (.vor c (decVvv w))
  | 0x052 => .ok (.vxor c (decVvv w))
  | 0x053 => .ok (.vandn c (decVvv w))
  | 0x054 => .ok (.vsll c (decVvv w))
  | 0x055 => .ok (.vsrl c (decVvv w))
  | 0x056 => .ok (.vsra c (decVvv w))
  | 0x057 => .ok (.vsel c (decVvv w))
  | 0x058 => .ok (.vaddi c (decVvi w))
  | 0x059 => .ok (.vmini c (decVvi w))
  | 0x05A => .ok (.vmaxi c (decVvi w))
  | 0x05B => .ok (.vandi c (decVvi w))
  | 0x05C => .ok (.vxori c (decVvi w))
  | 0x05D => .ok (.vslli c (decVvi w))
  | 0x05E => .ok (.vsrli c (decVvi w))
  | 0x05F => .ok (.vsrai c (decVvi w))
  | 0x060 => .ok (.vaddx c (decVvx w))
  | 0x061 => .ok (.vsubx c (decVvx w))
  | 0x062 => .ok (.vmulx c (decVvx w))
  | 0x063 => .ok (.vfmax c (decVvx w))
  | 0x064 => .ok (.vminx c (decVvx w))
  | 0x065 => .ok (.vmaxx c (decVvx w))
  | 0x066 => .ok (.vbcast c (decVvx w))
  | 0x067 => .ok (.vscalex c (decVvx w))
  | 0x068 => .ok (.vfn c (decVrd w))
  | 0x069 => .ok (.vneg c (decVrd w))
  | 0x06A => .ok (.vabs c (decVrd w))
  | 0x06B => .ok (.vclass c (decVrd w))
  | 0x06C => .ok (.vbits c (decVrd w))
  | 0x06D => .ok (.vcvt c (decVcv w))
  | 0x06E => .ok (.vrint c (decVcv w))
  | 0x070 => .ok (.vrsum c (decVrd w))
  | 0x071 => .ok (.vrmax c (decVrd w))
  | 0x072 => .ok (.vrmin c (decVrd w))
  | 0x073 => .ok (.vramax c (decVrd w))
  | 0x074 => .ok (.vscan c (decVrd w))
  | 0x075 => .ok (.vcmp c (decPvv w))
  | 0x080 => .ok (.vld c (decVma w))
  | 0x081 => .ok (.vst c (decVma w))
  | 0x082 => .ok (.vgath c (decVg w))
  | 0x083 => .ok (.vscat c (decVg w))
  | 0x084 => .ok (.vscadd c (decVg w))
  | 0x085 => .ok (.rqrel c (decPxf w))
  | 0x086 => .ok (.rqstat c (decPxf w))
  | 0x087 => .ok (.vmov c (decVrd w))
  | 0x088 => .ok (.vperm c (decVvv w))
  | 0x089 => .ok (.vrev c (decVrd w))
  | 0x08A => .ok (.vzip c (decVvv w))
  | 0x08B => .ok (.vunzip c (decVvv w))
  | 0x08C => .ok (.vtrn c (decVvv w))
  | 0x08D => .ok (.vslide c (decVvi w))
  | 0x08E => .ok (.vrotl c (decVvi w))
  | 0x08F => .ok (.vbcl c (decVvi w))
  | 0x090 => .ok (.plog c (decPpp w))
  | 0x091 => .ok (.pcnt c (decPxf w))
  | 0x092 => .ok (.pfirst c (decPxf w))
  | 0x093 => .ok (.pfromx c (decPxf w))
  | 0x094 => .ok (.ptox c (decPxf w))
  | 0x095 => .ok (.pwhile c (decPxf w))
  | 0x098 => .ok (.loopb c (decBr w))
  | 0x099 => .ok (.vresume c)
  | 0x0C0 => .ok (.mmaE4m3 c (decMt w))
  | 0x0C1 => .ok (.mmaE5m2 c (decMt w))
  | 0x0C2 => .ok (.mmaInt8 c (decMt w))
  | 0x0C3 => .ok (.mmaBf16 c (decMt w))
  | 0x0C4 => .ok (.mmaFp16 c (decMt w))
  | 0x0C5 => .ok (.mmaMxfp8 c (decMt w))
  | 0x0C6 => .ok (.mmaMxfp6 c (decMt w))
  | 0x0C7 => .ok (.mmaMxfp4 c (decMt w))
  | 0x0C8 => .ok (.mmaMxint8 c (decMt w))
  | 0x0C9 => .ok (.mmaTern c (decMt w))
  | 0x0CA => .ok (.mclaim c (decMs w))
  | 0x0CB => .ok (.mrel c (decMs w))
  | 0x0CC => .ok (.mload c (decMs w))
  | 0x0CD => .ok (.mzero c (decMs w))
  | 0x0CE => .ok (.mresume c)
  | 0x0D0 => .ok (.astore c (decAs w))
  | 0x0D1 => .ok (.astoreT c (decAs w))
  | 0x0D2 => .ok (.aclr c (decAs w))
  | 0x0D3 => .ok (.aload c (decAs w))
  | 0x100 => .ok (.copy c (decCp w))
  | 0x101 => .ok (.binscat c (decCp w))
  | 0x102 => .ok (.migrate c (decCp w))
  | 0x103 => .ok (.cresume c (decCp w))
  | 0x104 => match fld w 43 4 with
    | 0 => .ok (.cstatTl c (decCp w))
    | 1 => .ok (.cstatStatus c (decCp w))
    | _ => .error ⟨true, 0x19, 43, some (c, unitQueue (fld w 62 2)), false⟩
  | 0x105 => .ok (.binset c (decCp w))
  | 0x106 => .ok (.bindrop c (decCp w))
  | 0x108 => .ok (.sbind c (decSb w))
  | 0x109 => .ok (.sunbind c (decSb w))
  | 0x10A => .ok (.sflush c (decSb w))
  | 0x10B => .ok (.sskip c (decSb w))
  | 0x10C => .ok (.smaxr c (decSb w))
  | 0x10D => .ok (.smaxc c (decSb w))
  | 0x10E => .ok (.sstat c (decSb w))
  | 0x110 => .ok (.sptest c (decSb w))
  | 0x111 => .ok (.spcast c (decSb w))
  | 0x140 => match fld w 36 4 with
    | 0 => .ok (.grpsetWrite c (decGr w))
    | 1 => .ok (.grpsetClaim c (decGr w))
    | 2 => .ok (.grpsetRelease c (decGr w))
    | _ => .error ⟨true, 0x19, 36, some (c, .col), false⟩
  | 0x141 => match fld w 36 4 with
    | 0 => .ok (.grpgetStore c (decGr w))
    | 1 => .ok (.grpgetWord c (decGr w))
    | _ => .error ⟨true, 0x19, 36, some (c, .col), false⟩
  | 0x142 => .ok (.allred c (decGr w))
  | 0x143 => .ok (.redsc c (decGr w))
  | 0x144 => .ok (.allgat c (decGr w))
  | 0x145 => .ok (.bcast c (decGr w))
  | 0x146 => .ok (.owrite c (decGr w))
  | 0x147 => .ok (.owred c (decGr w))
  | 0x148 => .ok (.qparm c (decGr w))
  | 0x149 => .ok (.rndwait c (decGr w))
  | 0x14A => .ok (.slackr c (decGr w))
  | 0x14B => .ok (.kresume c (decGr w))
  | 0x180 => .ok (.fenceSc c (decSc w))
  | 0x181 => .ok (.fenceRel c (decSc w))
  | 0x182 => .ok (.fenceAcq c (decSc w))
  | 0x183 => .ok (.pfence c (decSc w))
  | 0x184 => .ok (.efence c (decSc w))
  | 0x185 => .ok (.vouch c (decSc w))
  | 0x186 => .ok (.waittl c (decTl w))
  | 0x187 => .ok (.tlread c (decTl w))
  | 0x188 => .ok (.semLd c (decSm w))
  | 0x189 => .ok (.semSt c (decSm w))
  | 0x18A => .ok (.semAdd c (decSm w))
  | 0x18B => .ok (.semCas c (decSm w))
  | 0x18C => .ok (.semMax c (decSm w))
  | 0x18D => .ok (.semSwap c (decSm w))
  | 0x18E => .ok (.semWait c (decSm w))
  | 0x18F => .ok (.bump c (decSm w))
  | 0x190 => .ok (.ldacq c (decMa w))
  | 0x191 => .ok (.strel c (decMa w))
  | _ => .error ⟨false, 0x01, 19, none, false⟩

/-- A Nuten word (R46), with checks 3 to 5 of R62 in their order. -/
def decodeNuten (w : BitVec 64) : Except Reject Instr :=
  let opc := fld w 19 9
  if fld w 7 2 = 3 then .error ⟨false, 0x02, 7, none, false⟩
  else
    match zeroFields opc w with
    | none => .error ⟨false, 0x01, 19, none, false⟩
    | some zs =>
      match firstOne w zs with
      | some lo => .error ⟨false, 0x05, BitVec.ofNat 8 lo, none, false⟩
      | none => buildNuten opc (decCtl w) w

/-! ### RV64 words (R64) -/

/-- The reject of an RV64 encoding outside the supported extensions (R64). -/
def rvBad : Except Reject Instr := .error ⟨false, 0x04, 0, none, false⟩

def rvRd (w : BitVec 32) : BitVec 5 := w.extractLsb' 7 5
def rvRs1 (w : BitVec 32) : BitVec 5 := w.extractLsb' 15 5
def rvRs2 (w : BitVec 32) : BitVec 5 := w.extractLsb' 20 5
def rvImmI (w : BitVec 32) : BitVec 12 := w.extractLsb' 20 12
def rvImmS (w : BitVec 32) : BitVec 12 := w.extractLsb' 25 7 ++ w.extractLsb' 7 5
/-- Bits [12:1] of the B-type offset. -/
def rvImmB (w : BitVec 32) : BitVec 12 :=
  w.extractLsb' 31 1 ++ w.extractLsb' 7 1 ++ w.extractLsb' 25 6 ++ w.extractLsb' 8 4
/-- Bits [20:1] of the J-type offset. -/
def rvImmJ (w : BitVec 32) : BitVec 20 :=
  w.extractLsb' 31 1 ++ w.extractLsb' 12 8 ++ w.extractLsb' 20 1 ++ w.extractLsb' 21 10

/-- OP-IMM (RV64I and the one-operand and shift forms of Zbb). -/
def decodeOpImm (w : BitVec 32) : Except Reject Instr :=
  let rd := rvRd w
  let rs1 := rvRs1 w
  let i := rvImmI w
  match fld w 12 3 with
  | 0 => .ok (.rv64Instruction (.imm .addi rd rs1 i))
  | 2 => .ok (.rv64Instruction (.imm .slti rd rs1 i))
  | 3 => .ok (.rv64Instruction (.imm .sltiu rd rs1 i))
  | 4 => .ok (.rv64Instruction (.imm .xori rd rs1 i))
  | 6 => .ok (.rv64Instruction (.imm .ori rd rs1 i))
  | 7 => .ok (.rv64Instruction (.imm .andi rd rs1 i))
  | 1 =>
    if fld w 26 6 = 0 then .ok (.rv64Instruction (.sh .slli rd rs1 (w.extractLsb' 20 6)))
    else match fld w 20 12 with
      | 0x600 => .ok (.rv64Instruction (.un .clz rd rs1))
      | 0x601 => .ok (.rv64Instruction (.un .ctz rd rs1))
      | 0x602 => .ok (.rv64Instruction (.un .cpop rd rs1))
      | 0x604 => .ok (.rv64Instruction (.un .sextB rd rs1))
      | 0x605 => .ok (.rv64Instruction (.un .sextH rd rs1))
      | _ => rvBad
  | _ =>
    match fld w 26 6 with
    | 0x00 => .ok (.rv64Instruction (.sh .srli rd rs1 (w.extractLsb' 20 6)))
    | 0x10 => .ok (.rv64Instruction (.sh .srai rd rs1 (w.extractLsb' 20 6)))
    | 0x18 => .ok (.rv64Instruction (.sh .rori rd rs1 (w.extractLsb' 20 6)))
    | _ => match fld w 20 12 with
      | 0x287 => .ok (.rv64Instruction (.un .orcB rd rs1))
      | 0x6B8 => .ok (.rv64Instruction (.un .rev8 rd rs1))
      | _ => rvBad

/-- OP-IMM-32. -/
def decodeOpImm32 (w : BitVec 32) : Except Reject Instr :=
  let rd := rvRd w
  let rs1 := rvRs1 w
  match fld w 12 3 with
  | 0 => .ok (.rv64Instruction (.imm .addiw rd rs1 (rvImmI w)))
  | 1 =>
    if fld w 25 7 = 0 then .ok (.rv64Instruction (.shw .slliw rd rs1 (rvRs2 w)))
    else if fld w 26 6 = 2 then .ok (.rv64Instruction (.sh .slliUw rd rs1 (w.extractLsb' 20 6)))
    else match fld w 20 12 with
      | 0x600 => .ok (.rv64Instruction (.un .clzw rd rs1))
      | 0x601 => .ok (.rv64Instruction (.un .ctzw rd rs1))
      | 0x602 => .ok (.rv64Instruction (.un .cpopw rd rs1))
      | _ => rvBad
  | 5 =>
    match fld w 25 7 with
    | 0x00 => .ok (.rv64Instruction (.shw .srliw rd rs1 (rvRs2 w)))
    | 0x20 => .ok (.rv64Instruction (.shw .sraiw rd rs1 (rvRs2 w)))
    | 0x30 => .ok (.rv64Instruction (.shw .roriw rd rs1 (rvRs2 w)))
    | _ => rvBad
  | _ => rvBad

/-- The register-register operation that funct7 and funct3 of OP name. -/
def opRow (f7 f3 : Nat) : Option RegOp :=
  match f7, f3 with
  | 0x00, 0 => some .add
  | 0x20, 0 => some .sub
  | 0x00, 1 => some .sll
  | 0x00, 2 => some .slt
  | 0x00, 3 => some .sltu
  | 0x00, 4 => some .xor
  | 0x00, 5 => some .srl
  | 0x20, 5 => some .sra
  | 0x00, 6 => some .or
  | 0x00, 7 => some .and
  | 0x01, 0 => some .mul
  | 0x01, 1 => some .mulh
  | 0x01, 2 => some .mulhsu
  | 0x01, 3 => some .mulhu
  | 0x01, 4 => some .div
  | 0x01, 5 => some .divu
  | 0x01, 6 => some .rem
  | 0x01, 7 => some .remu
  | 0x10, 2 => some .sh1add
  | 0x10, 4 => some .sh2add
  | 0x10, 6 => some .sh3add
  | 0x20, 7 => some .andn
  | 0x20, 6 => some .orn
  | 0x20, 4 => some .xnor
  | 0x05, 6 => some .max
  | 0x05, 7 => some .maxu
  | 0x05, 4 => some .min
  | 0x05, 5 => some .minu
  | 0x30, 1 => some .rol
  | 0x30, 5 => some .ror
  | _, _ => none

/-- The register-register operation that funct7 and funct3 of OP-32 name. -/
def op32Row (f7 f3 : Nat) : Option RegOp :=
  match f7, f3 with
  | 0x00, 0 => some .addw
  | 0x20, 0 => some .subw
  | 0x00, 1 => some .sllw
  | 0x00, 5 => some .srlw
  | 0x20, 5 => some .sraw
  | 0x01, 0 => some .mulw
  | 0x01, 4 => some .divw
  | 0x01, 5 => some .divuw
  | 0x01, 6 => some .remw
  | 0x01, 7 => some .remuw
  | 0x04, 0 => some .addUw
  | 0x10, 2 => some .sh1addUw
  | 0x10, 4 => some .sh2addUw
  | 0x10, 6 => some .sh3addUw
  | 0x30, 1 => some .rolw
  | 0x30, 5 => some .rorw
  | _, _ => none

/-- OP and OP-32; zext.h is the one-operand form of OP-32 (Zbb). -/
def decodeOp (w32 : Bool) (w : BitVec 32) : Except Reject Instr :=
  let rd := rvRd w
  let rs1 := rvRs1 w
  let rs2 := rvRs2 w
  if w32 && fld w 25 7 == 0x04 && fld w 12 3 == 4 then
    if rs2 = 0 then .ok (.rv64Instruction (.un .zextH rd rs1)) else rvBad
  else
    match (if w32 then op32Row else opRow) (fld w 25 7) (fld w 12 3) with
    | some op => .ok (.rv64Instruction (.reg op rd rs1 rs2))
    | none => rvBad

/-- LOAD. -/
def decodeLoad (w : BitVec 32) : Except Reject Instr :=
  let mk (op : LoadOp) : Except Reject Instr := .ok (.rv64Load op (rvRd w) (rvRs1 w) (rvImmI w))
  match fld w 12 3 with
  | 0 => mk .lb
  | 1 => mk .lh
  | 2 => mk .lw
  | 3 => mk .ld
  | 4 => mk .lbu
  | 5 => mk .lhu
  | 6 => mk .lwu
  | _ => rvBad

/-- STORE. -/
def decodeStore (w : BitVec 32) : Except Reject Instr :=
  let mk (op : StoreOp) : Except Reject Instr := .ok (.rv64Store op (rvRs1 w) (rvRs2 w) (rvImmS w))
  match fld w 12 3 with
  | 0 => mk .sb
  | 1 => mk .sh
  | 2 => mk .sw
  | 3 => mk .sd
  | _ => rvBad

/-- BRANCH. -/
def decodeBranch (w : BitVec 32) : Except Reject Instr :=
  let mk (op : BrOp) : Except Reject Instr := .ok (.rv64Instruction (.branch op (rvRs1 w) (rvRs2 w) (rvImmB w)))
  match fld w 12 3 with
  | 0 => mk .beq
  | 1 => mk .bne
  | 4 => mk .blt
  | 5 => mk .bge
  | 6 => mk .bltu
  | 7 => mk .bgeu
  | _ => rvBad

/-- AMO: funct3 2 is the word form and 3 the doubleword form. -/
def decodeAmo (w : BitVec 32) : Except Reject Instr :=
  let dbl := fld w 12 3 == 3
  let aq := w.getLsbD 26
  let rl := w.getLsbD 25
  let mk (op : AmoOp) : Except Reject Instr := .ok (.amo op dbl aq rl (rvRd w) (rvRs1 w) (rvRs2 w))
  if fld w 12 3 = 2 ∨ fld w 12 3 = 3 then
    match fld w 27 5 with
    | 0x00 => mk .add
    | 0x01 => mk .swap
    | 0x02 => if rvRs2 w = 0 then .ok (.lr dbl aq rl (rvRd w) (rvRs1 w)) else rvBad
    | 0x03 => .ok (.sc dbl aq rl (rvRd w) (rvRs1 w) (rvRs2 w))
    | 0x04 => mk .xor
    | 0x08 => mk .or
    | 0x0C => mk .and
    | 0x10 => mk .min
    | 0x14 => mk .max
    | 0x18 => mk .minu
    | 0x1C => mk .maxu
    | _ => rvBad
  else rvBad

/-- SYSTEM: ECALL, EBREAK and Zicsr; SRET, MRET, WFI and SFENCE.VMA are not implemented (R326). -/
def decodeSystem (w : BitVec 32) : Except Reject Instr :=
  let rd := rvRd w
  let rs1 := rvRs1 w
  let csr := rvImmI w
  match fld w 12 3 with
  | 0 => if w = 0x00000073 then .ok .ecall else if w = 0x00100073 then .ok .ebreak else rvBad
  | 1 => .ok (.csrrw rd csr rs1)
  | 2 => .ok (.csrrs rd csr rs1)
  | 3 => .ok (.csrrc rd csr rs1)
  | 5 => .ok (.csrrwi rd csr rs1)
  | 6 => .ok (.csrrsi rd csr rs1)
  | 7 => .ok (.csrrci rd csr rs1)
  | _ => rvBad

/-- A 32-bit RV64 word (R64). -/
def decodeRv (w : BitVec 32) : Except Reject Instr :=
  match fld w 0 7 with
  | 0x03 => decodeLoad w
  | 0x0F =>
    match fld w 12 3 with
    | 0 => .ok (.rvFence (w.extractLsb' 28 4) (w.extractLsb' 24 4) (w.extractLsb' 20 4) (rvRd w) (rvRs1 w))
    | 1 => .ok (.fenceI (rvRd w) (rvRs1 w) (rvImmI w))
    | _ => rvBad
  | 0x13 => decodeOpImm w
  | 0x17 => .ok (.rv64Instruction (.auipc (rvRd w) (w.extractLsb' 12 20)))
  | 0x1B => decodeOpImm32 w
  | 0x23 => decodeStore w
  | 0x2F => decodeAmo w
  | 0x33 => decodeOp false w
  | 0x37 => .ok (.rv64Instruction (.lui (rvRd w) (w.extractLsb' 12 20)))
  | 0x3B => decodeOp true w
  | 0x63 => decodeBranch w
  | 0x67 => if fld w 12 3 = 0 then .ok (.rv64Instruction (.jalr (rvRd w) (rvRs1 w) (rvImmI w))) else rvBad
  | 0x6F => .ok (.rv64Instruction (.jal (rvRd w) (rvImmJ w)))
  | 0x73 => decodeSystem w
  | _ => rvBad

/-! ### Length (R44) and the parcel stream (R43, R45) -/

/-- The lengths that R44 announces in the low bits of the first parcel. -/
inductive Length
  | bits16 | rv32 | bits48 | nuten | long
deriving DecidableEq, Repr

/-- R44. -/
def parcelLength (p : BitVec 32) : Length :=
  if fld p 0 2 ≠ 3 then .bits16
  else if fld p 2 3 ≠ 7 then .rv32
  else if fld p 0 6 = 0x1F then .bits48
  else if fld p 0 7 = 0x3F then .nuten
  else .long

/-- Little-endian value of a byte list (R43). -/
def leNat : List Byte → Nat
  | [] => 0
  | b :: bs => b.toNat + 256 * leNat bs

/-- Decoding the instruction that starts with first parcel `p` and second parcel `q`; the second is read only for a
Nuten word. -/
def decodeParcels (p q : BitVec 32) : Except Reject Instr :=
  match parcelLength p with
  | .rv32 => decodeRv p
  | .nuten => decodeNuten (q ++ p)
  | _ => .error ⟨false, 0x04, 0, none, false⟩

/-- Bytes an instruction takes: 8 for a Nuten word, 4 for any other encoding (R43, R44). -/
def parcelBytes (p : BitVec 32) : Nat :=
  match parcelLength p with
  | .nuten => 8
  | _ => 4

/-- Decoding from a stream of bytes, total on any bytes: the instruction and the bytes after it, a reject with its
reason, or none where the bytes end before the instruction does. -/
def decode (bs : List Byte) : Option (Except Reject (Instr × List Byte)) :=
  if bs.length < 4 then none
  else
    let p := BitVec.ofNat 32 (leNat (bs.take 4))
    let n := parcelBytes p
    if bs.length < n then none
    else
      let q := BitVec.ofNat 32 (leNat ((bs.drop 4).take 4))
      match decodeParcels p q with
      | .error r => some (.error r)
      | .ok i => some (.ok (i, bs.drop n))

/-- The value that tval receives for an illegal encoding (R61): the 64-bit word of a Nuten encoding, the zero-extended parcel of 32 bits
(R43) of a 32-bit or 16-bit encoding, and of a 48-bit or longer one too, which R61 does not name (DESIGN CHOICE: log 47). -/
def illegalTval (p q : BitVec 32) : Word :=
  match parcelLength p with
  | .nuten => q ++ p
  | _ => p.setWidth 64

/-- The instruction of a table word of `nbits` bits, its first parcel in the low bits; bits above `nbits` are 0. -/
def decodeTableWord (nbits w : Nat) : Option Instr :=
  let v := w % 2 ^ nbits
  match decodeParcels (BitVec.ofNat 32 v) (BitVec.ofNat 32 (v >>> 32)) with
  | .ok i => some i
  | .error _ => none

/-! ### The encoder -/

/-- Operand bits [63:28] of format VVV (R57). -/
def encVvv (f : FVvv) : BitVec 36 :=
  f.vd ++ f.va ++ f.vb ++ f.pg ++ f.ty

/-- Operand bits [63:28] of format VVI (R57). -/
def encVvi (f : FVvi) : BitVec 36 :=
  f.vd ++ f.va ++ f.pg ++ f.ty ++ f.imm

/-- Operand bits [63:28] of format VVX (R57). -/
def encVvx (f : FVvx) : BitVec 36 :=
  f.vd ++ f.va ++ f.xs ++ f.pg ++ f.ty ++ 0#4

/-- Operand bits [63:28] of format VRD (R57). -/
def encVrd (f : FVrd) : BitVec 36 :=
  f.vd ++ f.va ++ f.pg ++ f.ty ++ f.fn ++ 0#3

/-- Operand bits [63:28] of format VCV (R57). -/
def encVcv (f : FVcv) : BitVec 36 :=
  f.vd ++ f.va ++ f.pg ++ f.ets ++ f.etd ++ f.rm ++ f.sat

/-- Operand bits [63:28] of format PVV (R57). -/
def encPvv (f : FPvv) : BitVec 36 :=
  f.pd ++ f.va ++ f.vb ++ f.pg ++ f.ty ++ f.cc

/-- Operand bits [63:28] of format PPP (R57). -/
def encPpp (f : FPpp) : BitVec 36 :=
  f.pd ++ f.pa ++ f.pb ++ f.pc ++ f.tt ++ 0#4

/-- Operand bits [63:28] of format PXF (R57). -/
def encPxf (f : FPxf) : BitVec 36 :=
  f.pd ++ f.xd ++ f.xa ++ f.ty ++ f.fn ++ 0#13

/-- Operand bits [63:28] of format VMA (R57). -/
def encVma (f : FVma) : BitVec 36 :=
  f.vt ++ f.xb ++ f.pg ++ f.et ++ f.off

/-- Operand bits [63:28] of format VG (R57). -/
def encVg (f : FVg) : BitVec 36 :=
  f.vt ++ f.xb ++ f.vi ++ f.pg ++ f.et ++ f.sh

/-- Operand bits [63:28] of format BR (R57). -/
def encBr (f : FBr) : BitVec 36 :=
  f.off ++ 0#12

/-- Operand bits [63:28] of format MT (R57). -/
def encMt (f : FMt) : BitVec 36 :=
  f.acc ++ f.ma ++ f.mb ++ f.xg ++ f.crs ++ f.pm1 ++ f.ta ++ f.tb ++ f.clr

/-- Operand bits [63:28] of format MS (R57). -/
def encMs (f : FMs) : BitVec 36 :=
  f.ms ++ f.sr ++ 0#5 ++ f.crs ++ f.et ++ 0#12

/-- Operand bits [63:28] of format AS (R57). -/
def encAs (f : FAs) : BitVec 36 :=
  f.acc ++ f.sr ++ f.xg ++ f.etd ++ f.rm ++ f.sat ++ f.crs ++ 0#10

/-- Operand bits [63:28] of format CP (R57). -/
def encCp (f : FCp) : BitVec 36 :=
  f.tu ++ f.xa ++ f.xb ++ f.xd ++ f.flg ++ 0#15

/-- Operand bits [63:28] of format SB (R57). -/
def encSb (f : FSb) : BitVec 36 :=
  f.sr ++ f.xd ++ f.xa ++ f.win ++ 0#18

/-- Operand bits [63:28] of format TK (R57). -/
def encTk (f : FTk) : BitVec 36 :=
  f.xd ++ f.xa ++ f.xb ++ f.imm

/-- Operand bits [63:28] of format CR (R57). -/
def encCr (f : FCr) : BitVec 36 :=
  f.mask ++ 0#28

/-- Operand bits [63:28] of format SS (R57). -/
def encSs (f : FSs) : BitVec 36 :=
  f.xd ++ f.xa ++ f.xb ++ f.code ++ 0#5

/-- Operand bits [63:28] of format GR (R57). -/
def encGr (f : FGr) : BitVec 36 :=
  f.xd ++ f.xa ++ f.xb ++ f.ge ++ f.ch ++ f.op ++ f.et ++ 0#4

/-- Operand bits [63:28] of format SC (R57). -/
def encSc (f : FSc) : BitVec 36 :=
  f.scope ++ f.xd ++ f.xa ++ 0#23

/-- Operand bits [63:28] of format TL (R57). -/
def encTl (f : FTl) : BitVec 36 :=
  f.tln ++ f.xd ++ f.xa ++ 0#23

/-- Operand bits [63:28] of format SM (R57). -/
def encSm (f : FSm) : BitVec 36 :=
  f.xd ++ f.xh ++ f.xa ++ f.xb ++ f.scope ++ 0#13

/-- Operand bits [63:28] of format MA (R57). -/
def encMa (f : FMa) : BitVec 36 :=
  f.xd ++ f.xa ++ f.sz ++ f.scope ++ f.off

/-- A Nuten word of its opcode, scheduling bits and operand bits (R46). -/
def nutenWord (opc : BitVec 9) (c : Ctl) (operands : BitVec 36) : BitVec 64 :=
  operands ++ opc ++ c.idle ++ c.v ++ 0x3F#7

/-- The Nuten word of an instruction of the opcode map (R59); none for every other row. -/
def encodeNuten : Instr → Option (BitVec 64)
  | .hold c => some (nutenWord 0x000 c 0)
  | .catchCrew c f => some (nutenWord 0x001 c (encCr f))
  | .easy c => some (nutenWord 0x002 c 0)
  | .launch c f => some (nutenWord 0x003 c (encTk f))
  | .spawn c f => some (nutenWord 0x004 c (encTk f))
  | .join c f => some (nutenWord 0x005 c (encTk f))
  | .tail c f => some (nutenWord 0x006 c (encTk f))
  | .setpri c f => some (nutenWord 0x007 c (encTk f))
  | .eqsendReserveNext c f => some (nutenWord 0x008 c (encTk f))
  | .eqsendReserve c f => some (nutenWord 0x008 c (encTk f))
  | .eqsendPublish c f => some (nutenWord 0x008 c (encTk f))
  | .eqsendClose c f => some (nutenWord 0x008 c (encTk f))
  | .eqrecvTakeNext c f => some (nutenWord 0x009 c (encTk f))
  | .eqrecvTake c f => some (nutenWord 0x009 c (encTk f))
  | .eqfree c f => some (nutenWord 0x00A c (encTk f))
  | .eqinit c f => some (nutenWord 0x00B c (encTk f))
  | .widf c f => some (nutenWord 0x00C c (encTk f))
  | .widins c f => some (nutenWord 0x00D c (encTk f))
  | .budget c f => some (nutenWord 0x00E c (encTk f))
  | .draw c f => some (nutenWord 0x00F c (encTk f))
  | .thallow c f => some (nutenWord 0x010 c (encTk f))
  | .slip c f => some (nutenWord 0x011 c (encTk f))
  | .lerr c f => some (nutenWord 0x012 c (encTk f))
  | .ntrap c f => some (nutenWord 0x020 c (encSs f))
  | .tret c f => some (nutenWord 0x021 c (encSs f))
  | .killLaunch c f => some (nutenWord 0x022 c (encSs f))
  | .killContext c f => some (nutenWord 0x022 c (encSs f))
  | .quiesce c f => some (nutenWord 0x023 c (encSs f))
  | .gate c f => some (nutenWord 0x024 c (encSs f))
  | .wake c f => some (nutenWord 0x025 c (encSs f))
  | .brk c f => some (nutenWord 0x026 c (encSs f))
  | .tlbinvAll c f => some (nutenWord 0x027 c (encSs f))
  | .tlbinvRange c f => some (nutenWord 0x027 c (encSs f))
  | .fltans c f => some (nutenWord 0x028 c (encSs f))
  | .vadd c f => some (nutenWord 0x040 c (encVvv f))
  | .vsub c f => some (nutenWord 0x041 c (encVvv f))
  | .vmul c f => some (nutenWord 0x042 c (encVvv f))
  | .vfma c f => some (nutenWord 0x043 c (encVvv f))
  | .vfms c f => some (nutenWord 0x044 c (encVvv f))
  | .vfnma c f => some (nutenWord 0x045 c (encVvv f))
  | .vmin c f => some (nutenWord 0x046 c (encVvv f))
  | .vmax c f => some (nutenWord 0x047 c (encVvv f))
  | .vdiv c f => some (nutenWord 0x048 c (encVvv f))
  | .vamin c f => some (nutenWord 0x049 c (encVvv f))
  | .vamax c f => some (nutenWord 0x04A c (encVvv f))
  | .vsadd c f => some (nutenWord 0x04B c (encVvv f))
  | .vssub c f => some (nutenWord 0x04C c (encVvv f))
  | .vmulh c f => some (nutenWord 0x04D c (encVvv f))
  | .vdot2 c f => some (nutenWord 0x04E c (encVvv f))
  | .vdot4 c f => some (nutenWord 0x04F c (encVvv f))
  | .vand c f => some (nutenWord 0x050 c (encVvv f))
  | .vor c f => some (nutenWord 0x051 c (encVvv f))
  | .vxor c f => some (nutenWord 0x052 c (encVvv f))
  | .vandn c f => some (nutenWord 0x053 c (encVvv f))
  | .vsll c f => some (nutenWord 0x054 c (encVvv f))
  | .vsrl c f => some (nutenWord 0x055 c (encVvv f))
  | .vsra c f => some (nutenWord 0x056 c (encVvv f))
  | .vsel c f => some (nutenWord 0x057 c (encVvv f))
  | .vaddi c f => some (nutenWord 0x058 c (encVvi f))
  | .vmini c f => some (nutenWord 0x059 c (encVvi f))
  | .vmaxi c f => some (nutenWord 0x05A c (encVvi f))
  | .vandi c f => some (nutenWord 0x05B c (encVvi f))
  | .vxori c f => some (nutenWord 0x05C c (encVvi f))
  | .vslli c f => some (nutenWord 0x05D c (encVvi f))
  | .vsrli c f => some (nutenWord 0x05E c (encVvi f))
  | .vsrai c f => some (nutenWord 0x05F c (encVvi f))
  | .vaddx c f => some (nutenWord 0x060 c (encVvx f))
  | .vsubx c f => some (nutenWord 0x061 c (encVvx f))
  | .vmulx c f => some (nutenWord 0x062 c (encVvx f))
  | .vfmax c f => some (nutenWord 0x063 c (encVvx f))
  | .vminx c f => some (nutenWord 0x064 c (encVvx f))
  | .vmaxx c f => some (nutenWord 0x065 c (encVvx f))
  | .vbcast c f => some (nutenWord 0x066 c (encVvx f))
  | .vscalex c f => some (nutenWord 0x067 c (encVvx f))
  | .vfn c f => some (nutenWord 0x068 c (encVrd f))
  | .vneg c f => some (nutenWord 0x069 c (encVrd f))
  | .vabs c f => some (nutenWord 0x06A c (encVrd f))
  | .vclass c f => some (nutenWord 0x06B c (encVrd f))
  | .vbits c f => some (nutenWord 0x06C c (encVrd f))
  | .vcvt c f => some (nutenWord 0x06D c (encVcv f))
  | .vrint c f => some (nutenWord 0x06E c (encVcv f))
  | .vrsum c f => some (nutenWord 0x070 c (encVrd f))
  | .vrmax c f => some (nutenWord 0x071 c (encVrd f))
  | .vrmin c f => some (nutenWord 0x072 c (encVrd f))
  | .vramax c f => some (nutenWord 0x073 c (encVrd f))
  | .vscan c f => some (nutenWord 0x074 c (encVrd f))
  | .vcmp c f => some (nutenWord 0x075 c (encPvv f))
  | .vld c f => some (nutenWord 0x080 c (encVma f))
  | .vst c f => some (nutenWord 0x081 c (encVma f))
  | .vgath c f => some (nutenWord 0x082 c (encVg f))
  | .vscat c f => some (nutenWord 0x083 c (encVg f))
  | .vscadd c f => some (nutenWord 0x084 c (encVg f))
  | .rqrel c f => some (nutenWord 0x085 c (encPxf f))
  | .rqstat c f => some (nutenWord 0x086 c (encPxf f))
  | .vmov c f => some (nutenWord 0x087 c (encVrd f))
  | .vperm c f => some (nutenWord 0x088 c (encVvv f))
  | .vrev c f => some (nutenWord 0x089 c (encVrd f))
  | .vzip c f => some (nutenWord 0x08A c (encVvv f))
  | .vunzip c f => some (nutenWord 0x08B c (encVvv f))
  | .vtrn c f => some (nutenWord 0x08C c (encVvv f))
  | .vslide c f => some (nutenWord 0x08D c (encVvi f))
  | .vrotl c f => some (nutenWord 0x08E c (encVvi f))
  | .vbcl c f => some (nutenWord 0x08F c (encVvi f))
  | .plog c f => some (nutenWord 0x090 c (encPpp f))
  | .pcnt c f => some (nutenWord 0x091 c (encPxf f))
  | .pfirst c f => some (nutenWord 0x092 c (encPxf f))
  | .pfromx c f => some (nutenWord 0x093 c (encPxf f))
  | .ptox c f => some (nutenWord 0x094 c (encPxf f))
  | .pwhile c f => some (nutenWord 0x095 c (encPxf f))
  | .loopb c f => some (nutenWord 0x098 c (encBr f))
  | .vresume c => some (nutenWord 0x099 c 0)
  | .mmaE4m3 c f => some (nutenWord 0x0C0 c (encMt f))
  | .mmaE5m2 c f => some (nutenWord 0x0C1 c (encMt f))
  | .mmaInt8 c f => some (nutenWord 0x0C2 c (encMt f))
  | .mmaBf16 c f => some (nutenWord 0x0C3 c (encMt f))
  | .mmaFp16 c f => some (nutenWord 0x0C4 c (encMt f))
  | .mmaMxfp8 c f => some (nutenWord 0x0C5 c (encMt f))
  | .mmaMxfp6 c f => some (nutenWord 0x0C6 c (encMt f))
  | .mmaMxfp4 c f => some (nutenWord 0x0C7 c (encMt f))
  | .mmaMxint8 c f => some (nutenWord 0x0C8 c (encMt f))
  | .mmaTern c f => some (nutenWord 0x0C9 c (encMt f))
  | .mclaim c f => some (nutenWord 0x0CA c (encMs f))
  | .mrel c f => some (nutenWord 0x0CB c (encMs f))
  | .mload c f => some (nutenWord 0x0CC c (encMs f))
  | .mzero c f => some (nutenWord 0x0CD c (encMs f))
  | .mresume c => some (nutenWord 0x0CE c 0)
  | .astore c f => some (nutenWord 0x0D0 c (encAs f))
  | .astoreT c f => some (nutenWord 0x0D1 c (encAs f))
  | .aclr c f => some (nutenWord 0x0D2 c (encAs f))
  | .aload c f => some (nutenWord 0x0D3 c (encAs f))
  | .copy c f => some (nutenWord 0x100 c (encCp f))
  | .binscat c f => some (nutenWord 0x101 c (encCp f))
  | .migrate c f => some (nutenWord 0x102 c (encCp f))
  | .cresume c f => some (nutenWord 0x103 c (encCp f))
  | .cstatTl c f => some (nutenWord 0x104 c (encCp f))
  | .cstatStatus c f => some (nutenWord 0x104 c (encCp f))
  | .binset c f => some (nutenWord 0x105 c (encCp f))
  | .bindrop c f => some (nutenWord 0x106 c (encCp f))
  | .sbind c f => some (nutenWord 0x108 c (encSb f))
  | .sunbind c f => some (nutenWord 0x109 c (encSb f))
  | .sflush c f => some (nutenWord 0x10A c (encSb f))
  | .sskip c f => some (nutenWord 0x10B c (encSb f))
  | .smaxr c f => some (nutenWord 0x10C c (encSb f))
  | .smaxc c f => some (nutenWord 0x10D c (encSb f))
  | .sstat c f => some (nutenWord 0x10E c (encSb f))
  | .sptest c f => some (nutenWord 0x110 c (encSb f))
  | .spcast c f => some (nutenWord 0x111 c (encSb f))
  | .grpsetWrite c f => some (nutenWord 0x140 c (encGr f))
  | .grpsetClaim c f => some (nutenWord 0x140 c (encGr f))
  | .grpsetRelease c f => some (nutenWord 0x140 c (encGr f))
  | .grpgetStore c f => some (nutenWord 0x141 c (encGr f))
  | .grpgetWord c f => some (nutenWord 0x141 c (encGr f))
  | .allred c f => some (nutenWord 0x142 c (encGr f))
  | .redsc c f => some (nutenWord 0x143 c (encGr f))
  | .allgat c f => some (nutenWord 0x144 c (encGr f))
  | .bcast c f => some (nutenWord 0x145 c (encGr f))
  | .owrite c f => some (nutenWord 0x146 c (encGr f))
  | .owred c f => some (nutenWord 0x147 c (encGr f))
  | .qparm c f => some (nutenWord 0x148 c (encGr f))
  | .rndwait c f => some (nutenWord 0x149 c (encGr f))
  | .slackr c f => some (nutenWord 0x14A c (encGr f))
  | .kresume c f => some (nutenWord 0x14B c (encGr f))
  | .fenceSc c f => some (nutenWord 0x180 c (encSc f))
  | .fenceRel c f => some (nutenWord 0x181 c (encSc f))
  | .fenceAcq c f => some (nutenWord 0x182 c (encSc f))
  | .pfence c f => some (nutenWord 0x183 c (encSc f))
  | .efence c f => some (nutenWord 0x184 c (encSc f))
  | .vouch c f => some (nutenWord 0x185 c (encSc f))
  | .waittl c f => some (nutenWord 0x186 c (encTl f))
  | .tlread c f => some (nutenWord 0x187 c (encTl f))
  | .semLd c f => some (nutenWord 0x188 c (encSm f))
  | .semSt c f => some (nutenWord 0x189 c (encSm f))
  | .semAdd c f => some (nutenWord 0x18A c (encSm f))
  | .semCas c f => some (nutenWord 0x18B c (encSm f))
  | .semMax c f => some (nutenWord 0x18C c (encSm f))
  | .semSwap c f => some (nutenWord 0x18D c (encSm f))
  | .semWait c f => some (nutenWord 0x18E c (encSm f))
  | .bump c f => some (nutenWord 0x18F c (encSm f))
  | .ldacq c f => some (nutenWord 0x190 c (encMa f))
  | .strel c f => some (nutenWord 0x191 c (encMa f))
  | .illegalInstruction _ => none
  | .rv64Load _ _ _ _ => none
  | .rv64Store _ _ _ _ => none
  | .amo _ _ _ _ _ _ _ => none
  | .lr _ _ _ _ _ => none
  | .sc _ _ _ _ _ _ => none
  | .rvFence _ _ _ _ _ => none
  | .fenceI _ _ _ => none
  | .ecall => none
  | .ebreak => none
  | .csrrw _ _ _ => none
  | .csrrs _ _ _ => none
  | .csrrc _ _ _ => none
  | .csrrwi _ _ _ => none
  | .csrrsi _ _ _ => none
  | .csrrci _ _ _ => none
  | .rv64Instruction _ => none
  | .engineIssue _ _ => none
  | .vectorIssue _ => none
  | .vectorCompletion _ _ => none
  | .trapDelivery _ _ => none
  | .entryArrival _ _ _ => none
  | .outputDrain _ _ _ => none
  | .copyStart _ _ => none
  | .copyIteration _ _ => none
  | .copyCompletion _ _ => none
  | .binscatToken _ _ => none
  | .pageMove _ => none
  | .migrateCompletion _ => none
  | .tileSchedulerStart _ => none
  | .mclaimPerformed _ _ => none
  | .mloadLine _ _ => none
  | .astoreEntry _ _ => none
  | .aloadEntry _ _ => none
  | .puntyMark _ _ => none
  | .matrixCompletion _ _ => none
  | .matrixDeadlockPreemption _ => none
  | .pop _ _ => none
  | .imageLoaded _ _ => none
  | .park _ _ => none
  | .waitConditionMet _ _ => none
  | .eviction _ _ => none
  | .preEmption _ _ => none
  | .imageSaved _ _ => none
  | .ageStep _ => none
  | .retirement _ => none
  | .preload _ _ => none
  | .budgetTick => none
  | .budgetEnd _ _ => none
  | .droopHalving _ => none
  | .droopRestore _ => none
  | .allowanceUpdate => none
  | .thermalMove _ => none
  | .rotateDeadline _ => none
  | .hbmRefresh _ => none
  | .refreshEnd _ => none
  | .powerCapHalving => none
  | .powerCapRestore => none
  | .semaphoreScrub => none
  | .slackPublication => none
  | .controlFormPerformed _ => none
  | .contributionSend _ _ _ => none
  | .contributionArrival _ => none
  | .roundReduction _ _ => none
  | .resultDelivery _ _ _ => none
  | .closeNotice _ => none
  | .workEntryFire _ _ _ => none
  | .workEntryComplete _ _ _ => none
  | .heldFaultPost => none
  | .replayReady _ _ => none
  | .uncorrectableError _ _ _ => none
  | .gatedResponse _ => none
  | .remoteResend _ => none
  | .automaticWake _ => none
  | .qtlReached _ => none
  | .sealComplete _ => none
  | .resumption _ => none
  | .watchdog _ _ => none
  | .parityAlarm _ _ => none
  | .protocolAlarm _ _ => none
  | .vectorEngineReset _ => none
  | .matrixEngineReset _ => none
  | .copyEngineReset _ => none
  | .portProcessorReset _ => none
  | .coreReset _ => none
  | .dieReset _ => none
  | .packageReset => none
  | .rollingReset => none
  | .computeDomainLoss _ => none
  | .lehrDomainLoss _ => none
  | .lehrPowerReturn _ => none
  | .moduleInputLoss => none
  | .scan _ => none
  | .checkModeCompletion _ _ _ _ => none
  | .rotationSlice _ => none
  | .cstateConfigure _ => none
  | .cstateRun _ => none
  | .cstateFree _ => none
  | .cstateKill _ => none
  | .cgrant _ _ => none
  | .launchDoorbell _ _ => none
  | .lbud _ _ => none
  | .killl _ _ => none
  | .killc _ _ => none
  | .hans _ _ => none
  | .fansRetry _ _ => none
  | .fansDeny _ _ => none
  | .semd _ _ => none
  | .registerWrite _ _ _ => none
  | .fwgo _ => none
  | .firmwareVerification _ => none
  | .schfw _ => none
  | .partcfg _ => none
  | .mpwrPowerDown => none
  | .mpwrWake => none
  | .mpwrShutdown => none
  | .preset _ => none
  | .boot => none
  | .ismelInitialisation _ => none
  | .hostRead _ _ _ => none
  | .hostWrite _ _ _ => none
  | .functionLevelReset => none
  | .conventionalReset => none
  | .linkDown => none
  | .linkRetrain _ => none
  | .portTraining _ _ => none
  | .flitReplay _ => none
  | .quadrantThermalPowerDown _ => none
  | .quadrantThermalResume _ => none
  | .stackOverheatHalving _ => none
  | .thermalInputLoss => none
  | .getVersion => none
  | .getCapabilities => none
  | .negotiateAlgorithms => none
  | .getDigests => none
  | .getCertificate _ _ _ => none
  | .challenge _ _ => none
  | .getMeasurements _ _ => none
  | .vendorDefinedRequest _ => none
  | .unsupportedRequest _ => none
  | .stackOverheatRestore _ => none
  | .cdatDoeRequest _ => none
  | .hostCoherenceRequest _ => none

/-- The two parcels of a 64-bit word, the low one first (R43). -/
def parcelsOf (w : BitVec 64) : List (BitVec 32) := [w.extractLsb' 0 32, w.extractLsb' 32 32]

def rvI (opc : BitVec 7) (f3 : BitVec 3) (rd rs1 : BitVec 5) (imm : BitVec 12) : BitVec 32 :=
  imm ++ rs1 ++ f3 ++ rd ++ opc
def rvR (opc : BitVec 7) (f3 : BitVec 3) (f7 : BitVec 7) (rd rs1 rs2 : BitVec 5) : BitVec 32 :=
  f7 ++ rs2 ++ rs1 ++ f3 ++ rd ++ opc

/-- funct3 of a load. -/
def loadF3 : LoadOp → BitVec 3
  | .lb => 0 | .lh => 1 | .lw => 2 | .ld => 3 | .lbu => 4 | .lhu => 5 | .lwu => 6

/-- funct3 of a store. -/
def storeF3 : StoreOp → BitVec 3
  | .sb => 0 | .sh => 1 | .sw => 2 | .sd => 3

/-- funct3 of a branch. -/
def brF3 : BrOp → BitVec 3
  | .beq => 0 | .bne => 1 | .blt => 4 | .bge => 5 | .bltu => 6 | .bgeu => 7

/-- funct5 of an AMO. -/
def amoF5 : AmoOp → BitVec 5
  | .add => 0x00 | .swap => 0x01 | .xor => 0x04 | .or => 0x08 | .and => 0x0C
  | .min => 0x10 | .max => 0x14 | .minu => 0x18 | .maxu => 0x1C

/-- Major opcode, funct3 and funct7 of a register-register operation. -/
def regCodes : RegOp → BitVec 7 × BitVec 3 × BitVec 7
  | .add => (0x33, 0, 0x00) | .sub => (0x33, 0, 0x20) | .sll => (0x33, 1, 0x00) | .slt => (0x33, 2, 0x00)
  | .sltu => (0x33, 3, 0x00) | .xor => (0x33, 4, 0x00) | .srl => (0x33, 5, 0x00) | .sra => (0x33, 5, 0x20)
  | .or => (0x33, 6, 0x00) | .and => (0x33, 7, 0x00)
  | .addw => (0x3B, 0, 0x00) | .subw => (0x3B, 0, 0x20) | .sllw => (0x3B, 1, 0x00) | .srlw => (0x3B, 5, 0x00)
  | .sraw => (0x3B, 5, 0x20)
  | .mul => (0x33, 0, 0x01) | .mulh => (0x33, 1, 0x01) | .mulhsu => (0x33, 2, 0x01) | .mulhu => (0x33, 3, 0x01)
  | .div => (0x33, 4, 0x01) | .divu => (0x33, 5, 0x01) | .rem => (0x33, 6, 0x01) | .remu => (0x33, 7, 0x01)
  | .mulw => (0x3B, 0, 0x01) | .divw => (0x3B, 4, 0x01) | .divuw => (0x3B, 5, 0x01) | .remw => (0x3B, 6, 0x01)
  | .remuw => (0x3B, 7, 0x01)
  | .sh1add => (0x33, 2, 0x10) | .sh2add => (0x33, 4, 0x10) | .sh3add => (0x33, 6, 0x10)
  | .addUw => (0x3B, 0, 0x04) | .sh1addUw => (0x3B, 2, 0x10) | .sh2addUw => (0x3B, 4, 0x10)
  | .sh3addUw => (0x3B, 6, 0x10)
  | .andn => (0x33, 7, 0x20) | .orn => (0x33, 6, 0x20) | .xnor => (0x33, 4, 0x20)
  | .max => (0x33, 6, 0x05) | .maxu => (0x33, 7, 0x05) | .min => (0x33, 4, 0x05) | .minu => (0x33, 5, 0x05)
  | .rol => (0x33, 1, 0x30) | .ror => (0x33, 5, 0x30) | .rolw => (0x3B, 1, 0x30) | .rorw => (0x3B, 5, 0x30)

/-- The word of a row RV64_INSTRUCTION. -/
def encodeRvOp : RvOp → BitVec 32
  | .lui rd imm => imm ++ rd ++ 0x37#7
  | .auipc rd imm => imm ++ rd ++ 0x17#7
  | .jal rd off =>
    off.extractLsb' 19 1 ++ off.extractLsb' 0 10 ++ off.extractLsb' 10 1 ++ off.extractLsb' 11 8 ++ rd ++ 0x6F#7
  | .jalr rd rs1 imm => rvI 0x67 0 rd rs1 imm
  | .branch op rs1 rs2 off =>
    off.extractLsb' 11 1 ++ off.extractLsb' 4 6 ++ rs2 ++ rs1 ++ brF3 op ++ off.extractLsb' 0 4 ++
      off.extractLsb' 10 1 ++ 0x63#7
  | .imm op rd rs1 imm =>
    match op with
    | .addi => rvI 0x13 0 rd rs1 imm
    | .slti => rvI 0x13 2 rd rs1 imm
    | .sltiu => rvI 0x13 3 rd rs1 imm
    | .xori => rvI 0x13 4 rd rs1 imm
    | .ori => rvI 0x13 6 rd rs1 imm
    | .andi => rvI 0x13 7 rd rs1 imm
    | .addiw => rvI 0x1B 0 rd rs1 imm
  | .sh op rd rs1 sh =>
    match op with
    | .slli => rvI 0x13 1 rd rs1 (0x00#6 ++ sh)
    | .srli => rvI 0x13 5 rd rs1 (0x00#6 ++ sh)
    | .srai => rvI 0x13 5 rd rs1 (0x10#6 ++ sh)
    | .rori => rvI 0x13 5 rd rs1 (0x18#6 ++ sh)
    | .slliUw => rvI 0x1B 1 rd rs1 (0x02#6 ++ sh)
  | .shw op rd rs1 sh =>
    match op with
    | .slliw => rvI 0x1B 1 rd rs1 (0x00#7 ++ sh)
    | .srliw => rvI 0x1B 5 rd rs1 (0x00#7 ++ sh)
    | .sraiw => rvI 0x1B 5 rd rs1 (0x20#7 ++ sh)
    | .roriw => rvI 0x1B 5 rd rs1 (0x30#7 ++ sh)
  | .reg op rd rs1 rs2 =>
    let k := regCodes op
    rvR k.1 k.2.1 k.2.2 rd rs1 rs2
  | .un op rd rs1 =>
    match op with
    | .clz => rvI 0x13 1 rd rs1 0x600
    | .ctz => rvI 0x13 1 rd rs1 0x601
    | .cpop => rvI 0x13 1 rd rs1 0x602
    | .sextB => rvI 0x13 1 rd rs1 0x604
    | .sextH => rvI 0x13 1 rd rs1 0x605
    | .clzw => rvI 0x1B 1 rd rs1 0x600
    | .ctzw => rvI 0x1B 1 rd rs1 0x601
    | .cpopw => rvI 0x1B 1 rd rs1 0x602
    | .zextH => rvR 0x3B 4 0x04 rd rs1 0
    | .orcB => rvI 0x13 5 rd rs1 0x287
    | .rev8 => rvI 0x13 5 rd rs1 0x6B8

/-- The 32-bit word of an RV64 row; none for every other row. -/
def encodeRv (i : Instr) : Option (BitVec 32) :=
  match i with
  | .rv64Load op rd rs1 imm => some (rvI 0x03 (loadF3 op) rd rs1 imm)
  | .rv64Store op rs1 rs2 imm =>
    some (imm.extractLsb' 5 7 ++ rs2 ++ rs1 ++ storeF3 op ++ imm.extractLsb' 0 5 ++ 0x23#7)
  | .amo op dbl aq rl rd rs1 rs2 =>
    some (amoF5 op ++ BitVec.ofBool aq ++ BitVec.ofBool rl ++ rs2 ++ rs1 ++ (if dbl then 3#3 else 2#3) ++ rd ++ 0x2F#7)
  | .lr dbl aq rl rd rs1 =>
    some (0x02#5 ++ BitVec.ofBool aq ++ BitVec.ofBool rl ++ 0#5 ++ rs1 ++ (if dbl then 3#3 else 2#3) ++ rd ++ 0x2F#7)
  | .sc dbl aq rl rd rs1 rs2 =>
    some (0x03#5 ++ BitVec.ofBool aq ++ BitVec.ofBool rl ++ rs2 ++ rs1 ++ (if dbl then 3#3 else 2#3) ++ rd ++ 0x2F#7)
  | .rvFence fm pred succ rd rs1 => some (rvI 0x0F 0 rd rs1 (fm ++ pred ++ succ))
  | .fenceI rd rs1 imm => some (rvI 0x0F 1 rd rs1 imm)
  | .ecall => some 0x00000073
  | .ebreak => some 0x00100073
  | .csrrw rd csr rs1 => some (rvI 0x73 1 rd rs1 csr)
  | .csrrs rd csr rs1 => some (rvI 0x73 2 rd rs1 csr)
  | .csrrc rd csr rs1 => some (rvI 0x73 3 rd rs1 csr)
  | .csrrwi rd csr u => some (rvI 0x73 5 rd u csr)
  | .csrrsi rd csr u => some (rvI 0x73 6 rd u csr)
  | .csrrci rd csr u => some (rvI 0x73 7 rd u csr)
  | .rv64Instruction op => some (encodeRvOp op)
  | _ => none

/-- The parcels of an instruction, lowest address first; none for a row that is no instruction word. -/
def encode (i : Instr) : Option (List (BitVec 32)) :=
  match encodeNuten i with
  | some w => some (parcelsOf w)
  | none =>
    match encodeRv i with
    | some w => some [w]
    | none => none

/-- The bytes of an instruction in memory, little-endian (R43); empty for a row that is no instruction word. -/
def encodeBytes (i : Instr) : List Byte :=
  ((encode i).getD []).flatMap fun p =>
    [p.extractLsb' 0 8, p.extractLsb' 8 8, p.extractLsb' 16 8, p.extractLsb' 24 8]

end Sys2Proof
end

