-- ==== Sys2Proof/Config.lean ====
section
/-!
DEFINITION. Config.lean: what the spec leaves to other standards or to the implementation, as constants without a
body.
-/

namespace Sys2Proof.Config

/-- SHA-384 of a byte string (R348, R349): a published function the spec names and does not define. -/
opaque sha384 : List Byte → List Byte

/-- RSASSA-PSS 3072 verification with SHA-384: modulus, message, signature (R348). -/
opaque rsaVerify : List Byte → List Byte → List Byte → Bool

/-- SLH-DSA-SHAKE-192s verification: public key, message, signature (R348). -/
opaque slhVerify : List Byte → List Byte → List Byte → Bool

/-- The device's RSA identity signature of a message (R349). -/
opaque rsaSign : List Byte → List Byte

/-- The device's second identity signature, SLH-DSA-SHAKE-192s (R349). -/
opaque slhSign : List Byte → List Byte

/-- The certificate chain of slot 0, and that of the second identity key (R349). -/
opaque certChain : List Byte
opaque slhCertChain : List Byte

/-- The base-die fuses (R348): the digest of key `slot` of an algorithm (0 RSA, 1 SLH-DSA), its revocation bit, and
the least security version of an image kind. -/
opaque fuseDigest : Nat → Nat → List Byte
opaque fuseRevoked : Nat → Nat → Bool
opaque fuseMinSvn : Nat → Nat

/-- The SPDM answer bodies that the SPDM standard defines and the spec does not restate (R349): request code and
parameters. -/
opaque spdmBody : Nat → List Byte → List Byte

/-- Saheloa's PCI-SIG vendor ID, which the spec does not give (R349). -/
opaque saheloaVendor : BitVec 16

/-- Bytes of a pre-emption image (R271): which granules are dirty is not tracked: uid and GEN of the task. -/
opaque imageBytes : Nat → Nat → Nat

/-- The CDAT table that the CXL standard defines (R396): table entry. -/
opaque cdatEntry : Nat → List Byte

/-- The 64-bit signature of a task's memory writes, spawns, launches and joins (R373): its uid. -/
opaque signature : Nat → BitVec 64

/-- The random bits of an element that ALOAD converts with stochastic rounding (R168 admits the mode, R89 names no tensor
tag for a tile): launch seed, entry, element. -/
opaque aloadRandom : BitVec 64 → Nat → Nat → BitVec 32

/-- Which of the eight lines of a full L1 set leaves it (R24 gives the capacity, R186 leaves the choice open): base-die cycle. -/
opaque l1Victim : Nat → Nat

/-- The HBM stack of a logical memory bank (R23 leaves the placement open): partition and bank. -/
opaque stackOf : Nat → Nat → Nat

/-- The port of its partition, by a number modulo their count, that carries a work entry (R285 leaves the routing open): core, bank, channel
and number of the entry. -/
opaque workPort : Nat → Nat → Nat → Nat → Nat

/-- NDIRTY of a header (R353): how many data blocks a seal writes. Which blocks have been written since a slot's own epoch is
not tracked: tick of the cut. -/
opaque dirtyBlocks : Nat → BitVec 32

end Sys2Proof.Config
end

