-- ==== Sys2Proof/Machine/State.lean ====
section
/-!
DEFINITION. Machine/State.lean: everything the spec gives the machine, as plain data.
A core key is 64 * partition + logical core; a bank key is 2 * core key + bank. Sparse tables read as their default
where a key is not listed (Machine/Maps.lean).
-/

namespace Sys2Proof.Machine

/-! ### Streams (R209 to R222) -/

/-- A bound stream: the fields of its descriptor (R209), its issue position (R211), its buffered entries (R35) and its
STOP state (R218, R219). -/
structure Stream where
  base : Word
  str1 : BitVec 32
  str2 : BitVec 32
  str3 : BitVec 32
  cnt1 : BitVec 16
  cnt2 : BitVec 16
  cnt3 : BitVec 16
  /-- entries removed (input) or enqueued (output) -/
  pos : Nat
  bpe : BitVec 4
  fmt : BitVec 4
  elenm1 : BitVec 8
  scb : Word
  tu : BitVec 2
  /-- 0 input, 1 output -/
  dir : BitVec 1
  scstr : BitVec 32
  tag : Word
  mm : BitVec 32
  wcnt : BitVec 32
  /-- entries taken in program order (R211) -/
  issue : Nat
  /-- next entry the transfer unit fetches (input) or writes (output) -/
  next : Nat
  /-- input: entries fetched and not removed; output: entries enqueued and not yet written -/
  buf : SMap VReg
  /-- entries passed over by sskip (R216) -/
  skips : List (Nat × Nat)
  /-- STOP code of R218 -/
  stop : BitVec 4
  /-- cause and address of the stop (R219) -/
  stopCause : Nat
  stopAddr : Word
  /-- the stop has trapped, and its entry waits for the handler's return (R219) -/
  hold : Bool
  /-- the fault record a parked entry waits on (R219) -/
  parked : Option Nat
deriving DecidableEq, Repr

/-! ### Commands of the engines -/

/-- The operations of the vector queue (R105 to R143). -/
inductive VOp
  | add | sub | mul | fma | fms | fnma | min | max | div | amin | amax | sadd | ssub | mulh | dot2 | dot4
  | and | or | xor | andn | sll | srl | sra | sel
  | addi | mini | maxi | andi | xori | slli | srli | srai
  | addx | subx | mulx | fmax | minx | maxx | bcast | scalex
  | fn | neg | abs | cls | bits | cvt | rint | rsum | rmax | rmin | ramax | scan | cmp
  | ld | st | gath | scat | scadd | mov
  | perm | rev | zip | unzip | trn | slide | rotl | bcl
  | plog | pcnt | pfirst | pfromx | ptox | pwhile | resume
deriving DecidableEq, Repr

/-- Where a 9-bit register field leads once the control core has resolved it (R49, R112): a static register, a
rotating register of the grant, or an entry of a stream. -/
inductive VLoc
  | none | stat (n : Nat) | rot (n : Nat) | stream (n entry : Nat)
deriving DecidableEq, Repr

/-- What a vector command writes when it completes (R107). -/
structure VRes where
  vd : Option VReg
  pd : Option PReg
  xd : Option Word
  /-- NRM flags in the bit positions of R66 -/
  flags : BitVec 8
  /-- what the elements offer to the stream's max-magnitude register (R220), already combined; none where none offers -/
  mm : Option (BitVec 32)
deriving DecidableEq, Repr

/-- A vector command (R107, R111). -/
structure VCmd where
  op : VOp
  bank : Nat
  uid : Nat
  ctl : Ctl
  /-- the whole word, for a trap at a stop -/
  opc : Nat
  tl : Nat
  vd : VLoc
  va : VLoc
  vb : VLoc
  /-- governing predicate, resolved (R52, R112); none makes every element active -/
  pg : Option Nat
  pd : Nat
  pa : Nat
  pb : Nat
  pc : Nat
  /-- TY, ET or ETS -/
  ty : Nat
  etd : Nat
  /-- effective rounding mode at issue (R87, R116) -/
  rm : Nat
  sat : Bool
  imm : Int
  /-- FN, CC, TT or SH -/
  fn : Nat
  /-- scalars read at issue -/
  sx : Word
  sy : Word
  xd : BitVec 5
  /-- deterministic seed of the launch (R221) -/
  seed : Word
  /-- the engine has taken its operands (R107) -/
  issued : Bool
  res : Option VRes
  /-- place in the bank's program order -/
  seq : Nat
  /-- a memory command's operands, read at issue: VT, VI, governing predicate -/
  cap : Option (VReg × VReg × PReg)
  /-- scratchpad range that the range checker compares (R407): none names none, `some none` every scratchpad -/
  range : Option (Option (Nat × Nat × Nat))
  /-- elements attempted, in ascending order, by a memory command -/
  done : Nat
  /-- held by a full replay queue, which stalls the engine (R33, R139) -/
  full : Bool
  /-- elements of released entries that wait for their target, in queue order (R140, R344) -/
  again : List Nat
  /-- elements whose update tag the home of a scatter-add has performed, one bit each (R142) -/
  tags : Nat
  /-- owned entries that VL1 of a vresume counts beyond those in the replay queue (R143) -/
  owed : Nat
  /-- stopped (R194): cause and address -/
  stop : Option (Nat × Word)
deriving DecidableEq, Repr

/-- An exposed-latency result waiting for its crew cycle (R110, R280), or held in the pipeline snapshot buffer (R281). -/
structure Exposed where
  cmd : VCmd
  /-- crew cycle at which it is written -/
  due : Nat
deriving DecidableEq, Repr

/-- A parked access in the replay queue (R139, R141). -/
structure Replay where
  kind : BitVec 3
  first : Nat
  count : Nat
  /-- bytes of one element -/
  size : Nat
  va : Word
  cause : Nat
  tl : Nat
  /-- fault record it waits on -/
  tag : Nat
  /-- answered RETRY (R342) -/
  ready : Bool
deriving DecidableEq, Repr

/-- What an mresume holds beside its record (R177): the number of the command that it resumes, 0 for none, and the written ROW, COL and
DEPTH where MUPC was active. -/
structure MatResume where
  target : Nat
  point : Option (Nat × Nat × Nat)
deriving DecidableEq, Repr

/-- A tile-task record (R159) with what the engine keeps beside it. -/
structure MCmd where
  opc : Nat
  operands : BitVec 36
  bank : Nat
  det : Bool
  geo : Word
  row : Nat
  col : Nat
  depth : Nat
  mupc : BitVec 16
  tl : Nat
  uid : Nat
  ctx : Nat
  seed : Word
  /-- effective rounding mode at issue (R166) -/
  rm : Nat
  /-- stream named, first entry taken, and how many (R150, R165, R170) -/
  sn : Nat
  entry : Nat
  entries : Nat
  ctl : Ctl
  seq : Nat
  /-- entered the tile queue (R160) -/
  entered : Bool
  resume : MatResume
  /-- tile elements an aload has gathered and not yet written (R170) -/
  held : SMap (BitVec 32)
  started : Bool
  /-- every part of the command is performed (R160) -/
  finished : Bool
deriving DecidableEq, Repr

/-- Copy-class commands (R225, R239, R241, R233). -/
inductive CKind
  | copy | binscat | migrate | cresume
deriving DecidableEq, Repr

/-- A command of a transfer unit with its progress (R231). -/
structure CCmd where
  kind : CKind
  bank : Nat
  uid : Nat
  ctx : Nat
  det : Bool
  ctl : Ctl
  tl : Nat
  /-- x[xa]: descriptor address, or the page of a migrate -/
  xa : Word
  /-- x[xb]: offset, or the parameters of a migrate -/
  xb : Word
  flg : BitVec 4
  /-- tick of issue (R243) -/
  at0 : Nat
  seq : Nat
  /-- dequeued (R48) -/
  issued : Bool
  started : Bool
  desc : List Word
  /-- loop indices, or the binscat progress of R231 -/
  li : List Nat
  /-- bytes of the iteration already written (R227); the mark lies at their last multiple of 64 KiB (R231) -/
  part : Nat
  /-- bytes of the iteration read and not yet written (R224) -/
  buf : List Byte
  /-- blocks of instruction memory that the copy has written, with their origins, 0 for none (R355) -/
  origins : SMap Word
  /-- stopped: cause and address (R194) -/
  stop : Option (Nat × Word)
  /-- waiting for an answered fault (R227) -/
  fault : Option Nat
  finished : Bool
deriving DecidableEq, Repr

/-- Forms of the collective queue (R286). -/
inductive KKind
  | grpsetWrite | grpsetClaim | grpsetRelease | grpgetStore | grpgetWord | qparm | rndwait | slackr
  | allred | redsc | allgat | bcast | owrite | owred | kresume
deriving DecidableEq, Repr

/-- A collective command (R286 to R315). -/
structure KCmd where
  kind : KKind
  bank : Nat
  uid : Nat
  ctx : Nat
  core : Nat
  ctl : Ctl
  tl : Nat
  ch : Nat
  ge : Nat
  op : Nat
  et : Nat
  xd : BitVec 5
  xa : Word
  xb : Word
  /-- round tag (R300) -/
  tag : Nat
  /-- NRM.RM at issue (R302) -/
  nrmRm : Nat
  seed : Word
  /-- image or descriptor doublewords once read -/
  desc : List Word
  seq : Nat
  /-- dequeued (R48) -/
  issued : Bool
  /-- 0 issued, 1 contribution sent, 2 close notice received, 3 delivering (R314) -/
  phase : Nat
  /-- bytes of DST written, or of LEN for owrite and owred (R314) -/
  done : Nat
  /-- the group-table entry as it stood when the command left the head of the queue -/
  entry : List Word
  /-- a contribution was refused, or the operation stopped: cause and value (R194) -/
  stop : Option (Nat × Word)
  /-- waiting for an answered fault (R310, R340) -/
  fault : Option Nat
  /-- left the head of the queue and waits (rndwait), performed (grpget), or fired and not all written (owrite, owred) -/
  performed : Bool
  finished : Bool
deriving DecidableEq, Repr

/-! ### Crews (R278 to R281) -/

/-- A crew of a bank. -/
structure Crew where
  mask : BitVec 8
  /-- crew cycle reached -/
  time : Nat
  /-- crew cycle of the last issue of each member queue -/
  last : SMap Nat
  suspended : Bool
  /-- while suspended: words of the bank issued by the control core before this place in program order wait (R281) -/
  heldSeq : Nat
deriving DecidableEq, Repr

/-! ### Context banks (R28) -/

/-- Task mode or handler mode (R326). -/
inductive Mode
  | task | handler
deriving DecidableEq, Repr

/-- States of a context bank (R257). -/
inductive BankSt
  | empty | restoring | running | parked | saving | held
deriving DecidableEq, Repr

/-- The conditions an instruction can wait for by R199, and what a parked bank waits for (R199, R33, R339). -/
inductive WaitCond
  /-- sem.wait: semaphore word at least a value -/
  | semGe (word : Nat) (v : Word)
  /-- waittl: timeline counter of a bank at least a number -/
  | tlGe (bank k : Nat) (v : Word)
  /-- an answered fault record (R339) -/
  | fault (tag : Nat)
  /-- every fault of the replay queue of a bank answered (R258) -/
  | replay (bank : Nat)
  /-- an edge operation (R261): 0 to 3 eqsend, 4 and 5 eqrecv, 6 eqfree; the six words and the slot -/
  | edge (op : Nat) (ks : List Nat) (slot : Word)
  /-- a free launch slot (R248) -/
  | launchFree (ctx : Nat)
  /-- room in the record queue, or the end of the launch's budget (R253) -/
  | recqFree (ctx slot : Nat)
  /-- the staging copy of a popped record, a number of transfer unit 0, complete or stopped (R274) -/
  | staged (bank tl : Nat)
  /-- a stream with every taken entry written, or stopped (R215, R219) -/
  | streamIdle (bank sn : Nat)
  /-- a core becoming reachable (R343, R344) -/
  | awake (core : Nat)
  /-- the power and the state of a core being there (R343) -/
  | powered (core : Nat)
  /-- no seal in progress on the cores of a list (R356) -/
  | sealed (cores : List Nat)
  /-- no engine command of the task outstanding (R371) -/
  | idle (uid : Nat)
  /-- none of the tasks provisional (R374) -/
  | settled (uids : List Nat)
  /-- the quiesce counter (R347) -/
  | qtlGe (ctx : Nat) (v : Word)
  /-- no unanswered host request of the context (R332) -/
  | hreqFree (ctx : Nat)
  /-- the host's answer to this bank (R332) -/
  | hans (ctx bank : Nat)
  /-- a grpget of the task performed (R295) -/
  | formDone (core uid : Nat)
  /-- a scalar register that a control form of the task has still to write (R286) -/
  | formX (core uid : Nat) (xd : BitVec 5)
deriving DecidableEq, Repr

/-- A trap that the bank takes before its next instruction (R276, R342). -/
structure DueTrap where
  cause : Nat
  tval : Word
deriving DecidableEq, Repr

/-- A timeline counter (R36): its value, the last number given out, and numbers completed above the value. -/
structure Timeline where
  val : Nat
  last : Nat
  done : List Nat
deriving DecidableEq, Repr

/-- A preloaded record (R274). -/
structure Preloaded where
  uid : Nat
  /-- GEN at preload -/
  gen : BitVec 16
  /-- the sectors read early, each with its 32 bytes; one that is marked stale is read again and not listed any more -/
  sectors : SMap (List Byte)
  /-- the descriptor breaks a limit -/
  bad : Bool
  /-- the task that ran at the preload has retired: the bank pops this record next -/
  next : Bool
deriving DecidableEq, Repr

/-- The architectural state of a context bank (R28, R30, R63, R66, R113, R327). -/
structure Bank where
  st : BankSt
  uid : Option Nat
  mode : Mode
  pc : Word
  x : SMap Word
  v : SMap VReg
  rot : SMap VReg
  grant : Nat
  p : SMap PReg
  vrb : BitVec 8
  prb : BitVec 6
  lc : BitVec 32
  /-- bound streams under 0 to 31; from 32 upwards input streams unbound while queued instructions hold entries (R214) -/
  streams : SMap Stream
  nrm : Word
  ntdet : Word
  stvec : Word
  sscratch : Word
  sepc : Word
  scause : Word
  stval : Word
  vupc : BitVec 9
  vl0 : BitVec 32
  vl1 : BitVec 32
  mupc : BitVec 16
  row : BitVec 16
  col : BitVec 16
  depth : BitVec 16
  /-- C0_UPC to C3_UPC -/
  cupc : SMap (BitVec 16)
  /-- Cn_LIi under key 8n + i -/
  cli : SMap (BitVec 32)
  kseq : SMap (BitVec 32)
  kstep : SMap (BitVec 16)
  tl : SMap Timeline
  claim : BitVec 48
  hold : BitVec 256
  crew : Option Crew
  exposed : List Exposed
  replay : List Replay
  /-- core-clock cycle of the quadrant at which the present wait began (R10, R199) -/
  waitFrom : Nat
  /-- cycles that the present instruction stalled by R199 before the present wait -/
  waitCount : Nat
  wait : Option WaitCond
  /-- the wait of the next instruction has been met (R199) -/
  granted : Bool
  /-- inside a crew: the next instruction stalled when it was last tried, and no word of the crew has issued since (R280) -/
  stuck : Bool
  due : List DueTrap
  /-- number of engine commands issued, for program order between queues -/
  seq : Nat
  /-- scalar registers that a queued command has still to write (R107, R286) -/
  pendX : List (BitVec 5)
  /-- the host's answer to this bank's request (R332) -/
  hans : Option Word
  /-- a pfence in progress: the epoch it returns, and whether a core of its set resumed meanwhile (R356) -/
  pf : Option (Nat × Bool)
  /-- tick at which the bank was parked (R262) -/
  parkTick : Nat
  /-- base-die cycle of the last pop or restore (R266) -/
  runAt : Nat
  /-- the record of the previous instruction where it is a matrix command, as it was issued, for mresume (R177) -/
  prevMat : Option MCmd
  /-- a vouch that waits: its address, and the tasks it covers as of its first attempt (R374) -/
  vouching : Option (Word × List Nat)
deriving DecidableEq, Repr

/-! ### Cores -/

/-- What a core's L1 knows of a sector it holds (R186). -/
inductive L1St
  | clean | stale | dirty
deriving DecidableEq, Repr

/-- Holder and last owner of a marver slot (R148): the task whose bank holds it, and the context that last held it. -/
structure SlotSt where
  held : Option Nat
  last : Option Nat
deriving DecidableEq, Repr

/-- An open round of a tile (R162). -/
structure TileRound where
  bank : Nat
  uid : Nat
  /-- highest course the bank has issued to the tile in this round -/
  course : Nat
  tailed : Bool
deriving DecidableEq, Repr

/-- An array at work: the record it runs and its uncommitted working bank (R24, R156). -/
structure ArrayRun where
  bank : Nat
  tl : Nat
  w : SMap (BitVec 32)
deriving DecidableEq, Repr

/-- A cached translation (R337). -/
structure TlbEntry where
  ctx : Nat
  /-- first address of the page and its size -/
  page : Nat
  size : Nat
  pte : Word
deriving DecidableEq, Repr

/-- An entry of the retirement tracker (R258, R259). -/
structure Tracker where
  uid : Nat
  bank : Nat
  join : Option (BitVec 32)
  pc : Word
  killed : Bool
  /-- the bank as the task left it: the registers its queued commands use, and its streams (R258) -/
  left : Bank
deriving DecidableEq, Repr

/-- Slack throttling of a member (R318). -/
structure Slack where
  sigma : Nat
  /-- tick of a close and the ticks by which a contribution preceded it -/
  samples : List (Nat × Nat)
  /-- as last published -/
  slack : BitVec 16
  step : BitVec 5
  /-- the last four publications, newest first: SLACK, and whether σ was at least τ + 3 and at most τ - 3 at them -/
  recent : List (BitVec 16 × Bool × Bool)
deriving DecidableEq, Repr

/-- The state of a logical core outside its banks (R24, R31, R32). -/
structure Core where
  /-- PACE_V, PACE_M, PACE_C0 to PACE_C3, PACE_K under keys 0 to 6 -/
  pace : SMap (BitVec 10)
  vq : List VCmd
  mq : List MCmd
  cq : SMap (List CCmd)
  kq : List KCmd
  /-- core-clock cycle (R10) of the last issue of each queue (R48), by its bit in a crew mask; queue cc of bank b under 16 + b -/
  lastIssue : SMap Nat
  /-- line `128 * slot + line` (R146) -/
  marver : SMap VReg
  slots : SMap SlotSt
  /-- element `16384 * tile + 128 * i + j` (R27) -/
  tiles : SMap (BitVec 32)
  rounds : SMap TileRound
  arrays : SMap ArrayRun
  l1 : SMap L1St
  tlb : List TlbEntry
  /-- the preload buffer: the record preloaded for each bank (R274) -/
  preload : SMap Preloaded
  imorg : SMap Word
  tracker : List Tracker
  /-- powered down by gate (R343) -/
  gated : Bool
  /-- stopped while lehr power is away (R360) -/
  halted : Bool
  /-- power or state is away until a resumption (R360, R367) -/
  down : Bool
  /-- the power of the core was lost, and its pacing registers with it: RWS covers resets (R11, R31) -/
  paceLost : Bool
  /-- the power of the module was lost: a slot of the core may still name a context (R364) -/
  moduleLost : Bool
  shadowed : Bool
  /-- migrates completed without a move, key 4 * bank + unit (R234) -/
  skip : SMap (BitVec 8)
  /-- tag and result of the last semaphore operation of each transfer unit (R237) -/
  semTag : SMap (List Nat × Word)
  allow : Word
  rotateTick : Option Nat
  /-- bank keys whose requests to this core hold a gated response, and whether a request of an engine does (R344) -/
  remote : List Nat
  asked : Bool
  /-- the physical core that the cox is moving this core onto (R284) -/
  moving : Option Nat
  /-- core-clock cycles for which a unit has had work and waited on nothing outside itself since its last mark or completion:
  0 control core, 1 vector, 2 matrix, 3 copy, 4 collectives (R366) -/
  marks : SMap Nat
  /-- pulses of every 16 of its quadrant's clock that the core receives (R318) -/
  sigma : Nat
  /-- 32nds of a core-clock cycle counted until half cycle `clkAt` of the quadrant's clock (R10, R318) -/
  clk32 : Nat
  clkAt : Nat
deriving DecidableEq, Repr

/-! ### Tasks, records, launches (R247 to R277) -/

/-- States of a record (R263). -/
inductive RecSt
  | gated | eligible | running | waiting | retiring | retired
deriving DecidableEq, Repr

/-- A pre-emption image (R271): the bank, the marver slots held and the tiles open, and the bank left. -/
structure Image where
  bankKey : Nat
  bank : Bank
  slots : SMap VReg
  slotNos : List Nat
  tiles : SMap (BitVec 32)
  rounds : SMap TileRound
  /-- kept in the image area of the lehr; else in the context's image area in HBM (R271, R350) -/
  lehr : Bool
deriving DecidableEq, Repr

/-- A continuation record (R253) and the task it becomes. -/
structure Task where
  ctx : Nat
  lslot : Nat
  wid : Word
  frame : Word
  code : BitVec 18
  jh : BitVec 32
  gated : Bool
  stage : Bool
  prio : Nat
  gen : BitVec 16
  st : RecSt
  /-- cycle at which it became Eligible or Waiting (R264) -/
  since : Nat
  /-- aging steps taken (R264) -/
  aged : Nat
  /-- cycle at which it reached its present effective priority (R265) -/
  reached : Nat
  spawnPrio : Nat
  /-- made by spawn and not yet popped: its place in the record queue, which counts against RECQN (R253) -/
  recq : Option Nat
  /-- it has become Eligible, and nothing has popped or run on its banks since: it may pre-empt (R266) -/
  fresh : Bool
  /-- bank key of the first pop (R269) -/
  home : Option Nat
  image : Option Image
  /-- pending uncorrectable errors, oldest first: address and whether a write (R370) -/
  errs : List (Word × Bool)
  /-- a returned semaphore value was used, or a collective issued (R373) -/
  unverifiable : Bool
  /-- physical cores that served it (R373) -/
  phys : List Nat
  /-- REPAIRED, UNVERIFIED and QUAR of R374 -/
  vouch : BitVec 3
  /-- cycle at which each bit of `vouch` last rose, and cycle of the task's pop or last vouch (R374) -/
  vouchAt : SMap Nat
  lastVouch : Nat
  /-- cycle of its last vouch; 0 where it has made none -/
  vouchedAt : Nat
  /-- provisional: retired and not yet covered by a passed scan (R373) -/
  provisional : Bool
  /-- logical core on which it retired, and the epochs at pop and retirement (R363, R374) -/
  lcore : Nat
  popEpoch : Nat
  /-- created by a task of this core key at this epoch (R363) -/
  parent : Option (Nat × Nat)
  /-- a re-run (R273, R274, R363) -/
  rerun : Bool
  /-- the fourth run of a log entry (R376): the physical core whose log holds it, and the uid of the entry -/
  again : Option (Nat × Nat)
deriving DecidableEq, Repr

/-- A launch (R247, R249, R276). -/
structure Launch where
  ctrl : BitVec 32
  entry : Word
  det : Bool
  prio : Nat
  vreg : Nat
  seed : Word
  lcmask : BitVec 64
  widths : BitVec 42
  exts : List Nat
  framebase : Word
  framesz : Nat
  /-- remaining budget in ticks; none is unlimited -/
  budget : Option Nat
  jdone : BitVec 32
  equse : BitVec 8
  eqdir : BitVec 8
  eqs : List (BitVec 32)
  total : Nat
  /-- initial records already made (R249) -/
  made : Nat
  /-- numbers of initial records not yet made that may pre-empt no more (R266) -/
  spent : List Nat
  posted : Nat
  /-- uids of its records are not below this one -/
  first : Nat
  /-- the budget has ended (R276) -/
  ended : Bool
  /-- killed (R345) -/
  killed : Bool
deriving DecidableEq, Repr

/-! ### Contexts (R320 to R325, R365) -/

/-- A request of ntrap (R332): bank key and task of the requester; none once a kill has ended that task. -/
structure HostReq where
  who : Option (Nat × Nat)
deriving DecidableEq, Repr

/-- A kill in progress (R345, R346). -/
structure Kill where
  q : Nat
  whole : Bool
  /-- numbers of discarded commands: bank key, counter, number (R346) -/
  nums : List (Nat × Nat × Nat)
deriving DecidableEq, Repr

/-- A context block (R323, R365) with the tables the context owns. -/
structure Ctx where
  cstate : BitVec 2
  cgrant : BitVec 64
  part : BitVec 2
  ptbr : Word
  heapb : Word
  heapl : Word
  heapo : Word
  sem0 : Word
  sem1 : Word
  dhold : BitVec 6
  ceil : BitVec 3
  parkEvict : BitVec 16
  age : BitVec 16
  recq : Word
  recqn : Word
  imga : Word
  imgn : Word
  rankt : Word
  rankn : Word
  fring : Word
  fringn : Word
  erec : Word
  erecn : Word
  hvec : Word
  qtl : Nat
  qtlLast : Nat
  slip : Word
  hreq : Word
  fovf : Word
  ecount : Word
  rstat : Word
  sema : Word
  launches : SMap Launch
  /-- launches that have ended, with their slots, newest first (R363) -/
  past : List (Nat × Launch)
  /-- word w of group entry g under key 24 * g + w (R292) -/
  group : SMap Word
  /-- throttling of the member of entry g -/
  thr : SMap Slack
  req : Option HostReq
  kills : List Kill
  /-- header addresses that the host has posted and that wait for a launch slot, oldest first (R248) -/
  posts : List Word
deriving DecidableEq, Repr

/-! ### Directory, faults -/

/-- The tag of a narrow record (R186, R187). -/
inductive Tag
  | task (uid : Nat) | core (key : Nat)
deriving DecidableEq, Repr

/-- A narrow record: its owner, and the engine operations that wrote the sector and are not yet acquired (R188), each
as (bank key, counter, number). -/
structure Narrow where
  tag : Tag
  pend : List (Nat × Nat × Nat)
deriving DecidableEq, Repr

/-- The unit whose access faulted (R340). -/
inductive FaultUnit
  | core | vector | copy | stream | coll | preload
deriving DecidableEq, Repr

/-- A fault record (R340) and the accesses coalesced in it. -/
structure FaultRec where
  va : Word
  /-- TAG of R340; from 2^32 upwards for a fault that is held and has none yet (R341) -/
  tag : Nat
  cause : Nat
  level : Nat
  unit : FaultUnit
  kind : Nat
  tu : Nat
  bankKey : Nat
  ctx : Nat
  pte : Word
  nwait : Nat
  tlnum : Nat
  /-- the page of R340 -/
  page : Nat
  /-- number of the logical memory bank of the access or of the walk's last read; none for a host or scratchpad address (R22, R23) -/
  memBank : Option Nat
  /-- coalesced accesses: unit, bank key, transfer unit or stream number, uid of the task -/
  waiters : List (FaultUnit × Nat × Nat × Nat)
deriving DecidableEq, Repr

/-! ### Collectives (R292 to R312) -/

/-- A member's contribution (R300, R304). -/
structure Contribution where
  /-- the partition, by number: no group crosses it (R320) -/
  part : Nat
  gid : Word
  members : BitVec 1024
  rank : Nat
  tag : Nat
  /-- the member's context, entry and core key -/
  ctx : Nat
  ge : Nat
  core : Nat
  kind : KKind
  op : Nat
  et : Nat
  nmax : Nat
  outf : Nat
  accf : Nat
  wlvl : Nat
  rm : Nat
  /-- word 16 of the entry: K, LAG, WRULE, WSH and MODE -/
  par : Word
  digest : BitVec 32
  count : Nat
  tensor : Word
  elems : List Nat
  /-- tick of its sending (R318) -/
  at0 : Nat
deriving DecidableEq, Repr

/-- States of a round (R305). -/
inductive RoundSt
  | waiting | opened | closed | reduced | retained | ended
deriving DecidableEq, Repr

/-- A round of a group (R305). -/
structure Round where
  st : RoundSt
  /-- the first contribution to arrive, whose carried values bind the others (R300) -/
  first : Option Contribution
  ontime : List Contribution
  /-- folded contributions with their lateness (R306, R307) -/
  folds : List (Contribution × Nat)
  /-- replay: the recorded on-time set and folds (R311) -/
  record : Option (BitVec 1024 × BitVec 1024)
  result : SMap Nat
  /-- flags that the nodes and the requantisation of an element raise (R86), in the bit positions of R66 -/
  flags : SMap (BitVec 8)
  delivered : List Nat
  refused : List Nat
  /-- ranks whose contribution arrived after the round had Ended (R308) -/
  missed : List Nat
  /-- cause with which operations stop, for a round ended without a result -/
  cause : Nat
deriving DecidableEq, Repr

/-- A group as its arbiter keeps it (R292, R305). -/
structure Group where
  part : Nat
  gid : Word
  members : BitVec 1024
  /-- oldest round not closed -/
  openTag : Nat
  rounds : SMap Round
  /-- late contributions not yet folded or discarded (R306) -/
  pending : List Contribution
  /-- late contributions whose fate is settled: rank, tag, and lateness when folded -/
  fates : List (Nat × Nat × Option Nat)
  /-- withdrawn ranks, and the first tag that can no longer reach its quorum (R317) -/
  gone : List Nat
  dead : Option Nat
  /-- the fault that the round log waits on (R310) -/
  fault : Option Nat
deriving DecidableEq, Repr

/-- A close notice on its way to a member, by the group's partition, GID and MEMBERS and the member's rank (R305). -/
structure Notice where
  part : Nat
  gid : Word
  members : BitVec 1024
  rank : Nat
  tag : Nat
deriving DecidableEq, Repr

/-- A work entry of a send queue (R289, R290). -/
structure WorkEntry where
  core : Nat
  bank : Nat
  ch : Nat
  ctx : Nat
  tl : Nat
  ds : List Word
  fired : Bool
deriving DecidableEq, Repr

/-- A page move handed to the page-move engines (R241, R242). -/
structure Move where
  core : Nat
  bank : Nat
  tu : Nat
  ctx : Nat
  tl : Nat
  va : Word
  parms : Word
  at0 : Nat
  moved : Bool
  done : Bool
deriving DecidableEq, Repr

/-! ### Lehr (R350 to R365) -/

/-- The sealed content of a slot (R352, R357). -/
structure Sealed where
  core : Core
  bank0 : Bank
  bank1 : Bank
  spad : List Host.Cell
  cmd : List Host.Cell
  imorg : SMap Word
  gseq : SMap Word
  /-- the work entries that the core has posted (R289): they belong to its collective commands -/
  work : List WorkEntry
  /-- tasks popped on the core and not retired -/
  tasks : SMap Task
  /-- the context's unpopped records and its launches, as the host's checkpoint of the same moment holds them (R364) -/
  queue : SMap Task
  launches : SMap Launch
deriving DecidableEq, Repr

/-- A slot of a slot pair: its header (R353) and content. -/
structure Slot where
  magic : BitVec 32
  ver : BitVec 16
  scope : BitVec 8
  flags : BitVec 8
  epoch : Word
  pepoch : Word
  owner : BitVec 32
  /-- a value the model leaves open: which blocks a seal writes is not tracked (assumption log 33) -/
  ndirty : BitVec 32
  tick : Word
  hcrc : Bool
  commit : Word
  /-- every data block has its INDEX, a STAMP not above the epoch and a correct BCRC (R361) -/
  blocksOk : Bool
  body : Option Sealed
deriving DecidableEq, Repr

/-- A seal in progress (R358): the slot, its epoch and the sealing scope; the bank key of the waiting pfence. -/
structure Seal where
  core : Nat
  slot : Nat
  scope : Nat
  waiter : Option Nat
  /-- the core resumed while the seal was in progress (R356, R369) -/
  torn : Bool
deriving DecidableEq, Repr

/-! ### Physical module -/

/-- An entry of a provisional log (R373). -/
structure LogEntry where
  uid : Nat
  sig : Word
  /-- check-mode signature of the second core and that core, once known -/
  s2 : Option (Word × Nat)
  /-- a third signature and its core -/
  s3 : Option (Word × Nat)
  failed : Bool
  settled : Bool
  /-- cycle of the task's retirement (R373) -/
  at0 : Nat
deriving DecidableEq, Repr

/-- A physical core (R16, R377). -/
structure Phys where
  score : Nat
  quarantined : Bool
  /-- out of service after a failed scan (R375) -/
  outOfService : Bool
  log : List LogEntry
  /-- temperature in 1/16 degC, as the sensor last gave it -/
  temp16 : Int
  /-- tick at which its present slice began (R380) -/
  sliceTick : Nat
  /-- cycle of the last rise of the score (R377) -/
  scoreAt : Nat
deriving DecidableEq, Repr

/-- A quadrant (R17, R282, R403, R405). -/
structure Quad where
  /-- halved by its droop detector (R282) -/
  droop : Bool
  /-- cycle of the detector's last trip -/
  droopAt : Nat
  /-- halved by a core's headroom (R284), by the power cap (R403), by the heat of a stack (R405) -/
  thermal : Bool
  power : Bool
  stackHeat : Bool
  /-- lehr power is away (R360); powered down by heat (R405) -/
  lehr : Bool
  thermalOff : Bool
  /-- place in the rotation of the next logical core due (R380) -/
  rotNext : Nat
  /-- half cycles of the core clock (R10, R17) that passed until base-die cycle `clkAt` -/
  clk2 : Nat
  clkAt : Nat
deriving DecidableEq, Repr

/-- An HBM stack (R284, R390). -/
structure StackSt where
  refx2 : Bool
  /-- base-die cycle from which REFX2 has had its value -/
  refxAt : Nat
  refreshing : Bool
  /-- base-die cycle, modulo 3,900, of its refreshes (R390) -/
  phase : Nat
  temp16 : Int
  allow : Word
  overheated : Bool
deriving DecidableEq, Repr

/-- A Riran port and its processor (R288, R399). -/
structure Port where
  lanes : Nat
  firmware : Bool
  fwDigest : List Byte
deriving DecidableEq, Repr

/-- Module registers (R401) and the state of the boot (R400), the cox and the SPDM responder (R349). -/
structure Modl where
  boot : BitVec 3
  svn : BitVec 32
  repl : BitVec 2
  linkNarrow : Bool
  linkUp : Bool
  fwaddr : Word
  fwlen : Word
  fwstat : BitVec 2
  partcfg : BitVec 2
  rollp : Word
  scanp : Word
  pwrcap : Word
  pwrnow : Word
  tempc : Word
  scoreSel : BitVec 7
  /-- 0 running, 1 powered down by MPWR 1, 3 by MPWR 3 (R404) -/
  mpwr : BitVec 2
  /-- next unit of the rolling reset (R368) -/
  roll : Nat
  /-- next physical core of the scan rotation (R372) -/
  scanNext : Nat
  /-- cores that vouch moved ahead (R374) -/
  scanAhead : List Nat
  /-- the scan in progress: physical core, cycle at which it began, and whether it is one of the rotation (R372) -/
  scanning : Option (Nat × Nat × Bool)
  /-- cycles: of the last act of a periodic unit (0 allowances, 1 slack, 2 scrub, 3 rolling reset, 4 scan, 5 power cap,
  16 + n refresh of stack n), and from which input power exceeds its cap (6) and the inlet is above 50 °C (7) -/
  last : SMap Nat
  /-- temperature of the coolant inlet in 1/16 degC, as its sensor last gave it (R401, R405) -/
  inlet16 : Int
  /-- base-die cycle from which the input voltage has been below 44 V; above 60 V power goes at once (R402) -/
  lowFrom : Option Nat
  /-- schedule images to be verified, oldest first: port and host address (R401) -/
  schfw : List (Nat × Nat)
  /-- engine resets of the last millisecond: core key, engine number, cycle (R366) -/
  resets : List (Nat × Nat × Nat)
  dieResets : List (Nat × Nat)
  imageDigest : List Byte
  /-- SPDM requests answered since GET_VERSION, oldest first -/
  transcript : List (BitVec 8)
  /-- last signed SPDM message -/
  signed : List Byte
  /-- last SPDM, CDAT or CXL.mem answer -/
  reply : List Byte
deriving DecidableEq, Repr

/-! ### What moves next -/

/-- A request to a DOE mailbox (R349, R396): an entry of the CDAT table, or an SPDM request. -/
inductive DoeRequest
  | cdat (entry : Nat)
  | getVersion | getCapabilities | negotiateAlgorithms | getDigests
  | getCertificate (slot offset len : Nat)
  | challenge (slot : Nat) (nonce : List Byte)
  | getMeasurements (index : Nat) (nonce : List Byte)
  | vendorDefined (code : VendorCode)
  | unsupported (code : BitVec 8)
deriving DecidableEq, Repr

/-- Who acts in a step. `run` lets a bank perform its next instruction; `event` is a row of the table that no
instruction word stands for; `evict` drops a sector from a core's L1; `advance` lets base-die cycles pass;
`sensor` is a temperature reading: unit 0 physical core, 1 HBM stack, 2 coolant inlet; `hostError` says from when to when a
sector of CXL host memory answers with an error completion (R328). -/
inductive Input
  | run (core bank : Nat)
  | event (i : Instr)
  | evict (core sector : Nat)
  | advance (n : Nat)
  /-- a launch that the host posted and that has waited for a launch slot proceeds (R248) -/
  | post (ctx : Nat)
  /-- an HBM stack ends the refresh it is in, or begins one at its moment (R390) -/
  | refresh (stack : Nat)
  /-- a host read of a register (R323, R401): its value is the last answer -/
  | readReg (block : RegBlock) (off : Nat)
  /-- the loader loads an object for a context and cores, at the places it chooses (R75) -/
  | load (ctx : Nat) (cores places : List Nat) (file : List Byte)
  | sensor (unit num : Nat) (temp16 : Int)
  | power (pwrnow : Word)
  | hostError (sector : Nat) (bad : Bool)
  /-- the host writes bytes of its own memory (R398) -/
  | hostStore (addr : Nat) (bytes : List Byte)
  /-- a host read, and a host write, of a doubleword of BAR0 (R397) -/
  | readBar (off : Nat)
  | writeBar (off : Nat) (value : Word)
  /-- the host reads and writes its HDM range (R398), asks for a line of its memory back, resets the function (R396), or uses a DOE mailbox -/
  | hdmRead (part addr len : Nat)
  | hdmWrite (part addr : Nat) (bytes : List Byte)
  | coherence (addr : Nat)
  | functionReset
  | doe (request : DoeRequest)
deriving DecidableEq, Repr

/-- The machine. -/
structure State where
  /-- which agents move next, oldest first (assumption log 1) -/
  inputs : List Input
  /-- accesses of the host that wait, oldest first: the link is down (R396), or a stack refreshes (R390) -/
  hostHeld : List Input
  /-- the bank that moves when `inputs` is empty -/
  curCore : Nat
  curBank : Nat
  /-- the word of the instruction in execution, for tval (R61) -/
  ir : Word
  /-- next task uid -/
  fresh : Nat
  /-- base-die cycles since reset (R10) -/
  cycle : Nat
  /-- tick boundaries at which budgets have been counted (R276) -/
  budgetTicks : Nat
  mem : List Host.Cell
  sem : SMap Word
  banks : SMap Bank
  cores : SMap Core
  ctxs : SMap Ctx
  tasks : SMap Task
  dir : SMap Narrow
  /-- LR reservations: bank key and sector (R197) -/
  resv : List (Nat × Nat)
  /-- sectors that hold an uncorrectable error (R370) -/
  bad : List Nat
  /-- sectors of CXL host memory that answer with an error completion (R328 codes 5 and 7) -/
  hostBad : List Nat
  faults : List FaultRec
  heldFaults : List FaultRec
  faultGen : Nat
  /-- faults that have been held (R341) -/
  heldGen : Nat
  msix : List Nat
  groups : SMap Group
  /-- ranks that have withdrawn: partition, GID, MEMBERS and rank (R317) -/
  withdrawn : List (Nat × Word × BitVec 1024 × Nat)
  flights : List Contribution
  notices : List Notice
  work : List WorkEntry
  /-- the L2 TLB of each partition, newest first (R337) -/
  tlb2 : SMap (List TlbEntry)
  moves : List Move
  slots : SMap Slot
  seals : List Seal
  sealCount : SMap Nat
  /-- physical core that serves a core key; unlisted: the core of its own index; 72: multiplexed (R19) -/
  lmap : SMap Nat
  /-- physical core that last served a logical core that none serves (R283) -/
  lastPhys : SMap Nat
  phys : SMap Phys
  quads : SMap Quad
  hbm : SMap StackSt
  ports : SMap Port
  modl : Modl
deriving DecidableEq, Repr

/-! ### Faults and refusals -/

/-- The named stops of the model. No row of the table ends in one on every path. -/
inductive Fault
  /-- raised by nothing: the spec gives every instruction and every step of the table an effect; safe -/
  | never
deriving DecidableEq, Repr

/-- The named refusals of the model. -/
inductive Refusal
  /-- raised by an arm of exec whose row has no meaning yet; safe -/
  | notModelled (mnemonic : String)
deriving DecidableEq, Repr

/-! ### Reset values -/

/-- A timeline counter of a context new to the core (R36). -/
def Timeline.reset : Timeline := ⟨0, 0, []⟩

/-- The core-reset column of R28, with the CSR reset values of R63, R66, R113, R142, R176, R231, R314, R327. -/
def Bank.reset : Bank where
  st := .empty
  uid := none
  mode := .task
  pc := 0
  x := []
  v := []
  rot := []
  grant := 0
  p := []
  vrb := 0
  prb := 0
  lc := 0
  streams := []
  nrm := 0
  ntdet := 0
  stvec := 0
  sscratch := 0
  sepc := 0
  scause := 0
  stval := 0
  vupc := 0
  vl0 := 0
  vl1 := 0
  mupc := 0
  row := 0
  col := 0
  depth := 0
  cupc := []
  cli := []
  kseq := []
  kstep := []
  tl := []
  claim := 0
  hold := 0
  crew := none
  exposed := []
  replay := []
  waitFrom := 0
  waitCount := 0
  wait := none
  granted := false
  stuck := false
  due := []
  seq := 0
  pendX := []
  hans := none
  pf := none
  parkTick := 0
  runAt := 0
  prevMat := none
  vouching := none

/-- Throttle state at start (R318). -/
def Slack.reset : Slack := ⟨16, [], 0, 16, []⟩

/-- A core after a core reset (R26, R27, R31). -/
def Core.reset : Core where
  pace := []
  vq := []
  mq := []
  cq := []
  kq := []
  lastIssue := []
  marver := []
  slots := []
  tiles := []
  rounds := []
  arrays := []
  l1 := []
  tlb := []
  preload := []
  imorg := []
  tracker := []
  gated := false
  halted := false
  down := false
  paceLost := false
  moduleLost := false
  shadowed := false
  skip := []
  semTag := []
  allow := 0x80000000000000D0
  rotateTick := none
  remote := []
  asked := false
  moving := none
  marks := []
  sigma := 16
  clk32 := 0
  clkAt := 0

/-- A free context block (R323, R325). -/
def Ctx.reset : Ctx where
  cstate := 0
  cgrant := 0
  part := 0
  ptbr := 0
  heapb := 0
  heapl := 0
  heapo := 0
  sem0 := 0
  sem1 := 0
  dhold := 4
  ceil := 7
  parkEvict := 16
  age := 64
  recq := 0
  recqn := 0
  imga := 0
  imgn := 0
  rankt := 0
  rankn := 0
  fring := 0
  fringn := 0
  erec := 0
  erecn := 0
  hvec := 0
  qtl := 0
  qtlLast := 0
  slip := 0
  hreq := 0
  fovf := 0
  ecount := 0
  rstat := 0
  sema := 0
  launches := []
  past := []
  group := []
  thr := []
  req := none
  kills := []
  posts := []

/-- A cleared slot of the lehr (R354). -/
def Slot.cleared : Slot := ⟨0, 0, 0, 0, 0, 0, 0, 0, 0, false, 0, false, none⟩

/-- A physical core with no suspect score (R377). -/
def Phys.reset : Phys := ⟨0, false, false, [], 1472, 0, 0⟩

/-- A quadrant at full clock, its domains not yet up (R400). -/
def Quad.reset : Quad := ⟨false, 0, false, false, false, false, false, 0, 0, 0⟩

/-- A stack at the normal refresh rate (R390). -/
def StackSt.reset : StackSt := ⟨false, 0, false, 0, 1344, 0x8000000000000010, false⟩

/-- A port down and without firmware (R399, R400). -/
def Port.reset : Port := ⟨0, false, []⟩

/-- The reset column of R401, before any boot step (R400). -/
def Modl.reset : Modl where
  boot := 0
  svn := 0
  repl := 0
  linkNarrow := false
  linkUp := false
  fwaddr := 0
  fwlen := 0
  fwstat := 0
  partcfg := 0
  rollp := 60
  scanp := 1800
  pwrcap := 3000
  pwrnow := 0
  tempc := 0
  scoreSel := 0
  mpwr := 0
  roll := 0
  scanNext := 0
  scanAhead := []
  scanning := none
  last := []
  inlet16 := 0
  lowFrom := none
  schfw := []
  resets := []
  dieResets := []
  imageDigest := []
  transcript := []
  signed := []
  reply := []

/-- The module when 54 V is applied, before its boot (R400, R406): every context free, every bank Empty, memory with
nothing listed, every semaphore word 0 (R360), no valid slot in the lehr. -/
def State.reset : State where
  inputs := []
  hostHeld := []
  curCore := 0
  curBank := 0
  ir := 0
  fresh := 0
  cycle := 0
  budgetTicks := 0
  mem := []
  sem := []
  banks := []
  cores := []
  ctxs := []
  tasks := []
  dir := []
  resv := []
  bad := []
  hostBad := []
  faults := []
  heldFaults := []
  faultGen := 0
  heldGen := 0
  msix := []
  groups := []
  withdrawn := []
  flights := []
  notices := []
  work := []
  tlb2 := []
  moves := []
  slots := []
  seals := []
  sealCount := []
  lmap := []
  lastPhys := []
  phys := []
  quads := []
  hbm := []
  ports := []
  modl := Modl.reset

end Sys2Proof.Machine
end

