-- ==== Sys2Proof/Machine/Bits.lean ====
section
/-!
DEFINITION. Machine/Bits.lean: bit fields, sign extension, byte order and element packing (R10, R43, R81).
-/

namespace Sys2Proof.Machine

/-- Bits `hi` down to `lo` of a number (R10). -/
def bitsN (x hi lo : Nat) : Nat := (x >>> lo) % 2 ^ (hi + 1 - lo)

/-- Bits `hi` down to `lo` of a bit vector, as a number (R10). -/
def bits {n : Nat} (w : BitVec n) (hi lo : Nat) : Nat := bitsN w.toNat hi lo

/-- Bit `i` of a bit vector. -/
def bitAt {n : Nat} (w : BitVec n) (i : Nat) : Bool := w.getLsbD i

/-- Setting or clearing bit `i`. -/
def setBit {n : Nat} (w : BitVec n) (i : Nat) (b : Bool) : BitVec n :=
  if b then w ||| (1#n <<< i) else w &&& ~~~(1#n <<< i)

/-- Sign extension to 64 bits. -/
def sx64 {n : Nat} (w : BitVec n) : Word := w.signExtend 64

/-- The two's complement value of the low `w` bits of a number. -/
def toSigned (w n : Nat) : Int :=
  let m := n % 2 ^ w
  if m < 2 ^ (w - 1) then (m : Int) else (m : Int) - (2 ^ w : Nat)

/-- An integer modulo 2^w, as a number. -/
def wrapN (w : Nat) (i : Int) : Nat := (i % (2 ^ w : Nat)).toNat

/-- A word from a number. -/
def w64 (n : Nat) : Word := BitVec.ofNat 64 n

/-- Little-endian bytes of a number. -/
def leBytes : Nat → Nat → List Byte
  | 0, _ => []
  | k + 1, n => BitVec.ofNat 8 n :: leBytes k (n / 256)

/-- Little-endian value of bytes. -/
def leVal : List Byte → Nat
  | [] => 0
  | b :: bs => b.toNat + 256 * leVal bs

/-- The numbers from `a` upwards, `n` of them. -/
def range2 (a n : Nat) : List Nat := (List.range n).map (a + ·)

/-- The elements of width `w` of a bit string of `n` elements, in ascending order (R81). -/
def unpack (w n x : Nat) : List Nat := (List.range n).map fun i => (x >>> (w * i)) % 2 ^ w

/-- The bit string of elements of width `w` (R81). -/
def packN (w : Nat) : List Nat → Nat
  | [] => 0
  | e :: es => e % 2 ^ w + 2 ^ w * packN w es

/-- Rotation of a 32-bit word to the left. -/
def rotl32 (x : BitVec 32) (k : Nat) : BitVec 32 := x.rotateLeft k

/-- Number of ones. -/
def popN (w x : Nat) : Nat := ((List.range w).filter fun i => x.testBit i).length

/-- Index of the highest one below bit `w`, counted as leading zeros; `w` for 0. -/
def clzN (w x : Nat) : Nat := if x % 2 ^ w = 0 then w else w - 1 - (x % 2 ^ w).log2

/-- Trailing zeros; `w` for 0. -/
def ctzN (w x : Nat) : Nat := ((List.range w).find? fun i => x.testBit i).getD w

/-- Bits reversed within `w`. -/
def brevN (w x : Nat) : Nat :=
  (List.range w).foldl (fun acc i => if x.testBit i then acc + 2 ^ (w - 1 - i) else acc) 0

/-- Bytes reversed within `k` bytes. -/
def bswapN (k x : Nat) : Nat := leVal (leBytes k x).reverse

/-- The position of the `n`-th one of a mask, counted from 0. -/
def nthOne (mask : BitVec 64) (n : Nat) : Option Nat := ((List.range 64).filter fun i => bitAt mask i)[n]?

/-! ### CRC-32C (R353: the Castagnoli CRC of RFC 3720) -/

/-- One bit of the reflected CRC. -/
def crcBit (c : BitVec 32) : BitVec 32 :=
  if bitAt c 0 then (c >>> 1) ^^^ 0x82F63B78#32 else c >>> 1

/-- One byte of the reflected CRC. -/
def crcByte (c : BitVec 32) (b : Byte) : BitVec 32 :=
  (List.range 8).foldl (fun c _ => crcBit c) (c ^^^ b.setWidth 32)

/-- CRC-32C of a byte string. -/
def crc32c (bs : List Byte) : BitVec 32 := ~~~(bs.foldl crcByte 0xFFFFFFFF#32)

end Sys2Proof.Machine
end

