-- ==== Sys2Proof/Machine/Num.lean ====
section
/-!
DEFINITION. Machine/Num.lean: number formats, the rounding function and the sums of spec/03_numbers.md
(R76 to R104).
Values are exact: a signed rational, an infinity or a NaN. Flags are a byte with the bits at their places in NRM (R66).
-/

namespace Sys2Proof.Machine

/-- An exact value: NaN, an infinity, or (-1)^neg * num / den; zero keeps its sign (R76, R78). -/
inductive Num
  | nan
  | inf (neg : Bool)
  | fin (neg : Bool) (num den : Nat)
deriving DecidableEq, Repr

/-- NRM flags gathered by an operation (R66, R86). -/
abbrev Fl := BitVec 8

def flTern : Fl := 0x80
def flSatd : Fl := 0x40
def flNv : Fl := 0x20
def flOf : Fl := 0x10
def flUf : Fl := 0x08

/-- Which encodings are NaNs (R77). -/
inductive NanKind
  | ieee | e4m3 | none
deriving DecidableEq, Repr

/-- A floating format (R76, R77): exponent bits, fraction bits, bias, infinities, NaN encodings, the encoding of its
largest finite value and its canonical NaN. -/
structure Fmt where
  e : Nat
  m : Nat
  bias : Nat
  infs : Bool
  nans : NanKind
  maxEnc : Nat
  cnan : Nat
deriving DecidableEq, Repr

def Fmt.fp32 : Fmt := ⟨8, 23, 127, true, .ieee, 0x7F7FFFFF, 0x7FC00000⟩
def Fmt.bf16 : Fmt := ⟨8, 7, 127, true, .ieee, 0x7F7F, 0x7FC0⟩
def Fmt.fp16 : Fmt := ⟨5, 10, 15, true, .ieee, 0x7BFF, 0x7E00⟩
def Fmt.e4m3 : Fmt := ⟨4, 3, 7, false, .e4m3, 0x7E, 0x7F⟩
def Fmt.e5m2 : Fmt := ⟨5, 2, 15, true, .ieee, 0x7B, 0x7E⟩
def Fmt.e3m2 : Fmt := ⟨3, 2, 3, false, .none, 0x1F, 0⟩
def Fmt.e2m3 : Fmt := ⟨2, 3, 1, false, .none, 0x1F, 0⟩
def Fmt.e2m1 : Fmt := ⟨2, 1, 1, false, .none, 0x7, 0⟩
def Fmt.ia25 : Fmt := ⟨8, 16, 127, true, .ieee, 0x0FEFFFF, 0x0FF8000⟩

/-- The floating format of an ET code; MX codes give their element format (R54). -/
def fmtOf : Nat → Option Fmt
  | 0 => some .fp32
  | 1 => some .bf16
  | 2 => some .fp16
  | 3 => some .e4m3
  | 4 => some .e5m2
  | 8 => some .e4m3
  | 9 => some .e5m2
  | 10 => some .e3m2
  | 11 => some .e2m3
  | 12 => some .e2m1
  | _ => none

/-- Element width of an ET code (R54, R77, R79, R80). -/
def etWidth : Nat → Nat
  | 0 => 32
  | 1 => 16
  | 2 => 16
  | 3 => 8
  | 4 => 8
  | 5 => 32
  | 6 => 8
  | 8 => 8
  | 9 => 8
  | 10 => 6
  | 11 => 6
  | 12 => 4
  | 13 => 8
  | 14 => 2
  | _ => 8

def isFloatEt (et : Nat) : Bool := et ≤ 4
def isIntEt (et : Nat) : Bool := et == 5 || et == 6
def isMxEt (et : Nat) : Bool := 8 ≤ et && et ≤ 13

/-- num * 2^k, as numerator and denominator. -/
def scale2 (num : Nat) (k : Int) : Nat × Nat :=
  if 0 ≤ k then (num * 2 ^ k.toNat, 1) else (num, 2 ^ (-k).toNat)

/-- The finite value (-1)^neg * n * 2^k. -/
def Num.dyadic (neg : Bool) (n : Nat) (k : Int) : Num :=
  let r := scale2 n k
  .fin neg r.1 r.2

/-- The value of an integer. -/
def Num.ofInt (i : Int) : Num := .fin (decide (i < 0)) i.natAbs 1

/-- The value of an encoding (R76, R77). -/
def decodeNum (f : Fmt) (b : Nat) : Num :=
  let fr := b % 2 ^ f.m
  let ex := (b >>> f.m) % 2 ^ f.e
  let neg := b.testBit (f.e + f.m)
  if f.infs && ex == 2 ^ f.e - 1 then (if fr = 0 then .inf neg else .nan)
  else if f.nans == .e4m3 && ex == 2 ^ f.e - 1 && fr == 2 ^ f.m - 1 then .nan
  else if ex = 0 then .dyadic neg fr (1 - (f.bias : Int) - f.m)
  else .dyadic neg (2 ^ f.m + fr) ((ex : Int) - f.bias - f.m)

/-- The sign bit of a format. -/
def signBit (f : Fmt) (neg : Bool) : Nat := if neg then 2 ^ (f.e + f.m) else 0

/-- The largest integer n with 2^n not above num / den, for num and den not 0. -/
def floorLog2 (num den : Nat) : Int :=
  let a : Int := (num.log2 : Int) - den.log2
  let r := scale2 den a
  if r.1 ≤ num * r.2 then a else a - 1

/-- Whether a discarded part rem / q rounds the magnitude away from zero (R83, R84). Modes: 0 rne, 1 rtz, 2 rdn, 3 rup,
4 sr. -/
def roundUp (mode : Nat) (neg : Bool) (lo rem q u : Nat) : Bool :=
  if rem = 0 then false
  else match mode with
    | 0 => decide (2 * rem > q) || (decide (2 * rem = q) && lo % 2 == 1)
    | 1 => false
    | 2 => neg
    | 3 => !neg
    | _ => decide (2 ^ 32 ≤ rem * 2 ^ 32 / q + u)

/-- What a finite value beyond the largest finite one becomes (R85). -/
def overflowResult (f : Fmt) (neg : Bool) (mode : Nat) (sat : Bool) : Nat × Fl :=
  let top := f.maxEnc + signBit f neg
  let away := if f.infs then (2 ^ f.e - 1) * 2 ^ f.m + signBit f neg else f.cnan
  if sat then (top, flSatd)
  else match mode with
    | 0 => (away, flOf)
    | 1 => (top, flOf)
    | 2 => (if neg then away else top, flOf)
    | 3 => (if neg then top else away, flOf)
    | _ => (away, flOf)

/-- What an infinite value becomes (R85). -/
def infResult (f : Fmt) (neg sat : Bool) : Nat × Fl :=
  if sat then (f.maxEnc + signBit f neg, flSatd)
  else if f.infs then ((2 ^ f.e - 1) * 2 ^ f.m + signBit f neg, 0)
  else (f.cnan, flNv)

/-- The kept magnitude and exponent of a nonzero value on the grid of a format: the exponent e and the integer
n = |v| / 2^(e - m), rounded (R83); with whether anything was discarded and whether the value is tiny. -/
def roundGrid (f : Fmt) (neg : Bool) (num den mode u : Nat) : Int × Nat × Bool × Bool :=
  let emin : Int := 1 - (f.bias : Int)
  let l := floorLog2 num den
  let e := if l < emin then emin else l
  let k := e - f.m
  -- |v| / 2^k
  let n := if 0 ≤ k then num else num * 2 ^ (-k).toNat
  let q := if 0 ≤ k then den * 2 ^ k.toNat else den
  let lo := n / q
  let rem := n % q
  let up := roundUp mode neg lo rem q u
  (e, if up then lo + 1 else lo, decide (rem ≠ 0), decide (l < emin))

/-- The rounding function of R83: the encoding and the flags. -/
def roundTo (f : Fmt) (v : Num) (mode : Nat) (sat : Bool) (u : Nat) : Nat × Fl :=
  match v with
  | .nan => (f.cnan, 0)
  | .inf neg => infResult f neg sat
  | .fin neg num den =>
    if num = 0 then (signBit f neg, 0)
    else
      let (e, n, inexact, tiny) := roundGrid f neg num den mode u
      let enc := if n < 2 ^ f.m then n else ((e + f.bias - 1).toNat) * 2 ^ f.m + n
      if f.maxEnc < enc then overflowResult f neg mode sat
      else (enc + signBit f neg, if inexact && tiny then flUf else 0)

/-- Rounding to an integer with grid spacing 1 (R83, R94). -/
def roundInt (neg : Bool) (num den mode u : Nat) : Int :=
  let lo := num / den
  let n := if roundUp mode neg lo (num % den) den u then lo + 1 else lo
  if neg then -(n : Int) else n

/-- A value in an integer type of `w` bits, two's complement (R94). An infinite input with SAT = 1 sets SATD alone, as R94 has it, and not
the NV that R86's row names without SAT (DEDUCED: log 51). -/
def roundToInt (w : Nat) (v : Num) (mode : Nat) (sat : Bool) (u : Nat) : Nat × Fl :=
  let hi : Int := (2 ^ (w - 1) : Nat) - 1
  let lo : Int := -(2 ^ (w - 1) : Nat)
  let out : Fl := if sat then flSatd else flNv
  match v with
  | .nan => (0, flNv)
  | .inf neg => (wrapN w (if neg then lo else hi), out)
  | .fin neg num den =>
    let i := roundInt neg num den mode u
    if hi < i then (wrapN w hi, out)
    else if i < lo then (wrapN w lo, out)
    else (wrapN w i, 0)

/-! ### Exact arithmetic (R91, R92) -/

def Num.neg : Num → Num
  | .nan => .nan
  | .inf s => .inf (!s)
  | .fin s n d => .fin (!s) n d

def Num.abs : Num → Num
  | .nan => .nan
  | .inf _ => .inf false
  | .fin _ n d => .fin false n d

def Num.isNan : Num → Bool
  | .nan => true
  | _ => false

def Num.isInf : Num → Bool
  | .inf _ => true
  | _ => false

def Num.isZero : Num → Bool
  | .fin _ n _ => n == 0
  | _ => false

def Num.isNeg : Num → Bool
  | .nan => false
  | .inf s => s
  | .fin s _ _ => s

/-- Two magnitudes over one denominator. -/
def commonDen (n1 d1 n2 d2 : Nat) : Nat × Nat × Nat :=
  if d1 = d2 then (n1, n2, d1)
  else if d2 % d1 = 0 then (n1 * (d2 / d1), n2, d2)
  else if d1 % d2 = 0 then (n1, n2 * (d1 / d2), d1)
  else (n1 * d2, n2 * d1, d1 * d2)

/-- The exact sum of two finite values; `rdn` gives an exact zero of unlike signs its sign (R91). -/
def finAdd (rdn : Bool) (s1 : Bool) (n1 d1 : Nat) (s2 : Bool) (n2 d2 : Nat) : Num :=
  let (a, b, d) := commonDen n1 d1 n2 d2
  if s1 = s2 then .fin s1 (a + b) d
  else if b < a then .fin s1 (a - b) d
  else if a < b then .fin s2 (b - a) d
  else .fin rdn 0 1

/-- Addition (R91). -/
def Num.add (rdn : Bool) (a b : Num) : Num × Fl :=
  match a, b with
  | .nan, _ => (.nan, 0)
  | _, .nan => (.nan, 0)
  | .inf s, .inf t => if s = t then (.inf s, 0) else (.nan, flNv)
  | .inf s, _ => (.inf s, 0)
  | _, .inf t => (.inf t, 0)
  | .fin s1 n1 d1, .fin s2 n2 d2 => (finAdd rdn s1 n1 d1 s2 n2 d2, 0)

/-- Multiplication (R91). -/
def Num.mul (a b : Num) : Num × Fl :=
  match a, b with
  | .nan, _ => (.nan, 0)
  | _, .nan => (.nan, 0)
  | .inf s, .inf t => (.inf (s != t), 0)
  | .inf s, .fin t n _ => if n = 0 then (.nan, flNv) else (.inf (s != t), 0)
  | .fin s n _, .inf t => if n = 0 then (.nan, flNv) else (.inf (s != t), 0)
  | .fin s n1 d1, .fin t n2 d2 => (.fin (s != t) (n1 * n2) (d1 * d2), 0)

/-- Fused multiply-add: the exact a * b + c (R91); an invalid product sets NV whatever the addend. -/
def Num.fma (rdn : Bool) (a b c : Num) : Num × Fl :=
  let p := Num.mul a b
  let r := Num.add rdn p.1 c
  (r.1, p.2 ||| r.2)

/-- Division (R91). -/
def Num.div (a b : Num) : Num × Fl :=
  match a, b with
  | .nan, _ => (.nan, 0)
  | _, .nan => (.nan, 0)
  | .inf _, .inf _ => (.nan, flNv)
  | .inf s, .fin t _ _ => (.inf (s != t), 0)
  | .fin s _ _, .inf t => (.fin (s != t) 0 1, 0)
  | .fin s n1 d1, .fin t n2 d2 =>
    if n2 = 0 then (if n1 = 0 then (.nan, flNv) else (.inf (s != t), 0))
    else (.fin (s != t) (n1 * d2) (d1 * n2), 0)

/-- a is below b, with -0 below +0, for values that are not NaN (R92). -/
def Num.below (a b : Num) : Bool :=
  match a, b with
  | .nan, _ => false
  | _, .nan => false
  | .inf s, .inf t => s && !t
  | .inf s, _ => s
  | _, .inf t => !t
  | .fin s n1 d1, .fin t n2 d2 =>
    if s != t then s
    else if s then decide (n2 * d1 < n1 * d2) else decide (n1 * d2 < n2 * d1)

/-- Equality of values, with -0 equal to +0 (R132). -/
def Num.same (a b : Num) : Bool :=
  match a, b with
  | .nan, _ => false
  | _, .nan => false
  | .inf s, .inf t => s == t
  | .inf _, _ => false
  | _, .inf _ => false
  | .fin s n1 d1, .fin t n2 d2 => n1 * d2 == n2 * d1 && (s == t || n1 == 0)

def Num.max (a b : Num) : Num :=
  if a.isNan || b.isNan then .nan else if a.below b then b else a

def Num.min (a b : Num) : Num :=
  if a.isNan || b.isNan then .nan else if b.below a then b else a

/-- The operand of larger (or smaller) magnitude with its own sign; of equal magnitudes, the positive one (R92). -/
def Num.magPick (larger : Bool) (a b : Num) : Num :=
  if a.isNan || b.isNan then .nan
  else
    let x := a.abs
    let y := b.abs
    if x.below y then (if larger then b else a)
    else if y.below x then (if larger then a else b)
    else if a.isNeg then b else a

/-! ### Square root (R91) -/

/-- Integer square root, digit by digit from the highest. -/
def isqrtStep (n : Nat) : Nat → Nat → Nat
  | 0, r => r
  | k + 1, r => if (r + 2 ^ k) * (r + 2 ^ k) ≤ n then isqrtStep n k (r + 2 ^ k) else isqrtStep n k r

/-- The largest integer whose square is not above `n`. -/
def isqrt (n : Nat) : Nat := isqrtStep n (n.log2 / 2 + 1) 0

/-- An exact value within every rounding decision of √(num / den): the root cut to 2^-k and a half unit more where it
is not exact, with k large enough that no grid point or tie of any format lies between. -/
def sqrtNum (num den : Nat) : Num :=
  let k := 200
  let x := num * 2 ^ (2 * k) / den
  let y := isqrt x
  if y * y = x && num * 2 ^ (2 * k) % den = 0 then .fin false y (2 ^ k) else .fin false (2 * y + 1) (2 ^ (k + 1))

/-- Square root with its special cases (R91). -/
def Num.sqrtR : Num → Num × Fl
  | .nan => (.nan, 0)
  | .inf s => if s then (.nan, flNv) else (.inf false, 0)
  | .fin s n d =>
    if n = 0 then (.fin s 0 1, 0)
    else if s then (.nan, flNv)
    else (sqrtNum n d, 0)

/-! ### Elements -/

/-- The value of an element of ET 0 to 6 (R76, R79). -/
def elemNum (et b : Nat) : Num :=
  match fmtOf et with
  | some f => decodeNum f b
  | none => .ofInt (toSigned (etWidth et) b)

/-- Rounding into an element type of ET 0 to 6 (R93, R94). -/
def toElem (et : Nat) (v : Num) (mode : Nat) (sat : Bool) (u : Nat) : Nat × Fl :=
  match fmtOf et with
  | some f => roundTo f v mode sat u
  | none => roundToInt (etWidth et) v mode sat u

/-- A ternary code (R80). -/
def ternNum : Nat → Num × Fl
  | 1 => (.fin false 1 1, 0)
  | 3 => (.fin true 1 1, 0)
  | 2 => (.fin false 0 1, flTern)
  | _ => (.fin false 0 1, 0)

/-- Conversion of one element between ET 0 to 6 (R93, R94). -/
def convElem (ets etd b mode : Nat) (sat : Bool) (u : Nat) : Nat × Fl :=
  if ets = 5 && etd = 6 then
    let i := toSigned 32 b
    if sat then (if 127 < i then (127, flSatd) else if i < -128 then (128, flSatd) else (wrapN 8 i, 0))
    else (b % 256, 0)
  else if ets = 6 && etd = 5 then (wrapN 32 (toSigned 8 b), 0)
  else if ets = etd then
    match fmtOf ets with
    | some f => if (decodeNum f b).isNan then (f.cnan, 0) else (b, 0)
    | none => (b, 0)
  else toElem etd (elemNum ets b) mode sat u

/-! ### Blocks (R82, R95, R96) -/

/-- Exponent of the largest power of two of an MX element format (R95). -/
def mxEmax : Nat → Int
  | 8 => 8
  | 9 => 15
  | 10 => 4
  | 11 => 2
  | 12 => 2
  | _ => 0

/-- An element of an MX type without its scale: MXINT8 counts in 2^-6 (R79). -/
def mxElemNum (et b : Nat) : Num :=
  match fmtOf et with
  | some f => decodeNum f b
  | none =>
    let i := toSigned 8 b
    .fin (decide (i < 0)) i.natAbs 64

/-- A block element with its E8M0 scale (R79, R96). -/
def mxNum (et scale b : Nat) : Num :=
  if scale = 0xFF then .nan
  else (Num.mul (mxElemNum et b) (.dyadic false 1 ((scale : Int) - 127))).1

/-- The largest magnitude of a list of values; 0 for none. -/
def maxMag (xs : List Num) : Num := xs.foldl (fun m x => if m.below x.abs then x.abs else m) (.fin false 0 1)

/-- 2^-se times a finite value. -/
def descale (v : Num) (se : Int) : Num := (Num.mul v (.dyadic false 1 (-se))).1

/-- One element of a block (R95): rounded, clamped to the largest finite value without a flag. -/
def mxRound (et : Nat) (y : Num) (mode u : Nat) : Nat × Fl :=
  match fmtOf et with
  | some f =>
    match y with
    | .fin neg num den =>
      if num = 0 then (signBit f neg, 0)
      else
        let (e, n, inexact, tiny) := roundGrid f neg num den mode u
        let enc := if n < 2 ^ f.m then n else ((e + f.bias - 1).toNat) * 2 ^ f.m + n
        (Nat.min enc f.maxEnc + signBit f neg, if inexact && tiny then flUf else 0)
    | _ => (0, 0)
  | none =>
    match y with
    | .fin neg num den =>
      let i := roundInt neg (num * 64) den mode u
      (wrapN 8 (if 127 < i then 127 else if i < -127 then -127 else i), 0)
    | _ => (0, 0)

/-- Conversion of 32 values into a block: its scale byte, its elements and the flags (R95). -/
def toMx (et : Nat) (xs : List Num) (mode : Nat) (us : List Nat) : Nat × List Nat × Fl :=
  if xs.any fun x => x.isNan || x.isInf then (0xFF, xs.map fun _ => 0, flNv)
  else
    let se : Int := match maxMag xs with
      | .fin _ n d => if n = 0 then -127 else
          let e := floorLog2 n d - mxEmax et
          if e < -127 then -127 else if 127 < e then 127 else e
      | _ => -127
    let rs := (xs.zip us).map fun p => mxRound et (descale p.1 se) mode p.2
    ((se + 127).toNat, rs.map (·.1), rs.foldl (fun fl r => fl ||| r.2) 0)

/-- Bytes of a packed block of an MX type (R82). -/
def mxBlockBytes : Nat → Nat
  | 10 => 24
  | 11 => 24
  | 12 => 16
  | _ => 32

/-! ### Stochastic bits (R88) -/

structure SrState where
  a : BitVec 32
  b : BitVec 32
  g : BitVec 32
  h : BitVec 32

def srInject (key : List (BitVec 32)) (j : Nat) (s : SrState) : SrState :=
  let k (i : Nat) : BitVec 32 := key.getD (i % 3) 0
  ⟨s.a + k j, s.b + k (j + 1), s.g + k (j + 2), s.h + BitVec.ofNat 32 j⟩

def srRound (rab rgh : Nat) (s : SrState) : SrState :=
  let a := s.a + s.b
  let b := rotl32 s.b rab ^^^ a
  let g := s.g + s.h
  let h := rotl32 s.h rgh ^^^ g
  ⟨a, h, g, b⟩

/-- The counter-based generator of R88. -/
def srgen (k c : Word) (w : BitVec 32) : BitVec 32 :=
  let k0 := k.extractLsb' 0 32
  let k1 := k.extractLsb' 32 32
  let key := [k0, k1, k0 ^^^ k1 ^^^ 0x5AB3C1E9]
  let s := srInject key 0 ⟨c.extractLsb' 0 32, c.extractLsb' 32 32, w, 0x71D42A9B⟩
  let s := srRound 21 5 (srRound 7 17 (srRound 13 29 s))
  let s := srInject key 1 s
  let s := srRound 9 23 (srRound 19 3 (srRound 11 25 s))
  let s := srInject key 2 s
  s.a ^^^ s.g

/-! ### Sums (R98 to R103) -/

/-- One level of pair_tree (R98): absent entries keep their place; an odd last entry passes up unchanged. -/
def pairLevel {α : Type} (op : α → α → α × Fl) : List (Option α) → List (Option α) × Fl
  | [] => ([], 0)
  | [x] => ([x], 0)
  | a :: b :: rest =>
    let r := pairLevel op rest
    match a, b with
    | none, y => (y :: r.1, r.2)
    | x, none => (x :: r.1, r.2)
    | some x, some y =>
      let z := op x y
      (some z.1 :: r.1, z.2 ||| r.2)

/-- pair_tree (R98) with a node operation that may depend on the level, numbered from 1. -/
def pairTree {α : Type} (op : Nat → α → α → α × Fl) : Nat → Nat → List (Option α) → Option α × Fl
  | 0, _, l => (l.headD none, 0)
  | fuel + 1, level, l =>
    match l with
    | [] => (none, 0)
    | [x] => (x, 0)
    | _ =>
      let r := pairLevel (op level) l
      let t := pairTree op fuel (level + 1) r.1
      (t.1, r.2 ||| t.2)

/-- An FP32 node of a vector reduction (R99). -/
def addFp32 (a b : Num) : Num × Fl :=
  let s := Num.add false a b
  let r := roundTo .fp32 s.1 0 false 0
  (decodeNum .fp32 r.1, s.2 ||| r.2)

/-- R103: a NaN among the present values, or infinities of both signs. -/
def nanRule (xs : List (Option Num)) : Bool :=
  let ps := xs.filterMap id
  (ps.any Num.isNan) || (ps.any fun x => x == .inf false) && (ps.any fun x => x == .inf true)

end Sys2Proof.Machine
end

