-- ==== Sys2Proof/Machine/Special.lean ====
section
/-!
DEFINITION. Machine/Special.lean: the functions of vfn (R125), correctly rounded.
A value is enclosed in an interval m ± err, times a power of two, in integer arithmetic of growing precision; both ends
are rounded by R83, and the first precision at which they agree gives the result. Exact values are given exactly, and
arguments beyond which every format and every mode rounds alike are replaced by a value on the same side.
-/

namespace Sys2Proof.Machine

/-- The real numbers from (m - err) * 2^e to (m + err) * 2^e. -/
structure Apx where
  m : Int
  e : Int
  err : Nat
deriving DecidableEq, Repr

/-- ln 2 in units of 2^-p, short by at most p + 1 units: the sum of 1 / (k 2^k). -/
def ln2Fix (p : Nat) : Nat := (List.range p).foldl (fun s k => s + 2 ^ p / ((k + 1) * 2 ^ (k + 1))) 0

/-- atan (1 / q) in units of 2^-p, within 2 * p units. -/
def atanInv (p q : Nat) : Int :=
  (List.range (p / 4 + 2)).foldl
    (fun s k => let t : Int := (2 ^ p / ((2 * k + 1) * q ^ (2 * k + 1)) : Nat); if k % 2 = 0 then s + t else s - t) 0

/-- pi in units of 2^-p, within 64 * p units (Machin's formula). -/
def piFix (p : Nat) : Nat := (16 * atanInv p 5 - 4 * atanInv p 239).toNat

/-- Terms of the exponential series of r / 2^p, summed until they vanish. -/
def expSum (p : Nat) (r : Int) : Nat → Nat → Int → Int → Int
  | 0, _, _, s => s
  | n + 1, k, t, s =>
    let t := t * r / ((2 ^ p : Nat) * (k : Int))
    if t = 0 then s else expSum p r n (k + 1) t (s + t)

/-- e^(n / d): the argument is reduced by a multiple of ln 2, and the series has at most p terms. -/
def expApx (p : Nat) (n : Int) (d : Nat) : Apx :=
  let l : Int := ln2Fix p
  let x : Int := n * (2 ^ p : Nat) / d
  let k := x / l
  let r := x - k * l
  ⟨expSum p r p 1 (2 ^ p : Nat) (2 ^ p : Nat), k - p, 2 ^ 13 + 4 * p * (k.natAbs + 2)⟩

/-- Terms of the series of atanh z / 2^p. -/
def atanhSum (p : Nat) (z2 : Nat) : Nat → Nat → Nat → Nat → Nat
  | 0, _, _, s => s
  | n + 1, k, t, s => if t = 0 then s else atanhSum p z2 n (k + 2) (t * z2 / 2 ^ p) (s + t / k)

/-- ln (n / d) for positive n and d, in units of 2^-p. -/
def lnApx (p n d : Nat) : Apx :=
  let k := floorLog2 n d
  let r := scale2 1 k
  -- f = n / (d 2^k) in [1, 2); z = (f - 1) / (f + 1)
  let a := n * r.2
  let b := d * r.1
  let z := (a - b) * 2 ^ p / (a + b)
  ⟨2 * (atanhSum p (z * z / 2 ^ p) p 1 z 0 : Nat) + k * (ln2Fix p : Nat), -(p : Int), 8 * p + 8 + 2 * p * k.natAbs⟩

/-- The product of an approximation and an exact value n / d. -/
def Apx.scale (a : Apx) (n : Int) (d : Nat) : Apx := ⟨a.m * n / d, a.e, a.err * n.natAbs / d + 2⟩

/-- The product of two approximations. -/
def Apx.mul (a b : Apx) : Apx :=
  ⟨a.m * b.m, a.e + b.e, a.m.natAbs * b.err + b.m.natAbs * a.err + a.err * b.err⟩

/-- An approximation brought to units of 2^-p. -/
def Apx.fix (a : Apx) (p : Nat) : Apx :=
  let s := a.e + p
  if 0 ≤ s then ⟨a.m * (2 ^ s.toNat : Nat), -(p : Int), a.err * 2 ^ s.toNat⟩
  else ⟨a.m / (2 ^ (-s).toNat : Nat), -(p : Int), a.err / 2 ^ (-s).toNat + 2⟩

/-- The quotient of two approximations in equal units, in units of 2^-p; the divisor is positive and at least twice
its error. -/
def Apx.quot (p : Nat) (a b : Apx) : Apx :=
  let q := a.m * (2 ^ p : Nat) / b.m
  ⟨q, -(p : Int), (2 * (a.err * 2 ^ p + q.natAbs * b.err)) / b.m.natAbs + 2⟩

/-- 1 in units of 2^-p, plus or minus an approximation in those units. -/
def Apx.onePlus (p : Nat) (a : Apx) : Apx := ⟨(2 ^ p : Nat) + a.m, a.e, a.err⟩
def Apx.oneMinus (p : Nat) (a : Apx) : Apx := ⟨(2 ^ p : Nat) - a.m, a.e, a.err⟩

/-- The sum of y^n / (1 * 3 * 5 ... (2n + 1)) for y = num / den, in units of 2^-p. -/
def oddSum (p num den : Nat) : Nat → Nat → Nat → Nat → Nat
  | 0, _, _, s => s
  | n + 1, k, t, s => if t = 0 then s else oddSum p num den n (k + 2) (t * num / (den * (k + 2))) (s + t)

/-- erf of the positive value whose square is num / den, given that value times 2 / sqrt pi as `c`:
c * e^(-num / den) * sum of (2 num / den)^n / (2n + 1)!!. -/
def erfApx (p num den : Nat) (c : Apx) : Apx :=
  let s := oddSum p (2 * num) den (8 * p) 1 (2 ^ p) 0
  (c.mul ((expApx p (-(num : Int)) den).mul ⟨s, -(p : Int), 16 * p⟩)).fix p

/-- A square root of (n / d) over pi, in units of 2^-p. -/
def rootOverPi (p n d : Nat) : Apx := ⟨isqrt (n * 2 ^ (3 * p) / (d * piFix p)), -(p : Int), 256 * p⟩

/-- Both ends of an approximation of a magnitude rounded by R83, where they agree. -/
def agree (f : Fmt) (neg : Bool) (mode : Nat) (u : Nat) (a : Apx) : Option (Nat × Fl) :=
  let lo := a.m - a.err
  if lo ≤ 0 then none
  else
    let x := roundTo f (.dyadic neg lo.toNat a.e) mode false u
    let y := roundTo f (.dyadic neg (a.m + a.err).toNat a.e) mode false u
    if x = y then some x else none

/-- The result at the first precision of a list at which both ends agree; the last precision's middle otherwise. -/
def refine (f : Fmt) (neg : Bool) (mode u : Nat) (g : Nat → Apx) : List Nat → Nat × Fl
  | [] => let a := g 4096; roundTo f (.dyadic neg a.m.toNat a.e) mode false u
  | p :: ps =>
    match agree f neg mode u (g p) with
    | some r => r
    | none => refine f neg mode u g ps

/-- Precisions tried. -/
def precisions : List Nat := [128, 256, 512, 1024, 2048]

/-- A magnitude below every rounding decision of every format, one above every finite value, and one just below 1. -/
def tinyNum (neg : Bool) : Num := .fin neg 1 (2 ^ 400)
def hugeNum (neg : Bool) : Num := .fin neg (2 ^ 400) 1
def almost (neg : Bool) (n d : Nat) : Num := .fin neg (n * (2 ^ 400 - 1)) (d * 2 ^ 400)

/-- n / d is at least k. -/
def atLeast (n d k : Nat) : Bool := decide (k * d ≤ n)

/-- 2^a. -/
def fnExp2 (f : Fmt) (mode u : Nat) (neg : Bool) (n d : Nat) : Nat × Fl :=
  if atLeast n d 200 then roundTo f (if neg then tinyNum false else hugeNum false) mode false u
  else if n % d = 0 then roundTo f (.dyadic false 1 (if neg then -(n / d : Nat) else (n / d : Nat))) mode false u
  else
    -- 2^a = 2^floor(a) * e^(frac(a) ln 2)
    refine f false mode u (fun p =>
      let x : Int := (if neg then -(n : Int) else n) * (2 ^ p : Nat) / d
      let k := x / (2 ^ p : Nat)
      let r := (x - k * (2 ^ p : Nat)) * (ln2Fix p : Nat) / (2 ^ p : Nat)
      ⟨expSum p r p 1 (2 ^ p : Nat) (2 ^ p : Nat), k - p, 2 ^ 13 + 16 * p⟩) precisions

/-- e^a for nonzero a. -/
def fnExp (f : Fmt) (mode u : Nat) (neg : Bool) (n d : Nat) : Nat × Fl :=
  if atLeast n d 140 then roundTo f (if neg then tinyNum false else hugeNum false) mode false u
  else refine f false mode u (fun p => expApx p (if neg then -(n : Int) else n) d) precisions

/-- The logarithm of a positive value other than 1, to base 2 or e; a power of two has an exact base-2 logarithm. -/
def fnLog (two : Bool) (f : Fmt) (mode u : Nat) (n d : Nat) : Nat × Fl :=
  let k := floorLog2 n d
  let r := scale2 1 k
  if two && n * r.2 == d * r.1 then roundTo f (.ofInt k) mode false u
  else
    let neg := decide (n < d)
    refine f neg mode u (fun p =>
      let a := lnApx p n d
      let a : Apx := if neg then ⟨-a.m, a.e, a.err⟩ else a
      if two then Apx.quot p a ⟨ln2Fix p, -(p : Int), p + 1⟩ else a) precisions

/-- tanh of a nonzero magnitude: (1 - t) / (1 + t) with t = e^(-2a). -/
def fnTanh (f : Fmt) (mode u : Nat) (neg : Bool) (n d : Nat) : Nat × Fl :=
  if atLeast n d 64 then roundTo f (almost neg 1 1) mode false u
  else refine f neg mode u (fun p =>
    let t := (expApx p (-(2 * n : Nat)) d).fix p
    Apx.quot p (t.oneMinus p) (t.onePlus p)) precisions

/-- 1 / (1 + e^-a) for a nonzero argument. -/
def sigmoidApx (p : Nat) (neg : Bool) (n d : Nat) : Apx :=
  let t := (expApx p (-(n : Int)) d).fix p
  if neg then Apx.quot p t (t.onePlus p) else Apx.quot p ⟨(2 ^ p : Nat), -(p : Int), 0⟩ (t.onePlus p)

def fnSigmoid (f : Fmt) (mode u : Nat) (neg : Bool) (n d : Nat) : Nat × Fl :=
  if atLeast n d 140 then roundTo f (if neg then tinyNum false else almost false 1 1) mode false u
  else refine f false mode u (fun p => sigmoidApx p neg n d) precisions

/-- a / (1 + e^-a). -/
def fnSilu (f : Fmt) (mode u : Nat) (neg : Bool) (n d : Nat) : Nat × Fl :=
  if atLeast n d 160 then roundTo f (if neg then tinyNum true else almost false n d) mode false u
  else refine f neg mode u (fun p => (sigmoidApx p neg n d).scale n d) precisions

/-- erf a. -/
def fnErf (f : Fmt) (mode u : Nat) (neg : Bool) (n d : Nat) : Nat × Fl :=
  if atLeast n d 8 then roundTo f (almost neg 1 1) mode false u
  else refine f neg mode u (fun p => erfApx p (n * n) (d * d) ((rootOverPi p 4 1).scale n d)) precisions

/-- a (1 + erf (a / sqrt 2)) / 2. -/
def fnGelu (f : Fmt) (mode u : Nat) (neg : Bool) (n d : Nat) : Nat × Fl :=
  if atLeast n d 18 then roundTo f (if neg then tinyNum true else almost false n d) mode false u
  else refine f neg mode u (fun p =>
    let e := erfApx p (n * n) (2 * d * d) ((rootOverPi p 2 1).scale n d)
    (if neg then e.oneMinus p else e.onePlus p).scale n (2 * d)) precisions

/-- vfn (R125) on one value: the encoding of the result and the flags. -/
def vfnElem (fn : Nat) (f : Fmt) (mode u : Nat) (v : Num) : Nat × Fl :=
  let out (x : Num) : Nat × Fl := roundTo f x mode false u
  match v with
  | .nan => (f.cnan, 0)
  | .inf s =>
    match fn with
    | 0 => if s then (f.cnan, flNv) else out (.inf false)
    | 1 => out (.fin s 0 1)
    | 2 => if s then (f.cnan, flNv) else out (.fin false 0 1)
    | 3 => out (if s then .fin false 0 1 else .inf false)
    | 4 => if s then (f.cnan, flNv) else out (.inf false)
    | 5 => out (if s then .fin false 0 1 else .inf false)
    | 6 => if s then (f.cnan, flNv) else out (.inf false)
    | 7 => out (.fin s 1 1)
    | 8 => out (if s then .fin false 0 1 else .fin false 1 1)
    | 9 => out (if s then .fin true 0 1 else .inf false)
    | 10 => out (.fin s 1 1)
    | _ => out (if s then .fin true 0 1 else .inf false)
  | .fin s n d =>
    if n = 0 then
      match fn with
      | 0 => out (.fin s 0 1)
      | 1 => out (.inf s)
      | 2 => out (.inf s)
      | 3 => out (.fin false 1 1)
      | 4 => out (.inf true)
      | 5 => out (.fin false 1 1)
      | 6 => out (.inf true)
      | 8 => out (.fin false 1 2)
      | _ => out (.fin s 0 1)
    else
      match fn with
      | 0 => let r := Num.sqrtR v; let q := out r.1; (q.1, q.2 ||| r.2)
      | 1 => out (.fin s d n)
      | 2 => if s then (f.cnan, flNv) else
          match (Num.sqrtR v).1 with
          | .fin _ a b => out (.fin false b a)
          | _ => (f.cnan, 0)
      | 3 => fnExp2 f mode u s n d
      | 4 => if s then (f.cnan, flNv) else if n = d then out (.fin false 0 1) else fnLog true f mode u n d
      | 5 => fnExp f mode u s n d
      | 6 => if s then (f.cnan, flNv) else if n = d then out (.fin false 0 1) else fnLog false f mode u n d
      | 7 => fnTanh f mode u s n d
      | 8 => fnSigmoid f mode u s n d
      | 9 => fnSilu f mode u s n d
      | 10 => fnErf f mode u s n d
      | _ => fnGelu f mode u s n d

end Sys2Proof.Machine
end

