-- ==== Sys2Proof/Machine/Compute.lean ====
section
/-!
DEFINITION. Machine/Compute.lean: what the vector engine computes from the operands a command has read
(R105 to R135): elements, conversions, reductions, compares, predicates and permutes.
-/

namespace Sys2Proof.Machine

/-- Elements of width `w` in a register (R105). -/
def lanes (w : Nat) : Nat := 2048 / w

/-- Element `i` of width `w` of a register (R81). -/
def elem (w i : Nat) (v : VReg) : Nat := (v.toNat >>> (w * i)) % 2 ^ w

/-- A register from its elements. -/
def fromElems (w : Nat) (xs : List Nat) : VReg := BitVec.ofNat 2048 (packN w xs)

/-- Element `i` is governed by the predicate bit of its lowest byte (R105); no predicate makes it active (R106). -/
def active (p : Option PReg) (w i : Nat) : Bool :=
  match p with
  | none => true
  | some q => bitAt q (w * i / 8)

/-- Whether an operation reads VD (R50, R117, R119, R121). -/
def VOp.accumulates : VOp → Bool
  | .fma | .fms | .fnma | .fmax | .dot2 | .dot4 => true
  | _ => false

/-- Whether an operation rounds by NRM.RM for a floating type (R116). -/
def VOp.rounds : VOp → Bool
  | .add | .sub | .mul | .fma | .fms | .fnma | .div | .dot2 | .dot4 | .addx | .subx | .mulx | .fmax | .scalex | .fn
  | .rsum | .rmax | .rmin | .ramax | .scan => true
  | _ => false

/-- The types an operation accepts (R115). The table has no row for vneg and vabs, which accept what vsub accepts (DESIGN CHOICE: log 51). -/
def VOp.accepts (op : VOp) (ty : Nat) : Bool :=
  let f := decide (ty ≤ 2)
  let f8 := ty == 3 || ty == 4
  let i := ty == 5 || ty == 6
  match op with
  | .add | .sub | .mul | .min | .max | .addx | .subx | .mulx | .minx | .maxx | .neg | .abs => f || i
  | .fma | .fms | .fnma | .div | .amin | .amax | .fmax | .scalex | .fn | .cls => f
  | .sadd | .ssub | .mulh | .addi | .mini | .maxi | .andi | .xori | .slli | .srli | .srai | .sll | .srl | .sra | .bits => i
  | .rsum | .rmax | .rmin | .ramax => f || i
  | .scan => f || ty == 5
  | .dot2 => ty == 1 || ty == 2
  | .dot4 => f8 || ty == 6
  | .scadd => f || ty == 5
  | _ => f || f8 || i

/-- The element format of the result that VD takes (R108, R119, R130). -/
def VOp.resultTy (op : VOp) (ty : Nat) : Nat :=
  match op with
  | .dot2 | .dot4 => if ty = 6 then 5 else 0
  | .rsum | .rmax | .rmin | .ramax => if ty = 6 then 5 else ty
  | _ => ty

/-- Exposed latency (R110). -/
def VOp.latency (op : VOp) (ty etd : Nat) : Nat :=
  let isF := decide (ty ≤ 4)
  match op with
  | .plog | .pcnt | .pfirst | .pfromx | .ptox | .pwhile => 1
  | .and | .or | .xor | .andn | .sll | .srl | .sra | .sadd | .ssub => 2
  | .addi | .mini | .maxi | .andi | .xori | .slli | .srli | .srai | .bcast | .mov | .neg | .abs | .cls | .bits | .sel | .cmp => 2
  | .perm | .rev | .zip | .unzip | .trn | .slide | .rotl | .bcl => 3
  | .add | .sub | .min | .max | .addx | .subx | .mulx | .minx | .maxx => if isF then 4 else 2
  | .mul => 4
  | .fma | .fms | .fnma | .amin | .amax | .mulh | .fmax | .scalex | .rint => 4
  | .dot2 | .dot4 => 5
  | .cvt => if isMxEt ty || isMxEt etd then 8 else 4
  | .rsum | .rmax | .rmin | .ramax | .scan => 10
  | .div | .fn => 16
  | _ => 0

/-- The static width an operation's elements have: that of its type, 32 for the dot forms (R119). -/
def VOp.width (op : VOp) (ty : Nat) : Nat :=
  match op with
  | .dot2 | .dot4 => 32
  | _ => etWidth ty

/-! ### Element results -/

/-- Clamping to the signed range of `w` bits. -/
def clampS (w : Nat) (i : Int) : Int :=
  let hi : Int := (2 ^ (w - 1) : Nat) - 1
  let lo : Int := -(2 ^ (w - 1) : Nat)
  if hi < i then hi else if i < lo then lo else i

/-- An integer element result (R117, R120, R121, R122): `a`, `b`, `d` as bits, `n` the immediate. -/
def intElem (op : VOp) (w a b d : Nat) (imm : Int) : Nat :=
  let sa := toSigned w a
  let sb := toSigned w b
  let sh := b % w
  let k := imm.toNat
  match op with
  | .add | .addx => wrapN w (sa + sb)
  | .sub | .subx => wrapN w (sa - sb)
  | .mul | .mulx => wrapN w (sa * sb)
  | .min | .minx => if sb < sa then b else a
  | .max | .maxx => if sa < sb then b else a
  | .sadd => wrapN w (clampS w (sa + sb))
  | .ssub => wrapN w (clampS w (sa - sb))
  | .mulh => wrapN w (sa * sb / (2 ^ w : Nat))
  | .and => a &&& b
  | .or => a ||| b
  | .xor => a ^^^ b
  | .andn => a &&& (2 ^ w - 1 - b)
  | .sll => (a <<< sh) % 2 ^ w
  | .srl => a >>> sh
  | .sra => wrapN w (sa / (2 ^ sh : Nat))
  | .addi => wrapN w (sa + imm)
  | .mini => wrapN w (if imm < sa then imm else sa)
  | .maxi => wrapN w (if sa < imm then imm else sa)
  | .andi => a &&& wrapN w imm
  | .xori => a ^^^ wrapN w imm
  | .slli => (a <<< k) % 2 ^ w
  | .srli => a >>> k
  | .srai => wrapN w (sa / (2 ^ k : Nat))
  | .neg => wrapN w (-sa)
  | .abs => wrapN w sa.natAbs
  | .bcast => b
  | .mov => a
  | _ => d

/-- The class of an encoding (R123). -/
def classify (f : Fmt) (b : Nat) : Nat :=
  let sub := (b >>> f.m) % 2 ^ f.e == 0
  match decodeNum f b with
  | .nan => 8
  | .inf s => if s then 0 else 7
  | .fin s n _ => if n = 0 then (if s then 3 else 4) else if sub then (if s then 2 else 5) else (if s then 1 else 6)

/-- vbits (R124). -/
def bitsElem (fn w a : Nat) : Nat :=
  match fn with
  | 0 => popN w a
  | 1 => clzN w a
  | 2 => ctzN w a
  | 3 => brevN w a
  | _ => bswapN (w / 8) a

/-- A floating element result (R117, R121, R122), `s` the signed scalar of vscalex. -/
def floatElem (op : VOp) (f : Fmt) (a b d : Nat) (rm u : Nat) (s : Int) (fn : Nat) : Nat × Fl :=
  let x := decodeNum f a
  let y := decodeNum f b
  let z := decodeNum f d
  let rdn := rm == 2
  let fin (r : Num × Fl) : Nat × Fl := let q := roundTo f r.1 rm false u; (q.1, q.2 ||| r.2)
  let pick (r : Num) : Nat × Fl := roundTo f r 0 false 0
  match op with
  | .add | .addx => fin (Num.add rdn x y)
  | .sub | .subx => fin (Num.add rdn x y.neg)
  | .mul | .mulx => fin (Num.mul x y)
  | .fma | .fmax => fin (Num.fma rdn x y z)
  | .fms => fin (Num.fma rdn x y z.neg)
  | .fnma => fin (Num.fma rdn x.neg y z)
  | .min | .minx => pick (Num.min x y)
  | .max | .maxx => pick (Num.max x y)
  | .div => fin (Num.div x y)
  | .amin => pick (Num.magPick false x y)
  | .amax => pick (Num.magPick true x y)
  | .scalex =>
    let k : Int := if 4096 < s then 4096 else if s < -4096 then -4096 else s
    match x with
    | .fin g n m => let r := scale2 1 k; fin (.fin g (n * r.1) (m * r.2), 0)
    | v => fin (v, 0)
  | .neg => match x with
    | .nan => (f.cnan, 0)
    | _ => (a ^^^ 2 ^ (f.e + f.m), 0)
  | .abs => match x with
    | .nan => (f.cnan, 0)
    | _ => (a % 2 ^ (f.e + f.m), 0)
  | .fn => vfnElem fn f rm u x
  | .cls => (2 ^ classify f a % 2 ^ (f.e + f.m + 1), 0)
  | _ => (a, 0)

/-- One element of an element-wise operation (R117 to R124). -/
def elemResult (op : VOp) (ty a b d rm u : Nat) (imm s : Int) (fn : Nat) : Nat × Fl :=
  let w := etWidth ty
  match op with
  | .and | .or | .xor | .andn | .bcast | .mov => (intElem op w a b d imm, 0)
  | .bits => (bitsElem fn w a, 0)
  | _ => match fmtOf ty with
    | some f => floatElem op f a b d rm u s fn
    | none => (intElem op w a b d imm, 0)

/-- The exact sum of products and an addend, rounded once (R99, R119); the products' invalid cases set NV. -/
def dotSum (rdn : Bool) (ps : List (Num × Num)) (d : Num) : Num × Fl :=
  let ms := ps.map fun p => Num.mul p.1 p.2
  let fl := ms.foldl (fun f m => f ||| m.2) 0
  let vals := d :: ms.map (·.1)
  if vals.any Num.isNan then (.nan, fl)
  else if (vals.any fun v => v == .inf false) && (vals.any fun v => v == .inf true) then (.nan, fl ||| flNv)
  else match vals.find? Num.isInf with
    | some v => (v, fl)
    | none =>
      -- an exact zero sum of terms that are all -0 keeps the sign; otherwise R91 gives the sign
      ((ms.map (·.1)).foldl (fun acc v => (Num.add rdn acc v).1) d, fl)

/-- One element of vdot2 or vdot4 (R119): `k` sources of width `32 / k` each. -/
def dotElem (op : VOp) (ty i : Nat) (a b : VReg) (d rm u : Nat) : Nat × Fl :=
  let k := if op = .dot2 then 2 else 4
  let w := 32 / k
  let js := range2 (k * i) k
  match fmtOf ty with
  | some f =>
    let r := dotSum (rm == 2) (js.map fun j => (decodeNum f (elem w j a), decodeNum f (elem w j b))) (decodeNum .fp32 d)
    let q := roundTo .fp32 r.1 rm false u
    (q.1, q.2 ||| r.2)
  | none =>
    (wrapN 32 (js.foldl (fun s j => s + toSigned w (elem w j a) * toSigned w (elem w j b)) (toSigned 32 d)), 0)

/-! ### Whole results -/

/-- What a computation gives: the bits of VD, the flags, and the values its enqueued elements offer (R220). -/
structure VOut where
  v : VReg
  fl : Fl
  offers : List Num
deriving DecidableEq, Repr

/-- Element results written where active; elsewhere the previous bits, or zeros in a stream entry (R106). -/
def writeLanes (w n ty : Nat) (p : Option PReg) (d : VReg) (stream : Bool) (f : Nat → Nat × Fl) : VOut :=
  let rs := (List.range n).map fun i =>
    if active p w i then let r := f i; (r.1, r.2, true) else (if stream then 0 else elem w i d, 0, false)
  ⟨fromElems w (rs.map (·.1)), rs.foldl (fun fl r => fl ||| r.2.1) 0,
   (rs.filter fun r => r.2.2).map fun r => elemNum ty r.1⟩

/-- The index of the source of a permuted element (R135): none gives zero bits; false is VA, true VB. -/
def permIndex (op : VOp) (n i b : Nat) (imm : Int) : Option (Bool × Nat) :=
  match op with
  | .perm => some (false, b % n)
  | .rev => some (false, n - 1 - i)
  | .zip => some (i % 2 == 1, i / 2)
  | .unzip => if 2 * i < n then some (false, 2 * i) else some (true, 2 * i - n)
  | .trn => if i % 2 = 0 then some (false, i) else some (true, i - 1)
  | .slide => if 0 ≤ (i : Int) + imm ∧ (i : Int) + imm < n then some (false, ((i : Int) + imm).toNat) else none
  | .rotl => some (false, (((i : Int) + imm) % (n : Int)).toNat)
  | _ => some (false, imm.toNat)

/-- A reduction (R98, R99, R130). -/
def reduce (op : VOp) (ty rm u : Nat) (p : Option PReg) (a : VReg) : VOut :=
  let w := etWidth ty
  let n := lanes w
  let xs := (List.range n).map fun i => if active p w i then some (elem w i a) else none
  match fmtOf ty with
  | some f =>
    let ins := xs.map (Option.map (decodeNum f))
    let vs := ins.map (Option.map fun v => if op = .ramax then v.abs else v)
    let node (_ : Nat) (x y : Num) : Num × Fl :=
      match op with
      | .rsum => addFp32 x y
      | .rmin => (Num.min x y, 0)
      | _ => (Num.max x y, 0)
    let t := pairTree node n 1 vs
    let bad := nanRule ins
    let root : Num := if bad then .nan else t.1.getD (match op with
      | .rmax => .inf true
      | .rmin => .inf false
      | _ => .fin false 0 1)
    let q := roundTo f root rm false u
    ⟨BitVec.ofNat 2048 q.1, t.2 ||| q.2, elemNum ty q.1 :: (List.range (n - 1)).map fun _ => .fin false 0 1⟩
  | none =>
    let vs := xs.map (Option.map fun b => toSigned w b)
    let node (_ : Nat) (x y : Int) : Int × Fl :=
      match op with
      | .rsum => (toSigned 32 (wrapN 32 (x + y)), 0)
      | .rmin => (if y < x then y else x, 0)
      | _ => (if x < y then y else x, 0)
    let vs := if op = .ramax then vs.map (Option.map fun (i : Int) => (i.natAbs : Int)) else vs
    let root := (pairTree node n 1 vs).1.getD (match op with
      | .rmax => -(2 ^ 31 : Nat)
      | .rmin => (2 ^ 31 : Nat) - 1
      | _ => 0)
    ⟨BitVec.ofNat 2048 (wrapN 32 root), 0, [elemNum 5 (wrapN 32 root)]⟩

/-- vscan (R131): the running value in FP32 or INT32, in ascending element order. -/
def scanGo (ty rm : Nat) (us : Nat → Nat) (p : Option PReg) (a : VReg) (w : Nat) : Nat → Nat → Option Nat → List Nat × Fl
  | 0, _, _ => ([], 0)
  | k + 1, i, r =>
    let x := elem w i a
    let step : Option Nat × Fl :=
      if !active p w i then (r, 0)
      else match fmtOf ty with
        | none => (some (match r with
          | none => x
          | some y => (x + y) % 2 ^ 32), 0)
        | some f => match r with
          | none => let q := roundTo .fp32 (decodeNum f x) 0 false 0; (some q.1, q.2)
          | some y =>
            let s := Num.add false (decodeNum .fp32 y) (decodeNum f x)
            let q := roundTo .fp32 s.1 0 false 0
            (some q.1, s.2 ||| q.2)
    let out : Nat × Fl := match step.1 with
      | none => (0, 0)
      | some y => match fmtOf ty with
        | none => (y, 0)
        | some f => roundTo f (decodeNum .fp32 y) rm false (us i)
    let rest := scanGo ty rm us p a w k (i + 1) step.1
    (out.1 :: rest.1, step.2 ||| out.2 ||| rest.2)

/-- vcvt (R126 to R128): `ets` to `etd`. -/
def convert (ets etd rm : Nat) (sat : Bool) (us : Nat → Nat) (p : Option PReg) (a d : VReg) (stream : Bool) : VOut :=
  let ws := etWidth ets
  let wd := etWidth etd
  if isMxEt etd then
    let n := lanes ws
    let xs := (List.range n).map fun i => elemNum ets (elem ws i a)
    let blocks := (List.range (n / 32)).map fun b => toMx etd ((xs.drop (32 * b)).take 32) rm ((range2 (32 * b) 32).map us)
    let body := packN wd (blocks.flatMap fun b => b.2.1)
    let scales := packN 8 (blocks.map (·.1))
    ⟨BitVec.ofNat 2048 (body + scales * 2 ^ (8 * 248)), blocks.foldl (fun f b => f ||| b.2.2) 0,
     blocks.flatMap fun b => b.2.1.map fun e => mxNum etd b.1 e⟩
  else if isMxEt ets then
    let n := lanes wd
    writeLanes wd n etd p d stream fun i =>
      toElem etd (mxNum ets (elem 8 (248 + i / 32) a) (elem ws i a)) rm sat (us i)
  else
    let wm := max ws wd
    let n := lanes wm
    let rs := (List.range n).map fun i =>
      if active p wm i then
        let r := if ets = 14 then
            let t := ternNum (elem 2 i a)
            let q := toElem etd t.1 rm sat (us i)
            (q.1, q.2 ||| t.2)
          else convElem ets etd (elem ws i a) rm sat (us i)
        (r.1, r.2, true)
      else (if stream then 0 else elem wd i d, 0, false)
    ⟨fromElems wd (rs.map (·.1)), rs.foldl (fun fl r => fl ||| r.2.1) 0,
     (rs.filter fun r => r.2.2).map fun r => elemNum etd r.1⟩

/-- vrint of one element (R129). -/
def rintElem (f : Fmt) (a rm u : Nat) : Nat :=
  match decodeNum f a with
  | .nan => f.cnan
  | .inf _ => a
  | .fin s n d =>
    if 2 ^ f.m * d ≤ n then a
    else (roundTo f (.fin s (roundInt s n d rm u).natAbs 1) 0 false 0).1

/-- vcmp of one element (R132): the CC codes of R56. -/
def compareElem (cc ty a b : Nat) : Bool :=
  match fmtOf ty with
  | some f =>
    let x := decodeNum f a
    let y := decodeNum f b
    let nan := x.isNan || y.isNan
    let lt := x.below y && !x.same y
    let gt := y.below x && !x.same y
    match cc with
    | 0 => x.same y
    | 1 => !x.same y
    | 2 => lt
    | 3 => !nan && !gt
    | 4 => gt
    | 5 => !nan && !lt
    | 6 => nan
    | _ => !nan
  | none =>
    let x := toSigned (etWidth ty) a
    let y := toSigned (etWidth ty) b
    match cc with
    | 0 => x == y
    | 1 => x != y
    | 2 => decide (x < y)
    | 3 => decide (x ≤ y)
    | 4 => decide (y < x)
    | _ => decide (y ≤ x)

/-- A predicate from the activity of its elements: every bit of an active element's byte lanes (R132, R134). -/
def predOf (w n : Nat) (f : Nat → Bool) : PReg :=
  BitVec.ofNat 256 (packN (w / 8) ((List.range n).map fun i => if f i then 2 ^ (w / 8) - 1 else 0))

/-- plog (R133): bit j of the result is bit 4a + 2b + c of the table. -/
def plogBits (tt : Nat) (a b c : PReg) : PReg :=
  let m (k : Nat) : PReg :=
    if tt.testBit k then
      (if k.testBit 2 then a else ~~~a) &&& (if k.testBit 1 then b else ~~~b) &&& (if k.testBit 0 then c else ~~~c)
    else 0
  (List.range 8).foldl (fun acc k => acc ||| m k) 0

/-- The operands a command has read. -/
structure VIn where
  a : VReg
  b : VReg
  d : VReg
  /-- governing predicate; none makes every element active -/
  p : Option PReg
  pa : PReg
  pb : PReg
  pc : PReg
  pd : PReg
  /-- VD is a stream -/
  stream : Bool
  /-- random bits of element i (R89) -/
  us : List Nat

/-- The element-wise operations that write VD. -/
def computeV (op : VOp) (ty etd rm : Nat) (sat : Bool) (imm : Int) (fn : Nat) (sx : Word) (i : VIn) : VOut :=
  let w := op.width ty
  let n := lanes w
  let us (k : Nat) : Nat := i.us.getD k 0
  let scalar := bits sx (etWidth ty - 1) 0
  match op with
  | .sel =>
    writeLanes w n ty none i.d i.stream fun k => ((if active i.p w k then elem w k i.a else elem w k i.b), 0)
  | .dot2 | .dot4 => writeLanes 32 64 (op.resultTy ty) i.p i.d i.stream fun k => dotElem op ty k i.a i.b (elem 32 k i.d) rm (us k)
  | .perm | .rev | .zip | .unzip | .trn | .slide | .rotl | .bcl =>
    writeLanes w n ty i.p i.d i.stream fun k =>
      (match permIndex op n k (elem w k i.b) imm with
       | some (false, j) => elem w j i.a
       | some (true, j) => elem w j i.b
       | none => 0, 0)
  | .rsum | .rmax | .rmin | .ramax => reduce op ty rm (us 0) i.p i.a
  | .scan =>
    let r := scanGo ty rm us i.p i.a w n 0 none
    ⟨fromElems w r.1, r.2, ((r.1.zipIdx).filter fun e => active i.p w e.2).map fun e => elemNum ty e.1⟩
  | .cvt => convert ty etd rm sat us i.p i.a i.d i.stream
  | .rint => match fmtOf ty with
    | some f => writeLanes w n ty i.p i.d i.stream fun k => (rintElem f (elem w k i.a) rm (us k), 0)
    | none => ⟨i.d, 0, []⟩
  | .addx | .subx | .mulx | .fmax | .minx | .maxx | .bcast =>
    writeLanes w n ty i.p i.d i.stream fun k =>
      elemResult op ty (elem w k i.a) scalar (elem w k i.d) rm (us k) imm 0 fn
  | _ =>
    writeLanes w n ty i.p i.d i.stream fun k =>
      elemResult op ty (elem w k i.a) (elem w k i.b) (elem w k i.d) rm (us k) imm (toSigned 64 sx.toNat) fn

/-- The operations that write a predicate (R132 to R134). -/
def computeP (op : VOp) (ty fn : Nat) (sx sy : Word) (i : VIn) : Option PReg :=
  let w := etWidth ty
  let n := lanes w
  match op with
  | .cmp => some (predOf w n fun k => active i.p w k && compareElem fn ty (elem w k i.a) (elem w k i.b))
  | .plog => some (plogBits fn i.pa i.pb i.pc)
  | .pfromx =>
    some (predOf w n fun k => if fn = 0 then decide (k < min sx.toNat n) else decide (k < 64) && bitAt sx k)
  | .pwhile => some (predOf w n fun k => decide (sx.toNat + k < sy.toNat))
  | _ => none

/-- The operations that write a scalar register (R134). -/
def computeX (op : VOp) (ty fn : Nat) (i : VIn) : Option Word :=
  let w := etWidth ty
  let n := lanes w
  let on := (List.range n).filter fun k => active (some i.pd) w k
  match op with
  | .pcnt => some (w64 on.length)
  | .pfirst => some (w64 ((if fn = 0 then on.head? else on.getLast?).getD n))
  | .ptox =>
    some (w64 (packN 1 ((List.range 64).map fun j =>
      if 64 * fn + j < n && active (some i.pd) w (64 * fn + j) then 1 else 0)))
  | _ => none

/-- The max-magnitude register with a value offered to it (R220). -/
def mmOffer (mm : Nat) (v : Num) : Nat :=
  if v.isNan || mm == 0x7FC00000 then 0x7FC00000
  else max mm (roundTo .fp32 v.abs 3 false 0).1

end Sys2Proof.Machine
end

