-- ==== Sys2Proof/Machine/Mem.lean ====
section
/-!
DEFINITION. Machine/Mem.lean: accessors of the state's tables, memory in its canonical form, address windows
(R37, R38), translation (R334 to R337), the directory and the memory-model exception (R186 to R193), and the
semaphore store (R40, R41, R198).
-/

namespace Sys2Proof.Machine

/-! ### Accessors -/

def State.bank (s : State) (bk : Nat) : Bank := SMap.get Bank.reset s.banks bk
def State.setBank (s : State) (bk : Nat) (b : Bank) : State := { s with banks := SMap.put s.banks bk b }
def State.modBank (s : State) (bk : Nat) (f : Bank → Bank) : State := s.setBank bk (f (s.bank bk))

def State.core (s : State) (ck : Nat) : Core := SMap.get Core.reset s.cores ck
def State.setCore (s : State) (ck : Nat) (c : Core) : State := { s with cores := SMap.put s.cores ck c }
def State.modCore (s : State) (ck : Nat) (f : Core → Core) : State := s.setCore ck (f (s.core ck))

def State.ctx (s : State) (c : Nat) : Ctx := SMap.get Ctx.reset s.ctxs c
def State.setCtx (s : State) (c : Nat) (x : Ctx) : State := { s with ctxs := SMap.put s.ctxs c x }
def State.modCtx (s : State) (c : Nat) (f : Ctx → Ctx) : State := s.setCtx c (f (s.ctx c))

def State.task (s : State) (u : Nat) : Option Task := SMap.find s.tasks u
def State.setTask (s : State) (u : Nat) (t : Task) : State := { s with tasks := SMap.put s.tasks u t }
def State.modTask (s : State) (u : Nat) (f : Task → Task) : State :=
  match s.task u with
  | some t => s.setTask u (f t)
  | none => s

/-- The launch that a record belongs to (R253). -/
def State.launchOf (s : State) (t : Task) : Option Launch := SMap.find (s.ctx t.ctx).launches t.lslot
def State.modLaunch (s : State) (c slot : Nat) (f : Launch → Launch) : State :=
  match SMap.find (s.ctx c).launches slot with
  | some l => s.modCtx c fun x => { x with launches := SMap.put x.launches slot (f l) }
  | none => s

/-- Bank key of a core key and bank number; its core key and bank number. -/
def bankKey (core bank : Nat) : Nat := 2 * core + bank % 2
def keyCore (bk : Nat) : Nat := bk / 2
def keyBank (bk : Nat) : Nat := bk % 2

/-- Partition and logical core of a core key. -/
def keyPart (ck : Nat) : Nat := ck / 64
def keyL (ck : Nat) : Nat := ck % 64

/-- Schedule ticks since reset (R10, R243). -/
def State.tick (s : State) : Nat := s.cycle / 1024

/-- Number of partitions (R401 PARTCFG) and the size of one partition's logical memory (R320). -/
def State.parts (s : State) : Nat :=
  match s.modl.partcfg.toNat with
  | 0 => 1
  | 1 => 2
  | _ => 4
def State.memSize (s : State) : Nat := 768 * 2 ^ 30 / s.parts

/-- A scalar register of a bank; x0 reads as zero (R28). -/
def Bank.rx (b : Bank) (r : Nat) : Word := if r = 0 then 0 else SMap.get 0 b.x r
/-- A write to x0 is discarded. -/
def Bank.wx (b : Bank) (r : Nat) (v : Word) : Bank := if r = 0 then b else { b with x := SMap.set 0 b.x r v }

def State.rx (s : State) (bk : Nat) (r : BitVec 5) : Word := (s.bank bk).rx r.toNat
def State.wx (s : State) (bk : Nat) (r : BitVec 5) (v : Word) : State := s.modBank bk (·.wx r.toNat v)

/-- Signalling an MSI-X vector (R397). -/
def State.signal (s : State) (v : Nat) : State := { s with msix := s.msix ++ [v] }

/-! ### Memory -/

/-- What an address that memory does not list reads as (assumption log 3). -/
def Memory.unlisted : Byte := 0

/-- The byte at a location. -/
def Memory.read (m : List Host.Cell) (a : Nat) : Byte := SMap.get Memory.unlisted m a

/-- Writing a byte; the canonical form is kept. -/
def Memory.write (m : List Host.Cell) (a : Nat) (b : Byte) : List Host.Cell := SMap.set Memory.unlisted m a b

/-- The canonical form: addresses rise and no listed byte equals what an unlisted address reads as. -/
def Memory.wf (m : List Host.Cell) : Bool := SMap.wf Memory.unlisted m

/-- Bytes written upwards from an address. -/
def Memory.writeList (m : List Host.Cell) (a : Nat) : List Byte → List Host.Cell
  | [] => m
  | b :: bs => Memory.writeList (Memory.write m a b) (a + 1) bs

/-- Bytes read upwards from an address. -/
def Memory.readList (m : List Host.Cell) (a n : Nat) : List Byte := (List.range n).map fun i => Memory.read m (a + i)

/-- The cells of memory in a span of locations, and memory without them. -/
def cellsIn (m : List Host.Cell) (a n : Nat) : List Host.Cell := m.filter fun e => decide (a ≤ e.1) && decide (e.1 < a + n)
def cellsOut (m : List Host.Cell) (a n : Nat) : List Host.Cell := SMap.erase m fun k => decide (a ≤ k) && decide (k < a + n)

/-- The bytes of a span copied to another of the same size, in order of their locations. -/
def Memory.copySpan (m : List Host.Cell) (src dst n : Nat) : List Host.Cell :=
  (m.filter fun e => decide (e.1 < dst)) ++ ((cellsIn m src n).map fun e => (e.1 - src + dst, e.2))
    ++ m.filter fun e => decide (dst + n ≤ e.1)

/-- First location of each space of State.mem. -/
def memLoc (part a : Nat) : Nat := part * 2 ^ 40 + a
def hostLoc (a : Nat) : Nat := 2 ^ 64 + a
def spadLoc (ck off : Nat) : Nat := 2 ^ 65 + ck * 2 ^ 23 + off
def imemLoc (ck off : Nat) : Nat := 2 ^ 66 + ck * 2 ^ 18 + off
def microLoc (ck off : Nat) : Nat := 2 ^ 67 + ck * 2 ^ 15 + off
/-- A byte of a pinned-slice page in the slice that is its home (R39). -/
def sliceLoc (part hid a : Nat) : Nat := 2 ^ 68 + (32 * part + hid) * 2 ^ 40 + a

/-- The logical memory bank of a logical memory address (R22). -/
def logicalBank (a : Nat) : Nat := bitsN a 15 8 ^^^ bitsN a 23 16 ^^^ bitsN a 31 24 ^^^ bitsN a 39 32

/-- The sector of a location (R178). -/
def sectorOf (loc : Nat) : Nat := loc / 32

def State.readLoc (s : State) (loc n : Nat) : Nat := leVal (Memory.readList s.mem loc n)

/-- Bytes written at a location. A write to a sector ends the LR reservations on it (R197); a sector written whole holds no
uncorrectable error any more. -/
def State.writeLoc (s : State) (loc : Nat) (bs : List Byte) : State :=
  { s with
    mem := Memory.writeList s.mem loc bs
    bad := s.bad.filter fun x => !(decide (loc ≤ 32 * x) && decide (32 * x + 32 ≤ loc + bs.length))
    resv := s.resv.filter fun r => !(decide (sectorOf loc ≤ r.2) && decide (r.2 ≤ sectorOf (loc + bs.length - 1))) }

/-! ### What an instruction can end in -/

/-- Access kinds (R340 KIND). -/
inductive Access
  | read | write | atomic
deriving DecidableEq, Repr

def Access.code : Access → Nat
  | .read => 0
  | .write => 1
  | .atomic => 2

/-- A translation fault (R336, R340). -/
structure PageStop where
  va : Word
  cause : Nat
  level : Nat
  pte : Word
  /-- first address of the page of R340 -/
  page : Nat
  kind : Access
  /-- logical memory bank of the entry read last, or of the byte behind a leaf; none where no memory bank is concerned (R22, R23) -/
  bank : Option Nat
deriving DecidableEq, Repr

/-- How an operation ends when it does not complete: a precise trap; a trap of R60 with its NTDET reason and field; a
page fault; a wait of R199, with no effect or with the effect so far; a stall on a queue or a pending result (R33). -/
inductive Stop
  | trap (cause : Nat) (tval : Word)
  | bad (cause reason field : Nat)
  | page (f : PageStop)
  | wait (c : WaitCond)
  | block (s : State) (c : WaitCond)
  /-- the fault of a stopped stream (R219): taking the trap clears STOP -/
  | streamStop (sn cause : Nat) (tval : Word)
  | stall
deriving Repr

/-- An illegal operand (R60) with its reason and field. -/
def badOp (reason field : Nat) : Stop := .bad 24 reason field

/-- A check that stops the instruction where `ok` does not hold. -/
def need (ok : Bool) (e : Stop) : Except Stop Unit := if ok then .ok () else .error e

/-! ### Agents and windows -/

/-- Who performs an access: a bank's control core, or an engine acting for a task (R182). -/
structure Agent where
  bk : Nat
  key : Nat
  uid : Nat
  ctx : Nat
  frame : Word
  framesz : Nat
  engine : Bool
deriving DecidableEq, Repr

/-- The agent that acts for a task on a bank. -/
def State.agentFor (s : State) (bk uid : Nat) (engine : Bool) : Agent :=
  match s.task uid with
  | none => ⟨bk, keyCore bk, uid, 64, 0, 0, engine⟩
  | some t => ⟨bk, keyCore bk, uid, t.ctx, t.frame, ((s.launchOf t).map (·.framesz)).getD 0, engine⟩

/-- The control core of a bank. -/
def State.agent (s : State) (bk : Nat) : Agent := s.agentFor bk ((s.bank bk).uid.getD 0) false

/-- The context of a bank's task; 64, a context that owns nothing, where it holds none. -/
def State.ctxOf (s : State) (bk : Nat) : Nat := (s.agent bk).ctx

/-- Logical core L lies in the core grant of context c (R321). -/
def State.granted (s : State) (c l : Nat) : Bool := bitAt (s.ctx c).cgrant l

/-- Where a generic address leads before translation: a global address, or an offset in a core's scratchpad. -/
inductive Target
  | glob (a : Nat)
  | spad (key off : Nat)
deriving DecidableEq, Repr

/-- Window decoding (R37, R38, R328 code 25), before the foreign-scratchpad check: the window code of R56 and the
target; none raises the address-window fault. FRAME plus an offset that passes 57 bits wraps (DESIGN CHOICE: log 49). -/
def parseWindow (s : State) (ag : Agent) (va : Word) : Option (Nat × Target) :=
  match bits va 63 60 with
  | 0 => if bits va 59 57 = 0 then some (0, .glob (bits va 56 0)) else none
  | 0xC =>
    let l := 16 * (keyL ag.key / 16) + bits va 56 53
    if bits va 59 57 = 0 && bits va 52 23 = 0 && s.granted ag.ctx l then
      some (1, .spad (64 * keyPart ag.key + l) (bits va 22 0))
    else none
  | 0xD => if bits va 53 23 = 0 then some (2, .spad (64 * keyPart ag.key + bits va 59 54) (bits va 22 0)) else none
  | 0xE =>
    if bits va 59 40 = 0 && decide (bits va 39 0 < ag.framesz) then
      some (3, .glob ((ag.frame.toNat + bits va 39 0) % 2 ^ 57))
    else none
  | _ => none

/-- Window and foreign-scratchpad checks (R37, R38). -/
def window (s : State) (ag : Agent) (va : Word) : Except Stop Target :=
  match parseWindow s ag va with
  | none => .error (.trap 25 va)
  | some (w, t) =>
    match t with
    | .spad key _ => if w = 2 && key != ag.key then .error (.trap 26 va) else .ok t
    | .glob _ => .ok t

/-! ### Translation -/

/-- A translated location: where its byte lies, whether L1 and the directory know its sector (R39, R187), and the
logical core whose scratchpad holds it. -/
structure Place where
  loc : Nat
  cached : Bool
  core : Option Nat
deriving DecidableEq, Repr

/-- Lowest index bit and entries' index width of a level (R335); the span of an entry is 2 to the lowest bit. -/
def levelShift : Nat → Nat
  | 0 => 16
  | l => 12 + 9 * l
def levelIndex (l a : Nat) : Nat := (a >>> levelShift l) % (if l = 0 then 32 else 512)

/-- The causes 0x01, 0x04 and 0x05 of an entry and, at a leaf, 0x03 and 0x02 (R336); 0 where none holds. -/
def pteCause (s : State) (ctx level : Nat) (e : Word) (k : Access) : Nat :=
  let leaf := bitAt e 1
  let pa := bits e 55 16 * 2 ^ 16
  let home := bits e 6 5
  let hid := bits e 13 8
  let sys := bitAt e 7
  if !bitAt e 0 then 0x01
  else if bits e 63 56 != 0 || bits e 15 14 != 0 || bitAt e 4
      || (leaf && bitAt e 3 && !bitAt e 2) || (leaf && decide (3 ≤ level)) || (!leaf && level == 0)
      || (decide (2 ≤ home) && sys) || (hid != 0 && decide (home < 2)) || (!leaf && sys)
      || (leaf && pa % 2 ^ levelShift level != 0)
      || (leaf && home == 3 && (level == 2 || decide (2 ^ 23 ≤ pa))) then 0x04
  else if (!sys && !(leaf && home == 3) && decide (s.memSize ≤ pa))
      || (leaf && home == 2 && decide (32 / s.parts ≤ hid))
      || (leaf && home == 3 && !s.granted ctx hid) then 0x05
  else if leaf && k == .read && !bitAt e 2 then 0x03
  else if leaf && k != .read && !bitAt e 3 then 0x02
  else 0

/-- The logical memory address that a leaf gives an address. -/
def leafByte (e : Word) (l a : Nat) : Nat := bits e 55 16 * 2 ^ 16 + a % 2 ^ levelShift l

/-- The logical memory bank of the byte behind a leaf: a CXL host address and a byte of a scratchpad belong to none (R22). -/
def leafBank (e : Word) (l a : Nat) : Option Nat :=
  if bitAt e 7 || bits e 6 5 == 3 then none else some (logicalBank (leafByte e l a))

/-- The walk from a table downwards (R335, R336): the leaf and its level. -/
def walk (s : State) (part ctx : Nat) (k : Access) (va : Word) (a : Nat) : List Nat → Nat → Except PageStop (Word × Nat)
  | [], _ => .error ⟨va, 0x01, 0, 0, a, k, none⟩
  | l :: ls, table =>
    let ea := memLoc part (table + 8 * levelIndex l a)
    let page := a / 2 ^ levelShift l * 2 ^ levelShift l
    if s.bad.contains (sectorOf ea) then .error ⟨va, 0x06, l, 0, page, k, some (logicalBank (table + 8 * levelIndex l a))⟩
    else
      let e := w64 (s.readLoc ea 8)
      let c := pteCause s ctx l e k
      if c != 0 then
        .error ⟨va, c, l, e, page, k, if c = 2 || c = 3 then leafBank e l a else some (logicalBank (table + 8 * levelIndex l a))⟩
      else if bitAt e 1 then .ok (e, l)
      else walk s part ctx k va a ls (bits e 55 16 * 2 ^ 16)

/-- The place that a leaf gives an address (R336, R39): the scratchpad of a core, a slice, or HBM or host memory. -/
def leafPlace (part : Nat) (e : Word) (level a : Nat) : Place :=
  let off := a % 2 ^ levelShift level
  let pa := bits e 55 16 * 2 ^ 16
  match bits e 6 5 with
  | 3 => ⟨spadLoc (64 * part + bits e 13 8) (bits e 22 16 * 2 ^ 16 + off), false, some (64 * part + bits e 13 8)⟩
  | 2 => ⟨sliceLoc part (bits e 13 8) (pa + off), true, none⟩
  | h => ⟨if bitAt e 7 then hostLoc (pa + off) else memLoc part (pa + off), h != 1, none⟩

/-- The heap triple (R334). -/
def heapPlace (s : State) (ctx part a : Nat) : Option Place :=
  let x := s.ctx ctx
  if x.heapl != 0 && decide (x.heapb.toNat ≤ a) && decide (a < x.heapb.toNat + x.heapl.toNat) then
    some ⟨memLoc part ((a + x.heapo.toNat) % 2 ^ 40), true, none⟩
  else none

/-- Level of a cached leaf, by its page size. -/
def tlbLevel (e : TlbEntry) : Nat := if e.size = 2 ^ 16 then 0 else if e.size = 2 ^ 21 then 1 else 2

/-- Translation through page tables, past any TLB (R334 to R336): the leaf and its level. A root table beyond the partition's
memory is read nowhere: cause 0x05 (DESIGN CHOICE, assumption log 31). -/
def walkCtx (s : State) (ctx part : Nat) (k : Access) (va : Word) (a : Nat) : Except PageStop (Word × Nat) :=
  let x := s.ctx ctx
  if x.ptbr = 0 then .error ⟨va, 0x07, 4, 0, a / 2 ^ 16 * 2 ^ 16, k, none⟩
  else if s.memSize ≤ x.ptbr.toNat then .error ⟨va, 0x05, 4, 0, a / 2 ^ levelShift 4 * 2 ^ levelShift 4, k, none⟩
  else walk s part ctx k va a [4, 3, 2, 1, 0] x.ptbr.toNat

/-- Translation of a global address for a context, with no TLB: what the VX7 itself uses. -/
def xlatCtx (s : State) (ctx part : Nat) (k : Access) (va : Word) (a : Nat) : Except PageStop Place :=
  match heapPlace s ctx part a with
  | some p => .ok p
  | none =>
    match walkCtx s ctx part k va a with
    | .error f => .error f
    | .ok (e, l) => .ok (leafPlace part e l a)

/-- The entry of a TLB that covers an address of a context (R337). -/
def tlbFind (l : List TlbEntry) (ctx a : Nat) : Option TlbEntry :=
  l.find? fun t => t.ctx == ctx && a / t.size * t.size == t.page

/-- An entry goes into the L1 TLB of a core, of 256 entries (R337). -/
def State.listTlb (s : State) (ck : Nat) (t : TlbEntry) : State :=
  s.modCore ck fun c => { c with tlb := (t :: c.tlb).take 256 }

/-- An entry goes into the L2 TLB of a partition, of 32,768 entries (R337). -/
def State.listTlb2 (s : State) (part : Nat) (t : TlbEntry) : State :=
  { s with tlb2 := SMap.put s.tlb2 part ((t :: SMap.get [] s.tlb2 part).take 32768) }

/-- A translation by a listed entry (R336, R337). -/
def tlbPlace (s : State) (part ctx : Nat) (k : Access) (va : Word) (a : Nat) (t : TlbEntry) : Except PageStop Place :=
  let c := pteCause s ctx (tlbLevel t) t.pte k
  if c = 0 then .ok (leafPlace part t.pte (tlbLevel t) a) else .error ⟨va, c, tlbLevel t, t.pte, t.page, k, leafBank t.pte (tlbLevel t) a⟩

/-- Translation by a core with its TLBs (R337): an entry of its L1 TLB, else of the partition's L2 TLB, which then goes into the
L1 TLB, is used; otherwise the tables are walked and the valid leaf is listed in both. -/
def xlatCore (s : State) (ck ctx : Nat) (k : Access) (va : Word) (a : Nat) : Except PageStop (Place × State) :=
  let part := keyPart ck
  match heapPlace s ctx part a with
  | some p => .ok (p, s)
  | none =>
    match tlbFind (s.core ck).tlb ctx a with
    | some t =>
      match tlbPlace s part ctx k va a t with
      | .error f => .error f
      | .ok p => .ok (p, s)
    | none =>
      match tlbFind (SMap.get [] s.tlb2 part) ctx a with
      | some t =>
        match tlbPlace s part ctx k va a t with
        | .error f => .error f
        | .ok p => .ok (p, s.listTlb ck t)
      | none =>
        match walkCtx s ctx part k va a with
        | .error f => .error f
        | .ok (e, l) =>
          let t : TlbEntry := ⟨ctx, a / 2 ^ levelShift l * 2 ^ levelShift l, 2 ^ levelShift l, e⟩
          .ok (leafPlace part e l a, (s.listTlb ck t).listTlb2 part t)

/-! ### Directory -/

def State.l1Of (s : State) (ck sec : Nat) : Option L1St := SMap.find (s.core ck).l1 sec

/-- The lines of the L1 set of a sector that are held, in ascending order: 1,024 sets of lines of two sectors (R24). A line lies in
the set of its number modulo 1,024 (DESIGN CHOICE: log 5). -/
def Core.l1Lines (c : Core) (sec : Nat) : List Nat :=
  ((c.l1.filter fun e => e.1 / 2 % 1024 == sec / 2 % 1024).map fun e => e.1 / 2).eraseDups

/-- The L1 with room for the line of a sector: where the eight ways of its set hold other lines, the line under `pick` is evicted;
its dirty data are at the home, and its narrow records stay in the directory (R24, R187). -/
def Core.l1Room (c : Core) (sec pick : Nat) : SMap L1St :=
  let ls := c.l1Lines sec
  if ls.contains (sec / 2) || decide (ls.length < 8) then c.l1
  else
    let victim := ls.getD (pick % 8) 0
    SMap.erase c.l1 fun k => k / 2 == victim

/-- A sector enters the L1 of a core in a state, or changes its state there. The line that a full set evicts is
Config.l1Victim's choice (DESIGN CHOICE: log 5). -/
def State.setL1 (s : State) (ck sec : Nat) (v : L1St) : State :=
  s.modCore ck fun c => { c with l1 := SMap.put (c.l1Room sec (Config.l1Victim s.cycle)) sec v }
def State.dropL1 (s : State) (ck sec : Nat) : State := s.modCore ck fun c => { c with l1 := SMap.del c.l1 sec }

/-- Sectors leave the preload buffer, to be read again (R274, R338). -/
def dropStaged (p : Nat → Bool) (m : SMap Preloaded) : SMap Preloaded :=
  m.map fun e => (e.1, { e.2 with sectors := SMap.erase e.2.sectors p })

/-- A stale mark to every other core that holds the sector clean, and to every preload buffer that holds it (R274); the publishing core's dirty copy becomes clean
(R190). -/
def markL1 (own : Bool) (sec : Nat) (m : SMap L1St) : SMap L1St :=
  match SMap.find m sec with
  | none => m
  | some st =>
    SMap.put m sec (if own then (if st = .dirty then L1St.clean else st) else (if st = .clean then L1St.stale else st))
def markStale (ck sec : Nat) (e : Nat × Core) : Nat × Core :=
  (e.1, { e.2 with l1 := markL1 (e.1 == ck) sec e.2.l1, preload := dropStaged (· == sec) e.2.preload })

/-- Publication of a sector by a core (R190); a core key of 2^16 stands for an agent without an L1. -/
def State.publish (s : State) (ck sec : Nat) : State :=
  { s with dir := SMap.del s.dir sec, cores := s.cores.map (markStale ck sec) }

def State.publishAll (s : State) (ck : Nat) (secs : List Nat) : State := secs.foldl (fun s sec => s.publish ck sec) s

/-- The sectors of a span of locations. -/
def sectorsOf (loc n : Nat) : List Nat :=
  if n = 0 then [] else range2 (sectorOf loc) (sectorOf (loc + n - 1) + 1 - sectorOf loc)

/-- A narrow record that a release of the task on the core covers: its own tag, and no unacquired engine write
(R188). -/
def coversTag (uid ck : Nat) (n : Narrow) : Bool :=
  n.pend.isEmpty &&
  match n.tag with
  | .task u => u == uid
  | .core k => k == ck

/-- A release at a scope by a task (R188). -/
def State.release (s : State) (ag : Agent) (scope : Nat) : State :=
  match scope with
  | 0 => s
  | 1 =>
    { s with dir := s.dir.map fun e =>
        if e.2.tag = .task ag.uid && e.2.pend.isEmpty then (e.1, { e.2 with tag := .core ag.key }) else e }
  | _ => s.publishAll ag.key ((s.dir.filter fun e => coversTag ag.uid ag.key e.2).map (·.1))

/-- An acquire at a scope by a core (R189). -/
def State.acquire (s : State) (ck scope : Nat) : State :=
  if scope < 2 then s
  else s.modCore ck fun c => { c with l1 := c.l1.filter fun e => e.2 != .stale }

/-- The task has executed tail and its tracker entry has not freed (R191, R204). -/
def State.retiring (s : State) (u : Nat) : Bool :=
  match s.task u with
  | some t => t.st == .retiring
  | none => false

/-- The narrow condition of R191: whether the tag is foreign, and whether the access waits for a retirement instead. -/
def narrowStop (s : State) (ag : Agent) (sec : Nat) (cause : Nat) (va : Word) : Except Stop Unit :=
  match SMap.find s.dir sec with
  | none => .ok ()
  | some n =>
    match n.tag with
    | .task u => if u = ag.uid then .ok () else if s.retiring u then .error .stall else .error (.trap cause va)
    | .core k => if k = ag.key then .ok () else .error (.trap cause va)

/-- The memory-model exception (R191). `home` marks an access performed at the home: ldacq, strel, AMO, LR, SC of the
control core. -/
def mmxCheck (s : State) (ag : Agent) (p : Place) (home : Bool) (va : Word) : Except Stop Unit :=
  if !p.cached then .ok ()
  else
    let sec := sectorOf p.loc
    let stale := s.l1Of ag.key sec == some .stale
    if ag.engine then (if stale then .error (.trap 30 va) else narrowStop s ag sec 30 va)
    else if stale && !home then .error (.trap 28 va)
    else narrowStop s ag sec 29 va

/-- The place lies in an HBM stack that is refreshing: an access to it waits (R390). -/
def State.refreshed (s : State) (p : Place) : Bool :=
  s.hbm.any (·.2.refreshing) && decide (p.loc < 2 ^ 64)
  && (SMap.get StackSt.reset s.hbm (Config.stackOf (p.loc / 2 ^ 40) (logicalBank (p.loc % 2 ^ 40)))).refreshing

/-- A walk from a table downwards reads an entry in a stack that is refreshing: it waits there (R390). -/
def walkRefreshed (s : State) (part ctx : Nat) (k : Access) (a : Nat) : List Nat → Nat → Bool
  | [], _ => false
  | l :: ls, table =>
    let ea := memLoc part (table + 8 * levelIndex l a)
    let e := w64 (s.readLoc ea 8)
    s.refreshed ⟨ea, true, none⟩
    || (!(s.bad.contains (sectorOf ea)) && pteCause s ctx l e k == 0 && !(bitAt e 1)
        && walkRefreshed s part ctx k a ls (bits e 55 16 * 2 ^ 16))

/-- The translation of an address by a core reads a page-table entry in a stack that is refreshing: neither the heap triple nor a
TLB entry covers it (R334, R337, R390). -/
def xlatRefreshed (s : State) (ck ctx : Nat) (k : Access) (a : Nat) : Bool :=
  s.hbm.any (·.2.refreshing) && (heapPlace s ctx (keyPart ck) a).isNone && (tlbFind (s.core ck).tlb ctx a).isNone
  && (tlbFind (SMap.get [] s.tlb2 (keyPart ck)) ctx a).isNone && (s.ctx ctx).ptbr != 0
  && decide ((s.ctx ctx).ptbr.toNat < s.memSize)
  && walkRefreshed s (keyPart ck) ctx k a [4, 3, 2, 1, 0] (s.ctx ctx).ptbr.toNat

/-- A remote scratchpad or atomic whose target is gated or powered down is held until the target wakes
(R20, R344). -/
def reachable (s : State) (p : Place) : Except Stop Unit :=
  match p.core with
  | none => if s.refreshed p then .error .stall else .ok ()
  | some k =>
    let c := s.core k
    if c.gated || c.down || c.halted || c.moving.isSome then .error (.wait (.awake k)) else .ok ()

/-- A request of an engine to a gated core gets a gated response, which starts a wake (R344). -/
def State.askWake (s : State) : Stop → Option State
  | .wait (.awake k) =>
    if (s.core k).gated && !(s.core k).asked then some (s.modCore k fun c => { c with asked := true }) else none
  | _ => none

/-- An access of the control core that reaches CXL host memory, past L1 or at the home, and gets an error completion (R328
codes 5 and 7). -/
def hostCheck (s : State) (ag : Agent) (k : Access) (home : Bool) (p : Place) (va : Word) : Except Stop Unit :=
  if s.hostBad.contains (sectorOf p.loc) && !ag.engine && (home || !p.cached || (s.l1Of ag.key (sectorOf p.loc)).isNone) then
    .error (.trap (if k = .read then 5 else 7) va)
  else .ok ()

/-- The checks of one access in the order of R193: window, alignment, translation, MMX; then an error completion of
the host. What lies in a refreshing stack, a page-table entry or the data, is waited for (R390). -/
def access (s : State) (ag : Agent) (k : Access) (home : Bool) (misaligned : Nat) (va : Word) (n : Nat) :
    Except Stop (Place × State) := do
  let t ← window s ag va
  need (va.toNat % n == 0) (.trap misaligned va)
  match t with
  | .spad key off =>
    let p : Place := ⟨spadLoc key off, false, some key⟩
    reachable s p
    return (p, s)
  | .glob a =>
    need (!(xlatRefreshed s ag.key ag.ctx k a)) .stall
    match xlatCore s ag.key ag.ctx k va a with
    | .error f => throw (.page f)
    | .ok (p, s) =>
      reachable s p
      mmxCheck s ag p home va
      hostCheck s ag k home p va
      return (p, s)

/-- An L1 fill: a sector read through L1 is held clean (R186). -/
def State.fill (s : State) (ck : Nat) (p : Place) : State :=
  if !p.cached then s
  else match s.l1Of ck (sectorOf p.loc) with
    | some _ => s
    | none => s.setL1 ck (sectorOf p.loc) .clean

/-- The narrow record of a sector that a task writes without publishing it (R186, R187); an engine's write is listed
with its counter and number until the bank acquires it (R188). -/
def State.tagNarrow (s : State) (sec : Nat) (tag : Tag) (eng : Option (Nat × Nat × Nat)) : State :=
  let old := ((SMap.find s.dir sec).map (·.pend)).getD []
  let pend := match eng with
    | none => old
    | some e => if old.contains e then old else old ++ [e]
  { s with dir := SMap.put s.dir sec ⟨tag, pend⟩ }

/-- A store through L1 by the control core or the vector engine (R186). -/
def State.storeL1 (s : State) (ag : Agent) (p : Place) (bs : List Byte) (eng : Option (Nat × Nat × Nat)) : State :=
  let s := s.writeLoc p.loc bs
  if !p.cached then s
  else (s.tagNarrow (sectorOf p.loc) (.task ag.uid) eng).setL1 ag.key (sectorOf p.loc) .dirty

/-- A write at the home by an engine (R202, R203): each sector takes a narrow record of the task. The issuing core's own copy of the
sector, in whatever state, leaves its L1 (DEDUCED: log 54). -/
def State.storeHome (s : State) (ag : Agent) (p : Place) (bs : List Byte) (eng : Nat × Nat × Nat) : State :=
  let s := s.writeLoc p.loc bs
  if !p.cached then s
  else (sectorsOf p.loc bs.length).foldl (fun s sec => (s.tagNarrow sec (.task ag.uid) (some eng)).dropL1 ag.key sec) s

/-- A write at the home that is published at once: AMO, SC, strel at quadrant scope or above, and the VX7's own
writes. The writing core's own copy leaves its L1 (DEDUCED: log 54). -/
def State.storePublished (s : State) (ck : Nat) (p : Place) (bs : List Byte) : State :=
  let s := s.writeLoc p.loc bs
  if !p.cached then s
  else ((sectorsOf p.loc bs.length).foldl (fun s sec => (s.dropL1 ck sec).publish ck sec) s)

/-! ### The semaphore store -/

/-- The word a handle names in a context (R40, R323 SEM0 and SEM1): none for a one in [31:20]; the key of the word or
none for an index at or beyond the allocation. An allocation that runs past word 524,287 of the die wraps (DESIGN CHOICE: log 49). -/
def semKey (s : State) (ctx : Nat) (h : BitVec 32) : Option (Option Nat) :=
  if bits h 31 20 != 0 then none
  else
    let die := bits h 19 19
    let alloc := if die = 0 then (s.ctx ctx).sem0 else (s.ctx ctx).sem1
    let i := bits h 18 0
    if i < bits alloc 18 0 then some (some ((die * 2 ^ 19 + (bits alloc 50 32 + i) % 2 ^ 19))) else some none

/-- A handle passes R40. -/
def semOk (s : State) (ctx : Nat) (h : BitVec 32) : Bool :=
  match semKey s ctx h with
  | some (some _) => true
  | _ => false

/-- The word of a handle, or the trap of R198: reason 0x1A, or the semaphore-range fault. -/
def semWord (s : State) (ctx : Nat) (h : BitVec 32) (field : Nat) : Except Stop Nat :=
  match semKey s ctx h with
  | none => .error (badOp 0x1A field)
  | some none => .error (.trap 27 (h.setWidth 64))
  | some (some k) => .ok k

def State.semRead (s : State) (k : Nat) : Word := SMap.get 0 s.sem k

/-- A gated record whose join counter reads 0 becomes eligible, once (R254). -/
def ungate (k now : Nat) (key : Task → Option Nat) (e : Nat × Task) : Nat × Task :=
  if e.2.st = .gated && key e.2 == some k then
    (e.1, { e.2 with st := .eligible, since := now, reached := now, aged := 0, fresh := true })
  else e

/-- Writing a semaphore word (R41); reaching 0 makes the records it gates eligible (R254). -/
def State.semWrite (s : State) (k : Nat) (v : Word) : State :=
  let s' := { s with sem := SMap.set 0 s.sem k v }
  if v = 0 then
    { s' with tasks := s.tasks.map (ungate k s.cycle fun t => (semKey s t.ctx t.jh).join) }
  else s'

end Sys2Proof.Machine
end

