-- ==== Sys2Proof/Machine/Ops.lean ====
section
/-!
DEFINITION. Machine/Ops.lean: the operations that meanings share: how an instruction ends, timeline counters,
launch status words, error records, fault records, parking and waking, ending tasks, taking a trap and returning from
one.
-/

namespace Sys2Proof.Machine

abbrev Out := Host.Outcome State Fault Refusal

/-- The bank that performs instructions: State.curCore and State.curBank. -/
def State.me (s : State) : Nat := bankKey s.curCore s.curBank

/-! ### Where a core is served (R16, R18 to R21, R320) -/

/-- The physical quadrant of a core key. -/
def State.quadOf (s : State) (ck : Nat) : Nat :=
  let q := 4 / s.parts
  keyPart ck * q + (keyL ck / 16) % q

def State.quad (s : State) (q : Nat) : Quad := SMap.get Quad.reset s.quads q

/-- The clock of a quadrant is halved, whatever the number of causes (R282, R284, R403, R405). -/
def Quad.halved (q : Quad) : Bool := q.droop || q.thermal || q.power || q.stackHeat

/-- Half cycles of the core clock of a quadrant that have passed at a base-die cycle (R10, R17, R282). -/
def Quad.clockAt (q : Quad) (cycle : Nat) : Nat := q.clk2 + (cycle - q.clkAt) * (if q.halved then 1 else 2)

/-- A change of a quadrant; its clock is counted up to now at the rate it had. -/
def State.modQuad (s : State) (q : Nat) (f : Quad → Quad) : State :=
  { s with quads := SMap.put s.quads q (f { s.quad q with clk2 := (s.quad q).clockAt s.cycle, clkAt := s.cycle }) }

/-- 32nds of a cycle that a core has received until a half cycle of its quadrant's clock: σ of every 16 pulses (R10, R318). -/
def Core.clockAt (c : Core) (half : Nat) : Nat := c.clk32 + (half - c.clkAt) * c.sigma

/-- Cycles of the core clock (R10): what IDLE, PACE.GAP and stalls count. A pulse that slack throttling skips is no cycle (R318). -/
def State.coreClock (s : State) (ck : Nat) : Nat := (s.core ck).clockAt ((s.quad (s.quadOf ck)).clockAt s.cycle) / 32

/-- A core with another step σ; its clock is counted up to now at the rate it had. -/
def State.setSigma (s : State) (ck sigma : Nat) : State :=
  let half := (s.quad (s.quadOf ck)).clockAt s.cycle
  s.modCore ck fun c => { c with sigma := sigma, clk32 := c.clockAt half, clkAt := half }

/-- A unit of a core has marked or completed a command (R366). -/
def State.stampMark (s : State) (ck eng : Nat) : State := s.modCore ck fun c => { c with marks := SMap.del c.marks eng }

/-- What a core keeps when all its state goes: what the cox and its clock know of it. -/
def Core.kept (c : Core) : Core :=
  { Core.reset with halted := c.halted, allow := c.allow, rotateTick := c.rotateTick, sigma := c.sigma, clk32 := c.clk32, clkAt := c.clkAt }

/-- The physical core that serves a core key; 72 where it is multiplexed and has no slice now. Unlisted entries follow the order
of R380. -/
def State.physOf (s : State) (ck : Nat) : Nat :=
  let i := keyL ck / 16 / (4 / s.parts) * 16 + keyL ck % 16
  SMap.get (if i < 18 then 18 * s.quadOf ck + i else 72) s.lmap ck

/-- A physical core serves the logical core. -/
def State.served (s : State) (ck : Nat) : Bool := decide (s.physOf ck < 72)

/-- The partition of a quadrant without a serviceable core has stopped (R379). -/
def State.partStopped (s : State) (part : Nat) : Bool :=
  let n := 4 / s.parts
  (range2 (part * n) n).any fun q => (range2 (18 * q) 18).all fun p => (SMap.get Phys.reset s.phys p).quarantined

/-- The units of a core are at work: it is served and has power (R343, R360, R380), and its partition has not stopped (R379). -/
def State.works (s : State) (ck : Nat) : Bool :=
  let c := s.core ck
  !(c.gated || c.down || c.halted || c.moving.isSome) && s.served ck && !s.partStopped (keyPart ck)

/-! ### The bank state of a task -/

/-- The bank state that a task's commands act on: its bank while it is resident, what it left there while it retires
(R258), its image while it is away (R271). -/
def State.home (s : State) (bk uid : Nat) : Option Bank :=
  if (s.bank bk).uid = some uid then some (s.bank bk)
  else match (s.core (keyCore bk)).tracker.find? fun t => t.uid == uid with
    | some t => some t.left
    | none => ((s.task uid).bind (·.image)).map (·.bank)

/-- A change of that state. -/
def State.modHome (s : State) (bk uid : Nat) (f : Bank → Bank) : State :=
  if (s.bank bk).uid = some uid then s.modBank bk f
  else if (s.core (keyCore bk)).tracker.any fun t => t.uid == uid then
    s.modCore (keyCore bk) fun c =>
      { c with tracker := c.tracker.map fun t => if t.uid = uid then { t with left := f t.left } else t }
  else s.modTask uid fun t => { t with image := t.image.map fun im => { im with bank := f im.bank } }

/-- The task is on its bank or retires there: its vector and matrix commands proceed (R272). -/
def State.resident (s : State) (bk uid : Nat) : Bool :=
  ((s.bank bk).uid == some uid && (s.bank bk).st != .restoring) || (s.core (keyCore bk)).tracker.any fun t => t.uid == uid

/-- The tasks whose instructions or commands a core holds: those of its banks, its queues and its tracker. -/
def State.taskUids (s : State) (ck : Nat) : List Nat :=
  let c := s.core ck
  ((s.bank (2 * ck)).uid.toList ++ (s.bank (2 * ck + 1)).uid.toList ++ c.vq.map (·.uid) ++ c.mq.map (·.uid)
    ++ c.cq.flatMap (fun e => e.2.map (·.uid)) ++ c.kq.map (·.uid) ++ c.tracker.map (·.uid)).eraseDups

/-- A physical core serves the tasks of a logical core from now on (R373). -/
def State.servedBy (s : State) (ck p : Nat) : State :=
  if 72 ≤ p then s
  else (s.taskUids ck).foldl (fun s u => s.modTask u fun t => { t with phys := if t.phys.contains p then t.phys else t.phys ++ [p] }) s

/-! ### Timeline counters (R36) -/

def Bank.timeline (b : Bank) (k : Nat) : Timeline := SMap.get Timeline.reset b.tl k

/-- The number the next command on a counter takes. -/
def Bank.tlNext (b : Bank) (k : Nat) : Nat := (b.timeline k).last + 1

/-- Giving out the next number of a counter. -/
def Bank.tlGive (b : Bank) (k : Nat) : Bank :=
  { b with tl := SMap.put b.tl k { b.timeline k with last := b.tlNext k } }

/-- The counter passes every number whose predecessors have completed. -/
def Timeline.settle : Nat → Timeline → Timeline
  | 0, t => t
  | n + 1, t => if t.done.contains (t.val + 1) then
      Timeline.settle n { t with val := t.val + 1, done := t.done.filter (· != t.val + 1) } else t

/-- Command number `n` has completed. -/
def Timeline.complete (t : Timeline) (n : Nat) : Timeline :=
  if n ≤ t.val || t.done.contains n then t
  else Timeline.settle (t.done.length + 1) { t with done := n :: t.done }

def Bank.tlDone (b : Bank) (k n : Nat) : Bank := { b with tl := SMap.put b.tl k ((b.timeline k).complete n) }

def State.tlDone (s : State) (bk k n : Nat) : State := s.modBank bk fun b => b.tlDone k n

/-! ### Launches and their status words (R249) -/

/-- The status word of a launch. -/
def State.statusKey (s : State) (ctx : Nat) (l : Launch) : Option Nat := (semKey s ctx l.ctrl).join

/-- LIVE rises by one at a spawn (R249). -/
def State.liveUp (s : State) (ctx slot : Nat) : State :=
  match (SMap.find (s.ctx ctx).launches slot).bind (s.statusKey ctx) with
  | none => s
  | some k => s.semWrite k (s.semRead k + 1)

/-- LIVE falls by `n`; DONE is set and the launch slot freed in the step in which it reaches 0 (R249). -/
def State.liveDown (s : State) (ctx slot n : Nat) : State :=
  match SMap.find (s.ctx ctx).launches slot with
  | none => s
  | some l =>
    match s.statusKey ctx l with
    | none => s
    | some k =>
      let w := s.semRead k
      let live := bits w 47 0 - n
      let s := s.semWrite k (w64 ((if live = 0 then 2 ^ 63 else 0) + bits w 62 48 * 2 ^ 48 + live))
      if live = 0 then s.modCtx ctx fun c => { c with launches := SMap.del c.launches slot, past := (slot, l) :: c.past } else s

/-- Setting ERR of the status word; `onlyFirst` keeps an earlier code (R249, R258). -/
def State.setErr (s : State) (ctx slot code : Nat) (onlyFirst : Bool) : State :=
  match (SMap.find (s.ctx ctx).launches slot).bind (s.statusKey ctx) with
  | none => s
  | some k =>
    let w := s.semRead k
    if onlyFirst && bits w 55 48 != 0 then s
    else s.semWrite k (w64 (bits w 63 56 * 2 ^ 56 + code % 256 * 2 ^ 48 + bits w 47 0))

/-! ### Records the VX7 writes (R330, R340) -/

/-- A write of the VX7 itself within one 64 KiB granule of a context's memory, published at system scope; nothing is written
where the context's translation does not grant it. -/
def State.vxPiece (s : State) (ctx : Nat) (va : Nat) (bs : List Byte) : State :=
  match xlatCtx s ctx (s.ctx ctx).part.toNat .write (w64 va) (va % 2 ^ 57) with
  | .error _ => s
  | .ok p => s.storePublished (2 ^ 16) p bs

/-- The pieces of a write upwards from an address, each in its own translation. -/
def State.vxPieces (s : State) (ctx : Nat) : Nat → Nat → List Byte → State
  | 0, _, _ => s
  | n + 1, va, bs =>
    if bs.isEmpty then s
    else
      let m := 65536 - va % 65536
      (s.vxPiece ctx va (bs.take m)).vxPieces ctx n (va + m) (bs.drop m)

/-- A write of the VX7 itself into a context's memory. -/
def State.vxWrite (s : State) (ctx : Nat) (va : Nat) (bs : List Byte) : State := s.vxPieces ctx (bs.length / 65536 + 2) va bs

/-- A context error record (R330): doubleword 0 from the handle, the kind, the logical core and the bank. -/
def State.errorRecord (s : State) (ctx : Nat) (ctrl kind l bank : Nat) (d1 d2 d3 d4 : Word) : State :=
  let c := s.ctx ctx
  let d0 := ctrl % 2 ^ 32 * 2 ^ 32 + kind % 256 * 2 ^ 24 + l % 64 * 2 ^ 8 + bank % 2 * 2 ^ 7
  let s :=
    if c.erecn = 0 then s
    else s.vxWrite ctx (c.erec.toNat + 64 * (c.ecount.toNat % c.erecn.toNat))
      (leBytes 8 d0 ++ leBytes 8 d1.toNat ++ leBytes 8 d2.toNat ++ leBytes 8 d3.toNat ++ leBytes 8 d4.toNat
        ++ leBytes 24 0)
  (s.modCtx ctx fun c => { c with ecount := c.ecount + 1 }).signal (4 * ctx + 3)

/-- The CTRL handle of a launch slot; 0 where none is live. -/
def State.ctrlOf (s : State) (ctx slot : Nat) : Nat :=
  ((SMap.find (s.ctx ctx).launches slot).map fun l => l.ctrl.toNat).getD 0

/-! ### Fault records (R340, R341) -/

def FaultUnit.code : FaultUnit → Nat
  | .core => 0
  | .vector => 1
  | .copy => 2
  | .stream => 3
  | .coll => 4
  | .preload => 5

/-- The lowest free index of the fault buffer. -/
def State.freeFault (s : State) : Nat :=
  ((List.range 4096).find? fun i => s.faults.all fun f => f.tag % 4096 != i).getD 0

/-- The 32 bytes of a fault record (R340). The layout has no field for the logical memory bank (assumption log 42). -/
def FaultRec.bytes (f : FaultRec) : List Byte :=
  let d1 := f.tag * 2 ^ 32 + f.cause % 256 * 2 ^ 24 + f.level % 8 * 2 ^ 21 + f.unit.code * 2 ^ 18
    + f.kind % 4 * 2 ^ 16 + f.tu % 4 * 2 ^ 14 + keyBank f.bankKey * 2 ^ 13 + keyL (keyCore f.bankKey) * 2 ^ 7
    + f.ctx % 64 * 2 + 1
  leBytes 8 f.va.toNat ++ leBytes 8 d1 ++ leBytes 8 f.pte.toNat
    ++ leBytes 8 (min f.nwait 0xFFFF * 2 ^ 48 + f.tlnum % 2 ^ 48)

/-- An access that waited on the held fault `old` waits on a posted record: a control core's bank or image, a replay entry, a
copy, a stream or a collective. -/
def State.bindOne (s : State) (old tag : Nat) (w : FaultUnit × Nat × Nat × Nat) : State :=
  let bk := w.2.1
  let uid := w.2.2.2
  let now (t : Option Nat) : Option Nat := if t = some old then some tag else t
  match w.1 with
  | .core =>
    s.modHome bk uid fun b => { b with wait := if b.wait = some (.fault old) then some (.fault tag) else b.wait }
  | .vector =>
    s.modHome bk uid fun b =>
      { b with replay := b.replay.map fun r => if r.tag = old then { r with tag := tag } else r }
  | .copy =>
    s.modCore (keyCore bk) fun c =>
      { c with cq := c.cq.map fun e =>
          (e.1, e.2.map fun k => { k with fault := now k.fault }) }
  | .stream =>
    s.modHome bk uid fun b =>
      { b with streams := b.streams.map fun e => (e.1, { e.2 with parked := now e.2.parked }) }
  | .coll =>
    if w.2.2.1 = 0 then
      s.modCore (keyCore bk) fun c =>
        { c with kq := c.kq.map fun k => { k with fault := now k.fault } }
    else { s with groups := s.groups.map fun e => (e.1, { e.2 with fault := now e.2.fault }) }
  | .preload => s

/-- Every access of a list waits on a record from now on. -/
def State.bindWaiters (s : State) (old tag : Nat) (ws : List (FaultUnit × Nat × Nat × Nat)) : State :=
  ws.foldl (fun s w => s.bindOne old tag w) s

/-- Posting a record: it takes a TAG, is written to the fault ring, raises FPOST and signals the context (R340). -/
def State.postRecord (s : State) (f : FaultRec) : State × Nat :=
  let tag := s.faultGen % 2 ^ 20 * 2 ^ 12 + s.freeFault
  let f := { f with tag := tag }
  let c := s.ctx f.ctx
  let n := bits c.fringn 31 0
  let s := { s with faults := s.faults ++ [f], faultGen := s.faultGen + 1 }
  let s :=
    if n = 0 then s
    else
      let s := s.vxWrite f.ctx (c.fring.toNat + 32 * (tag % 4096 % n)) f.bytes
      match (semKey s f.ctx (c.fringn.extractLsb' 32 32)).join with
      | some k => s.semWrite k (s.semRead k + 1)
      | none => s
  (s.signal (4 * f.ctx + 0), tag)

/-- Faults of one context on one page, which a base and a level name, with the same KIND and CAUSE coalesce (R340). -/
def FaultRec.joins (f g : FaultRec) : Bool :=
  f.ctx == g.ctx && f.page == g.page && f.level == g.level && f.kind == g.kind && f.cause == g.cause

/-- A fault of one access: coalesced, posted, or held at its source while the buffer is full (R340, R341). A held fault has a
tag of its own, from 2^32 upwards. -/
def State.postFault (s : State) (ag : Agent) (unit : FaultUnit) (idx tu tlnum : Nat) (p : PageStop) : State × Nat :=
  let w := (unit, ag.bk, idx, ag.uid)
  let new : FaultRec := ⟨p.va, 2 ^ 32 + s.heldGen, p.cause, p.level, unit, p.kind.code, tu, ag.bk, ag.ctx, p.pte, 1, tlnum, p.page, p.bank, [w]⟩
  match s.faults.find? new.joins with
  | some f =>
    ({ s with faults := s.faults.map fun g =>
        if g.tag = f.tag then { g with nwait := min (g.nwait + 1) 0xFFFF, waiters := g.waiters ++ [w] } else g }, f.tag)
  | none =>
    if s.faults.length < 4096 then s.postRecord new
    else
      (({ s with heldFaults := s.heldFaults ++ [new], heldGen := s.heldGen + 1 }.modCtx ag.ctx fun c => { c with fovf := c.fovf + 1 }).signal
        (4 * ag.ctx + 1), new.tag)

/-! ### Crews (R281) -/

/-- Suspension and resumption of a bank's crew. -/
def Bank.suspendCrew (b : Bank) : Bank :=
  { b with crew := b.crew.map fun c => if c.suspended then c else { c with suspended := true, heldSeq := b.seq } }
def Bank.resumeCrew (b : Bank) : Bank := { b with crew := b.crew.map fun c => { c with suspended := false } }

/-! ### Ending a task (R258, R345) -/

/-- A copy at its mark: the last multiple of 64 KiB of its iteration (R231, R232). -/
def CCmd.toMark (k : CCmd) : CCmd := { k with part := k.part / 65536 * 65536, buf := [] }

/-- Commands of a task leave the queues of a core. A copy that has not completed leaves no origin of the blocks it wrote (R355). -/
def Core.dropTask (c : Core) (uid : Nat) : Core :=
  { c with
    imorg := (c.cq.flatMap fun e => e.2.filter fun k => k.uid == uid).foldl
      (fun m k => k.origins.foldl (fun m o => SMap.set 0 m o.1 0) m) c.imorg
    vq := c.vq.filter fun v => v.uid != uid
    mq := c.mq.filter fun m => m.uid != uid
    cq := c.cq.map fun e => (e.1, e.2.filter fun k => k.uid != uid)
    kq := c.kq.filter fun k => k.uid != uid
    arrays := c.arrays.filter fun a => c.mq.all fun m => !(m.bank == a.2.bank && m.tl == a.2.tl && m.uid == uid) }

/-- The counter numbers of a task's commands in a core: counter and number. -/
def Core.taskNumbers (c : Core) (uid : Nat) : List (Nat × Nat × Nat) :=
  ((c.vq.filter fun v => v.uid == uid).map fun v => (v.bank, 4, v.tl))
  ++ ((c.mq.filter fun m => m.uid == uid).map fun m => (m.bank, 5, m.tl))
  ++ (c.cq.flatMap fun e => (e.2.filter fun k => k.uid == uid).map fun k => (k.bank, e.1, k.tl))
  ++ ((c.kq.filter fun k => k.uid == uid && k.tl != 0).map fun k => (k.bank, 6 + k.ch, k.tl))

/-- Whether a task has an engine command outstanding in a core. -/
def Core.busy (c : Core) (uid : Nat) : Bool :=
  c.vq.any (fun v => v.uid == uid) || c.mq.any (fun m => m.uid == uid)
  || c.cq.any (fun e => e.2.any fun k => k.uid == uid)

/-- Releasing the marver slots that a task holds (R148). -/
def Core.releaseSlots (c : Core) (uid : Nat) : Core :=
  { c with slots := c.slots.map fun e => if e.2.held = some uid then (e.1, { e.2 with held := none }) else e }

/-- Releasing the group-table entries that a bank holds (R293): HELD is bit 33 of word 16. -/
def Ctx.releaseGroups (c : Ctx) (hold : BitVec 256) : Ctx :=
  { c with group := c.group.map fun e =>
      if e.1 % 24 = 16 && bitAt hold (e.1 / 24) then (e.1, setBit e.2 33 false) else e }

/-- A bank of the context's grant, or the image of one of its tasks, holds a group-table entry (R293). -/
def State.holdsGroup (s : State) (ctx g : Nat) : Bool :=
  (List.range 64).any (fun l =>
    let k := 64 * (s.ctx ctx).part.toNat + l
    s.granted ctx l && (bitAt (s.bank (2 * k)).hold g || bitAt (s.bank (2 * k + 1)).hold g))
  || s.tasks.any fun e => e.2.ctx == ctx && e.2.image.any fun im => bitAt im.bank.hold g

/-- HELD (bit 33 of word 16) of every group-table entry of a context, from the hold masks that stand (R293). -/
def State.settleHeld (s : State) (ctx : Nat) : State :=
  s.modCtx ctx fun c => { c with group := c.group.map fun e =>
    if e.1 % 24 = 16 then (e.1, setBit e.2 33 (s.holdsGroup ctx (e.1 / 24))) else e }

/-- The resources that a task gives up when it leaves its bank (R258): input streams, the rotating grant, claims and
held entries. The bank's timeline counters stay (R36). -/
def State.freeBank (s : State) (bk ctx : Nat) : State :=
  let b := s.bank bk
  let full := decide (16 ≤ (s.core (keyCore bk)).tracker.length)
  let s := s.modCtx ctx fun c => c.releaseGroups b.hold
  { s with resv := s.resv.filter fun r => r.1 != bk }.setBank bk
    { b with st := if full then .held else .empty, uid := none, streams := [], grant := 0, claim := 0, hold := 0, hans := none, pf := none,
             crew := none, exposed := [], replay := [], due := [], wait := none, granted := false, pendX := [] }

/-- A task is retired without running further: GEN raised, its image discarded (R263, R273, R345). -/
def Task.retireUnrun (t : Task) : Task := { t with st := .retired, gen := t.gen + 1, image := none, recq := none }

/-- Faults of ended tasks leave their records; an empty record is voided (R345). -/
def dropWaiters (uid : Nat) (fs : List FaultRec) : List FaultRec :=
  (fs.map fun f => { f with waiters := f.waiters.filter fun w => w.2.2.2 != uid }).filter fun f => !f.waiters.isEmpty

/-- A work entry that has fired and is not all written (R290). -/
def KCmd.firing (k : KCmd) : Bool := (k.kind == .owrite || k.kind == .owred) && k.performed

/-- The commands of a task leave a core's engines (R345): unfired work entries and page moves not yet made are discarded; a work
entry that has fired goes on, its stop cleared and its access removed from its fault record. -/
def State.dropCommands (s : State) (ck uid : Nat) : State :=
  let c := s.core ck
  let fired := (c.kq.filter fun k => k.uid == uid && k.firing).map fun k => { k with stop := none, fault := none }
  let mine (bank ch tl : Nat) : Bool :=
    c.kq.any fun k => k.uid == uid && !k.firing && k.bank == bank && k.ch == ch && k.tl == tl
  let copy (bank tu tl : Nat) : Bool := (SMap.get [] c.cq tu).any fun k => k.uid == uid && k.bank == bank && k.tl == tl
  { s with
    work := s.work.filter fun w => w.fired || w.core != ck || !mine w.bank w.ch w.tl
    moves := s.moves.filter fun m => m.moved || m.core != ck || !copy (bankKey m.core m.bank) m.tu m.tl
    faults := dropWaiters uid s.faults
    heldFaults := dropWaiters uid s.heldFaults
    cores := SMap.put s.cores ck { c.dropTask uid with kq := fired ++ (c.dropTask uid).kq } }

/-- The core whose engines hold a task's commands. -/
def State.taskCore (s : State) (uid : Nat) : Nat :=
  match s.banks.find? fun e => e.2.uid == some uid with
  | some e => keyCore e.1
  | none => match s.cores.find? fun c => c.2.tracker.any fun t => t.uid == uid with
    | some c => c.1
    | none => (((s.task uid).bind (·.home)).map keyCore).getD 0

/-- A host request whose requester has ended stays posted (R332). -/
def State.dropRequest (s : State) (uid : Nat) : State :=
  { s with ctxs := s.ctxs.map fun c =>
      (c.1, { c.2 with req := c.2.req.map fun r => if r.who.any fun w => w.2 == uid then ⟨none⟩ else r }) }

/-- A staged preload of an ended record is discarded (R345). -/
def State.dropPreload (s : State) (uid : Nat) : State :=
  { s with cores := s.cores.map fun e => (e.1, { e.2 with preload := e.2.preload.filter fun p => p.2.uid != uid }) }

/-- A task ends as a kill ends it (R345), with the numbers of its discarded commands: a record that is not on a bank is
Retired without running; a running one frees its bank with no join, its tiles closed, and a tracker entry that performs no
join takes it; a retiring one loses its join. -/
def State.endTask (s : State) (uid : Nat) : State × List (Nat × Nat × Nat) :=
  match s.task uid with
  | none => (s, [])
  | some t =>
    if t.st = .retired then (s, [])
    else
      let ck := s.taskCore uid
      let nums := (s.core ck).taskNumbers uid
      let s := ((s.dropCommands ck uid).dropRequest uid).dropPreload uid
      let s :=
        match s.banks.find? fun e => e.2.uid == some uid with
        | some (bk, b) =>
          ((s.freeBank bk t.ctx).modCore ck fun c =>
            { c.releaseSlots uid with
              rounds := c.rounds.filter fun r => r.2.uid != uid
              tracker := c.tracker ++ [⟨uid, bk, none, b.pc, true, { b with streams := [], replay := [], exposed := [] }⟩] }).modTask uid
            fun t => { t with st := .retiring, gen := t.gen + 1, image := none }
        | none =>
          if t.st = .retiring then
            s.modCore ck fun c => { c with
              rounds := c.rounds.filter fun r => r.2.uid != uid
              tracker := c.tracker.map fun e => if e.uid = uid then { e with killed := true, join := none, left := { e.left with streams := [] } } else e }
          else
            let hold := (t.image.map fun im => im.bank.hold).getD 0
            ((s.modTask uid Task.retireUnrun).modCtx t.ctx fun c => c.releaseGroups hold).liveDown t.ctx t.lslot 1
      (s, nums)

/-- Counters pass numbers whose commands have been discarded (R346). -/
def State.passNumbers (s : State) (ns : List (Nat × Nat × Nat)) : State := ns.foldl (fun s n => s.tlDone n.1 n.2.1 n.2.2) s

/-- terminate(k) of R330. -/
def State.terminate (s : State) (bk kind cause : Nat) (tval : Word) : State :=
  let b := s.bank bk
  match b.uid.bind fun u => (s.task u).map fun t => (u, t) with
  | none => s
  | some (u, t) =>
    let s := s.errorRecord t.ctx (s.ctrlOf t.ctx t.lslot) kind (keyL (keyCore bk)) (keyBank bk) (w64 cause) b.pc tval 0
    let r := (s.setErr t.ctx t.lslot 11 false).endTask u
    r.1.passNumbers r.2

/-! ### Taking a trap and returning from it -/

/-- Taking a trap (R330): in handler mode the task is terminated; in task mode without a handler too; otherwise the
crew is suspended, sepc, scause and stval are written, and the bank enters handler mode at stvec. -/
def takeTrap (s : State) (bk cause : Nat) (tval : Word) : State :=
  let b := s.bank bk
  if b.mode = .handler then s.terminate bk 1 cause tval
  else if (s.ctx (s.ctxOf bk)).hvec = 0 then s.terminate bk 2 cause tval
  else
    let b := b.suspendCrew
    s.setBank bk { b with
      sepc := b.pc &&& ~~~3#64
      scause := w64 cause
      stval := tval
      mode := .handler
      pc := b.stvec &&& ~~~3#64
      st := .running
      wait := none
      waitCount := 0
      granted := false }

/-- A trap of R60: NTDET takes the reason and field (R63), tval the whole instruction (R61). -/
def takeBad (s : State) (bk cause reason field : Nat) : State :=
  takeTrap (s.modBank bk fun b => { b with ntdet := w64 (field % 256 * 256 + reason % 256) }) bk cause s.ir

/-- Returning from a trap (R331): task mode at sepc, the suspended crew active again. -/
def Bank.trapReturn (b : Bank) : Bank :=
  let b := b.resumeCrew
  { b with
    mode := .task
    pc := b.sepc
    wait := none
    waitCount := 0
    granted := false
    streams := b.streams.map fun e => (e.1, { e.2 with hold := false }) }

/-! ### Parking (R199, R339) -/

/-- Core-clock cycles for which the present instruction of a bank has stalled, whatever it waited on (R199). -/
def State.waited (s : State) (bk : Nat) : Nat :=
  (s.bank bk).waitCount + if (s.bank bk).wait.isSome && (s.bank bk).st == .running then s.coreClock (keyCore bk) - (s.bank bk).waitFrom else 0

/-- The bank passes from Running to Parked (R257); the count of its wait is kept. -/
def State.park (s : State) (bk : Nat) (c : WaitCond) : State :=
  let b := (s.bank bk).suspendCrew
  { s with resv := s.resv.filter fun r => r.1 != bk }.setBank bk
    { b with st := .parked, wait := some c, waitCount := s.waited bk, parkTick := s.tick }

/-- A control-core access that faults in translation (R339): the record is posted and the bank parks. -/
def State.pageFault (s : State) (bk : Nat) (p : PageStop) : State :=
  let r := s.postFault (s.agent bk) .core 0 0 0 p
  r.1.park bk (.fault r.2)

/-- A wait of R199: it begins, or goes on; after 1,024 cycles of the core clock the bank parks. -/
def State.stallOn (s : State) (bk : Nat) (c : WaitCond) : State :=
  if 1024 ≤ s.waited bk then s.park bk c
  else
    s.modBank bk fun b =>
      { b with wait := some c, waitFrom := if b.wait.isSome then b.waitFrom else s.coreClock (keyCore bk), granted := false }

/-- A stall of R33 changes nothing; inside a crew the bank is marked (R280). -/
def State.stuckOn (s : State) (bk : Nat) : State :=
  if (s.bank bk).crew.isSome then s.modBank bk fun b => { b with stuck := true } else s

/-- What an instruction of a bank does when it does not complete. -/
def settleStop (s : State) (bk : Nat) : Stop → State
  | .trap cause v => takeTrap s bk cause v
  | .bad cause reason field => takeBad s bk cause reason field
  | .page f => s.pageFault bk f
  | .wait c => s.stallOn bk c
  | .block s' c => s'.stallOn bk c
  | .streamStop sn cause v =>
    takeTrap (s.modBank bk fun b =>
      { b with streams := b.streams.map fun e => if e.1 = sn then (e.1, { e.2 with stop := 0, hold := true }) else e }) bk cause v
  | .stall => s.stuckOn bk

/-- The bank passes its instruction. -/
def Bank.pass (b : Bank) (pc : Word) : Bank := { b with pc := pc, wait := none, waitCount := 0, granted := false, stuck := false, prevMat := none }

/-- An instruction of `len` bytes: its effect and the pc moved past it, or how it stops. -/
def perform (s : State) (len : Nat) (r : Except Stop State) : Out :=
  match r with
  | .ok s' => .next (s'.modBank s.me fun b => b.pass ((s.bank s.me).pc + w64 len))
  | .error e => .next (settleStop s s.me e)

/-- A control transfer: the state and the target. A target that is no multiple of 4 raises the
instruction-address-misaligned exception, and the instruction has no other effect (R43). -/
def performJump (s : State) (r : Except Stop (State × Word)) : Out :=
  match r with
  | .ok (s', pc) =>
    if pc.toNat % 4 = 0 then .next (s'.modBank s.me fun b => b.pass pc)
    else .next (takeTrap s s.me 0 pc)
  | .error e => .next (settleStop s s.me e)

/-- An event of an agent that is no bank: where it is not enabled, nothing happens. -/
def event (s : State) (r : Option State) : Out := .next (r.getD s)

/-- An event of a core's engines: nothing happens while the core does not work. -/
def eventOn (s : State) (ck : Nat) (r : Option State) : Out := .next (if s.works ck then r.getD s else s)

/-! ### Accesses of the host (R396, R406) -/

/-- The base dies have power, and the boot ROM runs (R400, R406). -/
def State.powered (s : State) : Bool := s.modl.boot != 0

/-- The compute domains are up (R400 step 5). -/
def State.running (s : State) : Bool := decide (5 ≤ s.modl.boot.toNat)

/-- The link was trained and is down: accesses of the host wait (R396). -/
def State.linkDown (s : State) : Bool := decide (2 ≤ s.modl.boot.toNat) && !s.modl.linkUp

/-- An access waits. -/
def State.holdHost (s : State) (a : Input) : State := { s with hostHeld := s.hostHeld ++ [a] }

/-- Accesses that waited come before whatever moves next, in their order. -/
def State.freeHost (s : State) : State := { s with inputs := s.hostHeld ++ s.inputs, hostHeld := [] }

/-- An access of the host: while the link is down it waits (R396), and where it is not enabled it is discarded. -/
def State.hostAccess (s : State) (a : Input) (r : Option State) : State := if s.linkDown then s.holdHost a else r.getD s

/-- A step of the table that is the access `a` of the host. -/
def hostEvent (s : State) (a : Input) (r : Option State) : Out := .next (s.hostAccess a r)

/-- The offset in BAR0 of a register of a context block (R397). -/
def ctxOff (c off : Nat) : Nat := 0x10000 + 0x1000 * c + off

/-! ### Issue checks of Nuten words (R62) -/

/-- The bit of a queue in a crew mask (R56). -/
def queueBit : Queue → Nat
  | .cc => 0
  | .vec => 1
  | .mat => 2
  | .c0 => 3
  | .c1 => 4
  | .c2 => 5
  | .c3 => 6
  | .col => 7

/-- Step 6 of R62: V = 2 needs an active crew of which the issue queue is a member. -/
def crewOk (b : Bank) (c : Ctl) (q : Queue) : Bool :=
  c.v != 2 || match b.crew with
    | some w => !w.suspended && bitAt w.mask (queueBit q)
    | none => false

/-- The lowest bit of the field that names the issue queue of a word: TU for the queues of the transfer units, else OPC (R47). -/
def queueField : Queue → Nat
  | .c0 | .c1 | .c2 | .c3 => 62
  | .cc | .vec | .mat | .col => 19

/-- Step 6 of R62; the reason lies in the active crew, so the offending field is the one that names the queue (R63). -/
def checkCrew (s : State) (c : Ctl) (q : Queue) : Except Stop Unit :=
  need (crewOk (s.bank s.me) c q) (.bad 2 0x03 (queueField q))

/-- The privilege check of R326; stval is the instruction. -/
def checkPriv (s : State) : Except Stop Unit := need ((s.bank s.me).mode == .handler) (.trap 40 s.ir)

/-! ### Waits -/

/-- The words of an edge queue (R260). -/
structure Edge where
  cap : Nat
  wpos : Nat
  pubd : Nat
  rpos : Nat
  freed : Nat
  closed : Bool
deriving DecidableEq, Repr

def State.edge (s : State) (ks : List Nat) : Edge :=
  let word (i : Nat) : Nat := (s.semRead (ks.getD i 0)).toNat
  ⟨word 0, word 1, word 2, word 3, word 4, word 5 == 1⟩

/-- The condition an edge instruction waits for (R261), a violation counting as met: it traps instead of waiting. -/
def edgeReady (e : Edge) (op : Nat) (slot : Nat) : Bool :=
  match op with
  | 0 => e.closed || decide (e.wpos - e.freed < e.cap)
  | 1 => e.closed || (e.wpos == slot && decide (e.wpos - e.freed < e.cap))
  | 2 => decide (e.wpos ≤ slot) || decide (slot < e.pubd) || e.pubd == slot
  | 3 => e.pubd == e.wpos
  | 4 => decide (e.rpos < e.pubd) || (e.closed && e.rpos == e.pubd)
  | 5 => (e.rpos == slot && decide (slot < e.pubd)) || (e.closed && decide (e.pubd ≤ slot))
  | _ => decide (e.rpos ≤ slot) || decide (slot < e.freed) || e.freed == slot

/-- A context's records that count against RECQN (R253). -/
def State.queuedRecords (s : State) (ctx : Nat) : Nat := (s.tasks.filter fun e => e.2.ctx == ctx && e.2.recq.isSome).length

/-- The lowest free launch slot of a context (R249). -/
def Ctx.freeSlot (c : Ctx) : Option Nat := (List.range 64).find? fun i => (SMap.find c.launches i).isNone

/-- Whether a core can be reached and can pop (R343). -/
def Core.awake (c : Core) : Bool := !(c.gated || c.down || c.halted || c.moving.isSome)

/-- Whether the condition of a wait holds. -/
def condHolds (s : State) : WaitCond → Bool
  | .semGe w v => decide (v.toNat ≤ (s.semRead w).toNat)
  | .tlGe bk k v => decide (v.toNat ≤ ((s.bank bk).timeline k).val)
  | .fault tag => s.faults.all (fun f => f.tag != tag) && s.heldFaults.all fun f => f.tag != tag
  | .replay bk => (s.bank bk).replay.all (·.ready)
  | .edge op ks slot => edgeReady (s.edge ks) op slot.toNat
  | .launchFree c => (s.ctx c).freeSlot.isSome
  | .recqFree c slot =>
    decide (s.queuedRecords c < (s.ctx c).recqn.toNat) || (SMap.find (s.ctx c).launches slot).any (·.ended)
  | .staged bk tl => ((SMap.get [] (s.core (keyCore bk)).cq 0).find? fun k => k.bank == bk && k.tl == tl).all fun k => k.finished || k.stop.isSome
  | .streamIdle bk sn => match SMap.find (s.bank bk).streams sn with
    | some st => st.stop != 0 || (st.buf.isEmpty && st.pos == st.issue)
    | none => true
  | .awake k => (s.core k).awake
  | .powered k => !((s.core k).down || (s.core k).halted)
  | .sealed ks => s.seals.all fun x => !ks.contains x.core
  | .idle u => (s.cores.all fun e => !e.2.busy u && e.2.kq.all fun k => k.uid != u)
      && s.banks.all fun e => e.2.uid != some u || e.2.streams.all fun st => st.2.dir == 0 || st.2.buf.isEmpty
  | .settled us => us.all fun u => match s.task u with
    | some t => !t.provisional
    | none => true
  | .qtlGe c v => decide (v.toNat ≤ (s.ctx c).qtl)
  | .hreqFree c => (s.ctx c).req.isNone
  | .hans _ bk => (s.bank bk).hans.isSome
  | .formDone ck u => (s.core ck).kq.all fun k =>
      !(k.uid == u && (k.kind == .grpgetStore || k.kind == .grpgetWord) && !k.performed)
  | .formX ck u xd => (s.core ck).kq.all fun k => !(k.uid == u && k.tl == 0 && k.xd == xd)

/-- The wait of a sem.wait: its instruction completes once it has been met (R199). -/
def WaitCond.isSem : WaitCond → Bool
  | .semGe _ _ => true
  | _ => false

/-- A stalled or parked bank runs again, its crew resumed unless a trap handler runs (R257, R281); the count of its instruction's
wait goes on. -/
def State.wake (s : State) (bk : Nat) : State :=
  let b := s.bank bk
  let b := if b.mode = .task then b.resumeCrew else b
  s.setBank bk { b with
    st := .running
    wait := none
    waitCount := if b.st = .parked then b.waitCount else s.waited bk
    granted := b.wait.any fun c => c.isSem && condHolds s c }

/-! ### Engine stops (R194) -/

/-- A stopped command of a task in the vector queue: cause, address and number. -/
def stoppedV (c : Core) (uid : Nat) : Option (Nat × Word × Nat) :=
  (c.vq.find? fun v => v.uid == uid && v.stop.isSome).bind fun v => v.stop.map fun p => (p.1, p.2, v.tl)

/-- A stopped command of a task in a transfer unit. -/
def stoppedC (c : Core) (tu uid : Nat) : Option (Nat × Word × Nat) :=
  ((SMap.get [] c.cq tu).find? fun k => k.uid == uid && k.stop.isSome).bind fun k => k.stop.map fun p => (p.1, p.2, k.tl)

/-- A stopped operation of a task in a collective channel. -/
def stoppedK (c : Core) (ch uid : Nat) : Option (Nat × Word × Nat) :=
  (c.kq.find? fun k => k.uid == uid && k.ch == ch && k.stop.isSome).bind fun k => k.stop.map fun p => (p.1, p.2, k.tl)

/-! What later instructions trap on (R194): a stopped command that no queued resume is about to continue. -/

def trapV (c : Core) (uid : Nat) : Option (Nat × Word × Nat) :=
  (stoppedV c uid).filter fun x => c.vq.all fun r => !(r.op == .resume && r.uid == uid && r.pa == x.2.2 && !r.issued)
def trapC (c : Core) (tu uid : Nat) : Option (Nat × Word × Nat) :=
  (stoppedC c tu uid).filter fun x =>
    (SMap.get [] c.cq tu).all fun r => !(r.kind == .cresume && r.xa.toNat == uid && r.xb.toNat == x.2.2 && !r.issued)
def trapK (c : Core) (ch uid : Nat) : Option (Nat × Word × Nat) :=
  (stoppedK c ch uid).filter fun x =>
    c.kq.all fun r => !(r.kind == .kresume && r.uid == uid && r.ch == ch && r.tag == x.2.2 && !r.issued)

/-- The trap of a stopped command, where there is one. -/
def trapStopped : Option (Nat × Word × Nat) → Except Stop Unit
  | some (cause, tval, _) => .error (.trap cause tval)
  | none => .ok ()

end Sys2Proof.Machine
end

