-- ==== Sys2Proof/Machine/Flags.lean ====
section
/-!
DEFINITION. Machine/Flags.lean: NRM, its sticky flags and its rounding mode (R66, R86, R87), and the CSR field
rules of R11.
-/

namespace Sys2Proof.Machine

/-- Flags join NRM by or; no set is lost (R87). -/
def Bank.addFlags (b : Bank) (fl : Fl) : Bank := { b with nrm := b.nrm ||| (fl &&& 0xF8#8).setWidth 64 }

/-- The dynamic rounding mode (R66). -/
def Bank.rm (b : Bank) : Nat := bits b.nrm 2 0

/-- A write to NRM (R66, R11): RM takes the written bits, a flag is cleared by a one. -/
def nrmWrite (old w : Word) : Word := (old &&& ~~~w &&& 0xF8#64) ||| (w &&& 7#64)

/-- csrrs on NRM (R11): set bits join RM; a W1C field changes no bit. -/
def nrmSet (old w : Word) : Word := old ||| (w &&& 7#64)

/-- csrrc on NRM (R11): RM loses the source bits; a W1C field loses exactly the bits that are 1 in the source. -/
def nrmClear (old w : Word) : Word := old &&& ~~~w &&& 0xFF#64

/-- The effective rounding mode of an instruction that rounds by NRM.RM: modes 5 to 7 raise reason 0x16, and so does
the stochastic mode where the destination is a register (R55, R116). The reason concerns no field. -/
def dynMode (b : Bank) (stream : Bool) : Except Stop Nat :=
  if 5 ≤ b.rm then .error (badOp 0x16 0)
  else if b.rm = 4 && !stream then .error (badOp 0x16 0)
  else .ok b.rm

/-- The effective rounding mode of a field RM (R55, R116), at bit `field` of the word. -/
def fieldMode (b : Bank) (rm : Nat) (stream : Bool) (field : Nat) : Except Stop Nat :=
  if 6 ≤ rm then .error (badOp 0x16 field)
  else if rm = 5 then
    if 5 ≤ b.rm || (b.rm == 4 && !stream) then .error (badOp 0x16 field) else .ok b.rm
  else if rm = 4 && !stream then .error (badOp 0x16 field)
  else .ok rm

end Sys2Proof.Machine
end

