-- ==== Sys2Proof/Machine/Operands.lean ====
section
/-!
DEFINITION. Machine/Operands.lean: operand fields of Nuten words (R49 to R56), the entries an instruction takes from
streams (R51, R211), and the scalar registers an instruction names.
-/

namespace Sys2Proof.Machine

/-- How an instruction uses a register field (R50). -/
inductive Use
  | read | write | acc | reg
deriving DecidableEq, Repr

/-- Total entries of a stream's pattern (R210). -/
def Stream.total (st : Stream) : Nat := st.cnt1.toNat * st.cnt2.toNat * st.cnt3.toNat

/-- Entry length in memory (R209). -/
def Stream.elen (st : Stream) : Nat := st.elenm1.toNat + 1

def Bank.stream (b : Bank) (n : Nat) : Option Stream := SMap.find b.streams n
def Bank.setStream (b : Bank) (n : Nat) (st : Stream) : Bank := { b with streams := SMap.put b.streams n st }
def Bank.modStream (b : Bank) (n : Nat) (f : Stream → Stream) : Bank :=
  match b.stream n with
  | some st => b.setStream n (f st)
  | none => b

/-- The stream of an operand: bound, of the right direction (R29, R50), with one of the formats of R108 and, where the
instruction reads or writes blocks, with their geometry (R210). -/
def streamField (b : Bank) (n : Nat) (out : Bool) (fmts : List Nat) (blocks : Option Nat) (field : Nat) :
    Except Stop Stream := do
  let some st := b.stream n | throw (badOp 0x13 field)
  need (st.dir.toNat == (if out then 1 else 0)) (badOp 0x12 field)
  need (fmts.contains st.fmt.toNat) (badOp 0x15 field)
  match blocks with
  | none => pure ()
  | some k => need (st.bpe.toNat == k && st.elen == k * mxBlockBytes st.fmt.toNat) (badOp 0x15 field)
  return st

/-- A 9-bit register field (R49, R50, R112): a stream's entry number is filled in when it is taken. -/
def vField (b : Bank) (code : BitVec 9) (use : Use) (fmts : List Nat) (blocks : Option Nat) (field : Nat) :
    Except Stop VLoc :=
  let k := code.toNat
  if k < 64 then .ok (.stat k)
  else if k < 320 then
    if k < 64 + b.grant then .ok (.rot ((k - 64 + b.vrb.toNat) % b.grant)) else .error (badOp 0x14 field)
  else if k < 352 then
    match use with
    | .acc => .error (badOp 0x12 field)
    | .reg => .error (badOp 0x12 field)
    | .read => match streamField b (k - 320) false fmts blocks field with
      | .ok _ => .ok (.stream (k - 320) 0)
      | .error e => .error e
    | .write => match streamField b (k - 320) true fmts blocks field with
      | .ok _ => .ok (.stream (k - 320) 0)
      | .error e => .error e
  else .error (badOp 0x11 field)

/-- A predicate code (R52, R112). -/
def pField (b : Bank) (code : Nat) : Nat := if code < 16 then code else 16 + (code - 16 + b.prb.toNat) % 48

/-- A governing predicate (R52): code 0 makes every element active. -/
def pgField (b : Bank) (code : BitVec 6) : Option Nat := if code = 0 then none else some (pField b code.toNat)

def VLoc.isStream : VLoc → Bool
  | .stream _ _ => true
  | _ => false

/-- Taking `k` entry positions of a stream at its issue position (R211): a position at or beyond T raises
CAUSE_STREAM_END; the stopped entry of a stopped input stream, or a later one, its fault (R219). -/
def takeEntries (b : Bank) (n k : Nat) : Except Stop (Nat × Bank) :=
  match b.stream n with
  | none => .ok (0, b)
  | some st =>
    if st.dir = 0 && st.stop != 0 && k != 0 && decide (st.next < st.issue + k) then .error (.streamStop n st.stopCause st.stopAddr)
    else if st.total < st.issue + k then .error (.trap 32 0)
    else .ok (st.issue, b.setStream n { st with issue := st.issue + k })

/-- A matrix command that takes entries of a stream or enqueues them (R150, R165, R170). -/
def MCmd.usesStream (m : MCmd) : Bool := m.opc == 0x0CC || m.opc == 0x0D0 || m.opc == 0x0D1 || m.opc == 0x0D3

/-- Taking the entry an operand names, if it names a stream (R51). -/
def takeLoc (b : Bank) (l : VLoc) : Except Stop (VLoc × Bank) :=
  match l with
  | .stream n _ => match takeEntries b n 1 with
    | .ok (e, b) => .ok (.stream n e, b)
    | .error x => .error x
  | l => .ok (l, b)

/-- Reading and writing a resolved register. -/
def Bank.readV (b : Bank) : VLoc → VReg
  | .stat n => SMap.get 0 b.v n
  | .rot n => SMap.get 0 b.rot n
  | .stream n e => match b.stream n with
    | some st => SMap.get 0 st.buf e
    | none => 0
  | .none => 0

def Bank.writeV (b : Bank) (l : VLoc) (v : VReg) : Bank :=
  match l with
  | .stat n => { b with v := SMap.set 0 b.v n v }
  | .rot n => { b with rot := SMap.set 0 b.rot n v }
  | _ => b

def Bank.readP (b : Bank) (n : Nat) : PReg := SMap.get 0 b.p n
def Bank.writeP (b : Bank) (n : Nat) (v : PReg) : Bank := { b with p := SMap.set 0 b.p n v }

/-- A scope code (R56): `ok` are those the instruction accepts. -/
def scopeField (scope : BitVec 3) (ok : Nat → Bool) (field : Nat) : Except Stop Nat :=
  if ok scope.toNat then .ok scope.toNat else .error (badOp 0x18 field)

/-- The scopes of memory ordering: task to system (R180). -/
def memScope (k : Nat) : Bool := decide (k ≤ 5)

/-- The range a scratchpad access of a V = 0 command names (R407): core key, first offset and length; none names every
scratchpad. -/
abbrev SpadRange := Option (Nat × Nat × Nat)

def rangesMeet (a b : SpadRange) : Bool :=
  match a, b with
  | some (k, o, n), some (k', o', n') => k == k' && decide (o < o' + n') && decide (o' < o + n)
  | _, _ => true

/-! ### Scalar registers named by an instruction, for the interlock on results still to be written -/

/-- The scalar register fields of an instruction. -/
def scalarFields : Instr → List (BitVec 5)
  | .hold _ => []
  | .catchCrew _ _ => []
  | .easy _ => []
  | .launch _ f => [f.xd, f.xa, f.xb]
  | .spawn _ f => [f.xd, f.xa, f.xb]
  | .join _ f => [f.xd, f.xa, f.xb]
  | .tail _ f => [f.xd, f.xa, f.xb]
  | .setpri _ f => [f.xd, f.xa, f.xb]
  | .eqsendReserveNext _ f => [f.xd, f.xa, f.xb]
  | .eqsendReserve _ f => [f.xd, f.xa, f.xb]
  | .eqsendPublish _ f => [f.xd, f.xa, f.xb]
  | .eqsendClose _ f => [f.xd, f.xa, f.xb]
  | .eqrecvTakeNext _ f => [f.xd, f.xa, f.xb]
  | .eqrecvTake _ f => [f.xd, f.xa, f.xb]
  | .eqfree _ f => [f.xd, f.xa, f.xb]
  | .eqinit _ f => [f.xd, f.xa, f.xb]
  | .widf _ f => [f.xd, f.xa, f.xb]
  | .widins _ f => [f.xd, f.xa, f.xb]
  | .budget _ f => [f.xd, f.xa, f.xb]
  | .draw _ f => [f.xd, f.xa, f.xb]
  | .thallow _ f => [f.xd, f.xa, f.xb]
  | .slip _ f => [f.xd, f.xa, f.xb]
  | .lerr _ f => [f.xd, f.xa, f.xb]
  | .ntrap _ f => [f.xd, f.xa, f.xb]
  | .tret _ f => [f.xd, f.xa, f.xb]
  | .killLaunch _ f => [f.xd, f.xa, f.xb]
  | .killContext _ f => [f.xd, f.xa, f.xb]
  | .quiesce _ f => [f.xd, f.xa, f.xb]
  | .gate _ f => [f.xd, f.xa, f.xb]
  | .wake _ f => [f.xd, f.xa, f.xb]
  | .brk _ f => [f.xd, f.xa, f.xb]
  | .tlbinvAll _ f => [f.xd, f.xa, f.xb]
  | .tlbinvRange _ f => [f.xd, f.xa, f.xb]
  | .fltans _ f => [f.xd, f.xa, f.xb]
  | .vadd _ _ => []
  | .vsub _ _ => []
  | .vmul _ _ => []
  | .vfma _ _ => []
  | .vfms _ _ => []
  | .vfnma _ _ => []
  | .vmin _ _ => []
  | .vmax _ _ => []
  | .vdiv _ _ => []
  | .vamin _ _ => []
  | .vamax _ _ => []
  | .vsadd _ _ => []
  | .vssub _ _ => []
  | .vmulh _ _ => []
  | .vdot2 _ _ => []
  | .vdot4 _ _ => []
  | .vand _ _ => []
  | .vor _ _ => []
  | .vxor _ _ => []
  | .vandn _ _ => []
  | .vsll _ _ => []
  | .vsrl _ _ => []
  | .vsra _ _ => []
  | .vsel _ _ => []
  | .vaddi _ _ => []
  | .vmini _ _ => []
  | .vmaxi _ _ => []
  | .vandi _ _ => []
  | .vxori _ _ => []
  | .vslli _ _ => []
  | .vsrli _ _ => []
  | .vsrai _ _ => []
  | .vaddx _ f => [f.xs]
  | .vsubx _ f => [f.xs]
  | .vmulx _ f => [f.xs]
  | .vfmax _ f => [f.xs]
  | .vminx _ f => [f.xs]
  | .vmaxx _ f => [f.xs]
  | .vbcast _ f => [f.xs]
  | .vscalex _ f => [f.xs]
  | .vfn _ _ => []
  | .vneg _ _ => []
  | .vabs _ _ => []
  | .vclass _ _ => []
  | .vbits _ _ => []
  | .vcvt _ _ => []
  | .vrint _ _ => []
  | .vrsum _ _ => []
  | .vrmax _ _ => []
  | .vrmin _ _ => []
  | .vramax _ _ => []
  | .vscan _ _ => []
  | .vcmp _ _ => []
  | .vld _ f => [f.xb]
  | .vst _ f => [f.xb]
  | .vgath _ f => [f.xb]
  | .vscat _ f => [f.xb]
  | .vscadd _ f => [f.xb]
  | .rqrel _ f => [f.xd, f.xa]
  | .rqstat _ f => [f.xd, f.xa]
  | .vmov _ _ => []
  | .vperm _ _ => []
  | .vrev _ _ => []
  | .vzip _ _ => []
  | .vunzip _ _ => []
  | .vtrn _ _ => []
  | .vslide _ _ => []
  | .vrotl _ _ => []
  | .vbcl _ _ => []
  | .plog _ _ => []
  | .pcnt _ f => [f.xd, f.xa]
  | .pfirst _ f => [f.xd, f.xa]
  | .pfromx _ f => [f.xd, f.xa]
  | .ptox _ f => [f.xd, f.xa]
  | .pwhile _ f => [f.xd, f.xa]
  | .loopb _ _ => []
  | .vresume _ => []
  | .mmaE4m3 _ f => [f.xg]
  | .mmaE5m2 _ f => [f.xg]
  | .mmaInt8 _ f => [f.xg]
  | .mmaBf16 _ f => [f.xg]
  | .mmaFp16 _ f => [f.xg]
  | .mmaMxfp8 _ f => [f.xg]
  | .mmaMxfp6 _ f => [f.xg]
  | .mmaMxfp4 _ f => [f.xg]
  | .mmaMxint8 _ f => [f.xg]
  | .mmaTern _ f => [f.xg]
  | .mclaim _ _ => []
  | .mrel _ _ => []
  | .mload _ _ => []
  | .mzero _ _ => []
  | .mresume _ => []
  | .astore _ f => [f.xg]
  | .astoreT _ f => [f.xg]
  | .aclr _ f => [f.xg]
  | .aload _ f => [f.xg]
  | .copy _ f => [f.xa, f.xb, f.xd]
  | .binscat _ f => [f.xa, f.xb, f.xd]
  | .migrate _ f => [f.xa, f.xb, f.xd]
  | .cresume _ f => [f.xa, f.xb, f.xd]
  | .cstatTl _ f => [f.xa, f.xb, f.xd]
  | .cstatStatus _ f => [f.xa, f.xb, f.xd]
  | .binset _ f => [f.xa, f.xb, f.xd]
  | .bindrop _ f => [f.xa, f.xb, f.xd]
  | .sbind _ f => [f.xd, f.xa]
  | .sunbind _ f => [f.xd, f.xa]
  | .sflush _ f => [f.xd, f.xa]
  | .sskip _ f => [f.xd, f.xa]
  | .smaxr _ f => [f.xd, f.xa]
  | .smaxc _ f => [f.xd, f.xa]
  | .sstat _ f => [f.xd, f.xa]
  | .sptest _ f => [f.xd, f.xa]
  | .spcast _ f => [f.xd, f.xa]
  | .grpsetWrite _ f => [f.xd, f.xa, f.xb]
  | .grpsetClaim _ f => [f.xd, f.xa, f.xb]
  | .grpsetRelease _ f => [f.xd, f.xa, f.xb]
  | .grpgetStore _ f => [f.xd, f.xa, f.xb]
  | .grpgetWord _ f => [f.xd, f.xa, f.xb]
  | .allred _ f => [f.xd, f.xa, f.xb]
  | .redsc _ f => [f.xd, f.xa, f.xb]
  | .allgat _ f => [f.xd, f.xa, f.xb]
  | .bcast _ f => [f.xd, f.xa, f.xb]
  | .owrite _ f => [f.xd, f.xa, f.xb]
  | .owred _ f => [f.xd, f.xa, f.xb]
  | .qparm _ f => [f.xd, f.xa, f.xb]
  | .rndwait _ f => [f.xd, f.xa, f.xb]
  | .slackr _ f => [f.xd, f.xa, f.xb]
  | .kresume _ f => [f.xd, f.xa, f.xb]
  | .fenceSc _ f => [f.xd, f.xa]
  | .fenceRel _ f => [f.xd, f.xa]
  | .fenceAcq _ f => [f.xd, f.xa]
  | .pfence _ f => [f.xd, f.xa]
  | .efence _ f => [f.xd, f.xa]
  | .vouch _ f => [f.xd, f.xa]
  | .waittl _ f => [f.xd, f.xa]
  | .tlread _ f => [f.xd, f.xa]
  | .semLd _ f => [f.xd, f.xh, f.xa, f.xb]
  | .semSt _ f => [f.xd, f.xh, f.xa, f.xb]
  | .semAdd _ f => [f.xd, f.xh, f.xa, f.xb]
  | .semCas _ f => [f.xd, f.xh, f.xa, f.xb]
  | .semMax _ f => [f.xd, f.xh, f.xa, f.xb]
  | .semSwap _ f => [f.xd, f.xh, f.xa, f.xb]
  | .semWait _ f => [f.xd, f.xh, f.xa, f.xb]
  | .bump _ f => [f.xd, f.xh, f.xa, f.xb]
  | .ldacq _ f => [f.xd, f.xa]
  | .strel _ f => [f.xd, f.xa]
  | .illegalInstruction _ => []
  | .rv64Load _ rd rs1 _ => [rd, rs1]
  | .rv64Store _ rs1 rs2 _ => [rs1, rs2]
  | .amo _ _ _ _ rd rs1 rs2 => [rd, rs1, rs2]
  | .lr _ _ _ rd rs1 => [rd, rs1]
  | .sc _ _ _ rd rs1 rs2 => [rd, rs1, rs2]
  | .rvFence _ _ _ rd rs1 => [rd, rs1]
  | .fenceI rd rs1 _ => [rd, rs1]
  | .ecall => []
  | .ebreak => []
  | .csrrw rd _ rs1 => [rd, rs1]
  | .csrrs rd _ rs1 => [rd, rs1]
  | .csrrc rd _ rs1 => [rd, rs1]
  | .csrrwi rd _ _ => [rd]
  | .csrrsi rd _ _ => [rd]
  | .csrrci rd _ _ => [rd]
  | .rv64Instruction op => match op with
    | .lui rd _ => [rd]
    | .auipc rd _ => [rd]
    | .jal rd _ => [rd]
    | .jalr rd rs1 _ => [rd, rs1]
    | .branch _ rs1 rs2 _ => [rs1, rs2]
    | .imm _ rd rs1 _ => [rd, rs1]
    | .sh _ rd rs1 _ => [rd, rs1]
    | .shw _ rd rs1 _ => [rd, rs1]
    | .reg _ rd rs1 rs2 => [rd, rs1, rs2]
    | .un _ rd rs1 => [rd, rs1]
  | .engineIssue _ _ => []
  | .vectorIssue _ => []
  | .vectorCompletion _ _ => []
  | .trapDelivery _ _ => []
  | .entryArrival _ _ _ => []
  | .outputDrain _ _ _ => []
  | .copyStart _ _ => []
  | .copyIteration _ _ => []
  | .copyCompletion _ _ => []
  | .binscatToken _ _ => []
  | .pageMove _ => []
  | .migrateCompletion _ => []
  | .tileSchedulerStart _ => []
  | .mclaimPerformed _ _ => []
  | .mloadLine _ _ => []
  | .astoreEntry _ _ => []
  | .aloadEntry _ _ => []
  | .puntyMark _ _ => []
  | .matrixCompletion _ _ => []
  | .matrixDeadlockPreemption _ => []
  | .pop _ _ => []
  | .imageLoaded _ _ => []
  | .park _ _ => []
  | .waitConditionMet _ _ => []
  | .eviction _ _ => []
  | .preEmption _ _ => []
  | .imageSaved _ _ => []
  | .ageStep _ => []
  | .retirement _ => []
  | .preload _ _ => []
  | .budgetTick => []
  | .budgetEnd _ _ => []
  | .droopHalving _ => []
  | .droopRestore _ => []
  | .allowanceUpdate => []
  | .thermalMove _ => []
  | .rotateDeadline _ => []
  | .hbmRefresh _ => []
  | .refreshEnd _ => []
  | .powerCapHalving => []
  | .powerCapRestore => []
  | .semaphoreScrub => []
  | .slackPublication => []
  | .controlFormPerformed _ => []
  | .contributionSend _ _ _ => []
  | .contributionArrival _ => []
  | .roundReduction _ _ => []
  | .resultDelivery _ _ _ => []
  | .closeNotice _ => []
  | .workEntryFire _ _ _ => []
  | .workEntryComplete _ _ _ => []
  | .heldFaultPost => []
  | .replayReady _ _ => []
  | .uncorrectableError _ _ _ => []
  | .gatedResponse _ => []
  | .remoteResend _ => []
  | .automaticWake _ => []
  | .qtlReached _ => []
  | .sealComplete _ => []
  | .resumption _ => []
  | .watchdog _ _ => []
  | .parityAlarm _ _ => []
  | .protocolAlarm _ _ => []
  | .vectorEngineReset _ => []
  | .matrixEngineReset _ => []
  | .copyEngineReset _ => []
  | .portProcessorReset _ => []
  | .coreReset _ => []
  | .dieReset _ => []
  | .packageReset => []
  | .rollingReset => []
  | .computeDomainLoss _ => []
  | .lehrDomainLoss _ => []
  | .lehrPowerReturn _ => []
  | .moduleInputLoss => []
  | .scan _ => []
  | .checkModeCompletion _ _ _ _ => []
  | .rotationSlice _ => []
  | .cstateConfigure _ => []
  | .cstateRun _ => []
  | .cstateFree _ => []
  | .cstateKill _ => []
  | .cgrant _ _ => []
  | .launchDoorbell _ _ => []
  | .lbud _ _ => []
  | .killl _ _ => []
  | .killc _ _ => []
  | .hans _ _ => []
  | .fansRetry _ _ => []
  | .fansDeny _ _ => []
  | .semd _ _ => []
  | .registerWrite _ _ _ => []
  | .fwgo _ => []
  | .firmwareVerification _ => []
  | .schfw _ => []
  | .partcfg _ => []
  | .mpwrPowerDown => []
  | .mpwrWake => []
  | .mpwrShutdown => []
  | .preset _ => []
  | .boot => []
  | .ismelInitialisation _ => []
  | .hostRead _ _ _ => []
  | .hostWrite _ _ _ => []
  | .functionLevelReset => []
  | .conventionalReset => []
  | .linkDown => []
  | .linkRetrain _ => []
  | .portTraining _ _ => []
  | .flitReplay _ => []
  | .quadrantThermalPowerDown _ => []
  | .quadrantThermalResume _ => []
  | .stackOverheatHalving _ => []
  | .thermalInputLoss => []
  | .getVersion => []
  | .getCapabilities => []
  | .negotiateAlgorithms => []
  | .getDigests => []
  | .getCertificate _ _ _ => []
  | .challenge _ _ => []
  | .getMeasurements _ _ => []
  | .vendorDefinedRequest _ => []
  | .unsupportedRequest _ => []
  | .stackOverheatRestore _ => []
  | .cdatDoeRequest _ => []
  | .hostCoherenceRequest _ => []

/-- The instruction names a register that a queued command has still to write: it waits until the value is there. -/
def interlocked (b : Bank) (i : Instr) : Bool := (scalarFields i).any fun r => b.pendX.contains r && r != 0

end Sys2Proof.Machine
end

