-- ==== Sys2Proof/Machine/Issue.lean ====
section
/-!
DEFINITION. Machine/Issue.lean: when a word of an issue queue issues (R31, R48, R407), and crew time (R278 to R280).
-/

namespace Sys2Proof.Machine

/-- PACE.GAP of a queue (R31); queue cc has none. -/
def Core.gap (c : Core) (q : Queue) : Nat :=
  match q with
  | .cc => 0
  | .vec => (SMap.get 0 c.pace 0).toNat
  | .mat => (SMap.get 0 c.pace 1).toNat
  | .c0 => (SMap.get 0 c.pace 2).toNat
  | .c1 => (SMap.get 0 c.pace 3).toNat
  | .c2 => (SMap.get 0 c.pace 4).toNat
  | .c3 => (SMap.get 0 c.pace 5).toNat
  | .col => (SMap.get 0 c.pace 6).toNat

/-- Gap after the previous issue that V and IDLE ask for (R48, R280). -/
def issueGap (c : Ctl) (gap : Nat) (crew : Bool) : Nat :=
  match c.v.toNat with
  | 0 => if crew then max 1 gap else gap
  | 1 => max c.idle.toNat gap
  | _ => max (max c.idle.toNat 1) gap

/-- The crew of a bank, where it is active and the queue is a member. -/
def crewOf (b : Bank) (q : Queue) : Option Crew :=
  match b.crew with
  | some w => if !w.suspended && bitAt w.mask (queueBit q) then some w else none
  | none => none

/-- The crew cycle at which a member word is due (R280). -/
def crewDue (w : Crew) (q : Queue) (c : Ctl) (gap : Nat) : Nat :=
  SMap.get 0 w.last (queueBit q) + issueGap c gap true

/-- A collective operation, as opposed to a control form (R286, R407). -/
def KKind.isOp : KKind → Bool
  | .allred | .redsc | .allgat | .bcast | .owrite | .owred | .kresume => true
  | _ => false

/-- The next unissued word of a task in each engine queue: queue, V and IDLE, place in program order, and the range the
range checker compares. -/
def Core.heads (c : Core) (uid : Nat) : List (Queue × Ctl × Nat × Option SpadRange) :=
  (((c.vq.filter fun v => v.uid == uid && !v.issued).head?.map fun v => (Queue.vec, v.ctl, v.seq, v.range)).toList)
  ++ (((c.mq.filter fun m => m.uid == uid && !m.entered).head?.map fun m => (Queue.mat, m.ctl, m.seq, none)).toList)
  ++ (c.cq.flatMap fun e =>
      ((e.2.filter fun k => k.uid == uid && !k.issued).head?.map fun k => (unitQueue e.1, k.ctl, k.seq, some none)).toList)
  ++ (((c.kq.filter fun k => k.uid == uid && !k.issued).head?.map fun k =>
      (Queue.col, k.ctl, k.seq, if k.kind.isOp then some none else none)).toList)

/-- A command of a bank that the range checker compares: of the task itself, or of one that retires on the bank. -/
def Core.compares (c : Core) (bk uid b u : Nat) : Bool := b == bk && (u == uid || c.tracker.any fun t => t.uid == u)

/-- The queued V = 0 commands of a bank that name a range, with their places in program order (R407). -/
def Core.ranged (c : Core) (bk uid : Nat) : List (Nat × SpadRange) :=
  (c.vq.filterMap fun v =>
      if c.compares bk uid v.bank v.uid && !v.issued && v.ctl.v == 0 then v.range.map fun r => (v.seq, r) else none)
  ++ (c.cq.flatMap fun e => e.2.filterMap fun k =>
      if c.compares bk uid k.bank k.uid && !k.issued && k.ctl.v == 0 then some (k.seq, none) else none)
  ++ (c.kq.filterMap fun k =>
      if c.compares bk uid k.bank k.uid && !k.issued && k.ctl.v == 0 && k.kind.isOp then some (k.seq, none) else none)

/-- The range checker lets a V = 0 command pass: no earlier queued one of the bank meets its range, and fewer than 32
are compared (R32, R33, R407). -/
def rangeOk (c : Core) (bk uid seq : Nat) (r : Option SpadRange) : Bool :=
  match r with
  | none => true
  | some r =>
    let earlier := (c.ranged bk uid).filter fun e => decide (e.1 < seq)
    decide (earlier.length < 32) && earlier.all fun e => !rangesMeet e.2 r

/-- Every word that the bank has queued for the members of its crew is due no earlier than `due`; a V = 0 word is not due before
the range checker lets it pass (R280). -/
def crewTurn (c : Core) (b : Bank) (bk uid due : Nat) : Bool :=
  (c.heads uid).all fun h =>
    match crewOf b h.1 with
    | none => true
    | some w => (h.2.1.v == 0 && !rangeOk c bk uid h.2.2.1 h.2.2.2) || decide (due ≤ crewDue w h.1 h.2.1 (c.gap h.1))

/-- The parcel at an offset of a core's instruction memory (R43). -/
def State.parcel (s : State) (ck off : Nat) : BitVec 32 := BitVec.ofNat 32 (s.readLoc (imemLoc ck off) 4)

/-- The issue queue of an opcode; `tu` is the transfer unit that a copy-class word names (R47, R59). -/
def opcQueue (opc tu : Nat) : Queue :=
  match opc / 64 with
  | 1 | 2 => .vec
  | 3 => .mat
  | 4 => if opc ≤ 0x104 then unitQueue tu else .cc
  | 5 => .col
  | _ => .cc

/-- What lies ahead of the control core for a queue: its next word in straight-line code; no word that a crew counts before the crew
ends or queue cc has to issue; or a branch comes first. -/
inductive Ahead
  | word (c : Ctl)
  | nothing
  | branch
deriving DecidableEq, Repr

/-- The next word of a queue in program order from `pc` on (R279, R280). Where cc is a member, a counted word of cc stands before
whatever comes after it; catch, easy, tail, tret and kill end the crew's words. -/
def State.lookAhead (s : State) (ck : Nat) (ccMember : Bool) (q : Queue) : Nat → Nat → Ahead
  | 0, _ => .branch
  | n + 1, pc =>
    if 0x40000 ≤ pc then .nothing
    else
      let p := s.parcel ck pc
      if parcelBytes p = 8 then
        let w := s.parcel ck (pc + 4) ++ p
        let opc := (w.extractLsb' 19 9).toNat
        let k := opcQueue opc (w.extractLsb' 62 2).toNat
        if k = q && (q != .cc || ccMember) then .word (decCtl w)
        else if (k = .cc && ccMember) || [0x001, 0x002, 0x006, 0x021, 0x022].contains opc then .nothing
        else if opc = 0x098 || opc = 0x026 then .branch
        else s.lookAhead ck ccMember q n (pc + 8)
      else if [0x63, 0x67, 0x6F].contains (p.extractLsb' 0 7).toNat || (p.extractLsb' 0 7 = 0x73 && p.extractLsb' 12 3 = 0) then .branch
      else s.lookAhead ck ccMember q n (pc + 4)

/-- No member word that is due before `due` has still to reach its queue (R280): each member queue holds an unissued word, or the
next word that the control core brings it is due no earlier, or none comes. Which word follows a branch is not known before the
control core takes it: it is waited for unless the control core is itself held there (DEDUCED: log 55). -/
def supplied (s : State) (bk uid due : Nat) (w : Crew) : Bool :=
  let b := s.bank bk
  let c := s.core (keyCore bk)
  [Queue.cc, .vec, .mat, .c0, .c1, .c2, .c3, .col].all fun q =>
    let last := SMap.get 0 w.last (queueBit q)
    !bitAt w.mask (queueBit q) || (c.heads uid).any (fun h => h.1 == q) || decide (due ≤ last + c.gap q) ||
    match s.lookAhead (keyCore bk) (bitAt w.mask 0) q 0x10000 b.pc.toNat with
    | .word k => decide (due ≤ last + issueGap k (c.gap q) true)
    | .nothing => true
    | .branch => b.stuck || b.wait.isSome

/-- The crew is not frozen at `due` by what the control core does (R280): it does not wait by R199 as a member, and every word
due before has reached its queue. -/
def crewFlows (s : State) (bk uid due : Nat) (w : Crew) : Bool :=
  let b := s.bank bk
  b.uid != some uid || b.st != .running || (!(bitAt w.mask 0 && b.wait.isSome) && supplied s bk uid due w)

/-- Key of a queue in Core.lastIssue. -/
def issueKey (q : Queue) (bk : Nat) : Nat :=
  match q with
  | .cc => 16 + keyBank bk
  | q => queueBit q

/-- The gap after the previous issue of the queue has passed (R31, R48). -/
def gapPassed (s : State) (bk : Nat) (q : Queue) (c : Ctl) : Bool :=
  let k := s.core (keyCore bk)
  match SMap.find k.lastIssue (issueKey q bk) with
  | none => true
  | some t => decide (t + issueGap c (k.gap q) false ≤ s.coreClock (keyCore bk))

/-- A word may issue: after its gap, and where its queue is a crew member in its turn of crew time. -/
def mayIssue (s : State) (bk uid : Nat) (q : Queue) (c : Ctl) : Bool :=
  let b := (s.home bk uid).getD Bank.reset
  let k := s.core (keyCore bk)
  match crewOf b q with
  | some w =>
    let d := crewDue w q c (k.gap q)
    gapPassed s bk q c && crewTurn k b bk uid d && (q == .cc || crewFlows s bk uid d w)
  | none => gapPassed s bk q c

/-- A member word that its suspended crew holds back (R281). -/
def heldByCrew (b : Bank) (q : Queue) (seq : Nat) : Bool :=
  match b.crew with
  | some w => w.suspended && bitAt w.mask (queueBit q) && decide (seq < w.heldSeq)
  | none => false

/-- Recording an issue: its cycle, and for a member of a crew its crew cycle. -/
def stampIssue (s : State) (bk uid : Nat) (q : Queue) (c : Ctl) : State :=
  let b := (s.home bk uid).getD Bank.reset
  let k := s.core (keyCore bk)
  let s := s.setCore (keyCore bk) { k with lastIssue := SMap.put k.lastIssue (issueKey q bk) (s.coreClock (keyCore bk)) }
  match crewOf b q with
  | some w =>
    let d := if c.v = 0 then max w.time (crewDue w q c (k.gap q)) else crewDue w q c (k.gap q)
    s.modHome bk uid fun b =>
      { b with stuck := false, crew := some { w with time := max w.time d, last := SMap.put w.last (queueBit q) d } }
  | none => s

/-- The start of every word of queue cc: the crew check of R62 step 6, then its turn (R48, R280). -/
def ccStart (s : State) (c : Ctl) : Except Stop State :=
  match checkCrew s c .cc with
  | .error e => .error e
  | .ok _ =>
    let uid := (s.bank s.me).uid.getD 0
    if mayIssue s s.me uid .cc c then .ok (stampIssue s s.me uid .cc c) else .error .stall

/-- Program order between queues: the place of the bank's next engine command. -/
def Bank.nextSeq (b : Bank) : Bank := { b with seq := b.seq + 1 }

/-- A queue of a mask holds an unissued word of the task. -/
def maskBusy (c : Core) (uid : Nat) (mask : BitVec 8) : Bool := (c.heads uid).any fun h => bitAt mask (queueBit h.1)

/-- The deterministic seed of a bank's launch, whether it runs in deterministic operation. -/
def State.myLaunch (s : State) (bk : Nat) : Option Launch :=
  ((s.bank bk).uid.bind s.task).bind s.launchOf
def State.myTask (s : State) (bk : Nat) : Option Task := (s.bank bk).uid.bind s.task

end Sys2Proof.Machine
end

