-- ==== Sys2Proof/Machine/VecIssue.lean ====
section
/-!
DEFINITION. Machine/VecIssue.lean: what every row of the vector queue does when the control core issues it: field
checks in the order of R62, the entries it takes from streams (R51, R107), its number on tl4 (R111) and its place in the
queue (R32, R33).
-/

namespace Sys2Proof.Machine

/-- The opcode of an operation (R59). -/
def VOp.opc : VOp → Nat
  | .add => 0x040 | .sub => 0x041 | .mul => 0x042 | .fma => 0x043 | .fms => 0x044 | .fnma => 0x045
  | .min => 0x046 | .max => 0x047 | .div => 0x048 | .amin => 0x049 | .amax => 0x04A | .sadd => 0x04B
  | .ssub => 0x04C | .mulh => 0x04D | .dot2 => 0x04E | .dot4 => 0x04F | .and => 0x050 | .or => 0x051
  | .xor => 0x052 | .andn => 0x053 | .sll => 0x054 | .srl => 0x055 | .sra => 0x056 | .sel => 0x057
  | .addi => 0x058 | .mini => 0x059 | .maxi => 0x05A | .andi => 0x05B | .xori => 0x05C | .slli => 0x05D
  | .srli => 0x05E | .srai => 0x05F | .addx => 0x060 | .subx => 0x061 | .mulx => 0x062 | .fmax => 0x063
  | .minx => 0x064 | .maxx => 0x065 | .bcast => 0x066 | .scalex => 0x067 | .fn => 0x068 | .neg => 0x069
  | .abs => 0x06A | .cls => 0x06B | .bits => 0x06C | .cvt => 0x06D | .rint => 0x06E | .rsum => 0x070
  | .rmax => 0x071 | .rmin => 0x072 | .ramax => 0x073 | .scan => 0x074 | .cmp => 0x075 | .ld => 0x080
  | .st => 0x081 | .gath => 0x082 | .scat => 0x083 | .scadd => 0x084 | .mov => 0x087 | .perm => 0x088
  | .rev => 0x089 | .zip => 0x08A | .unzip => 0x08B | .trn => 0x08C | .slide => 0x08D | .rotl => 0x08E
  | .bcl => 0x08F | .plog => 0x090 | .pcnt => 0x091 | .pfirst => 0x092 | .pfromx => 0x093 | .ptox => 0x094
  | .pwhile => 0x095 | .resume => 0x099

/-- A command with no operand. -/
def VCmd.blank (op : VOp) : VCmd where
  op := op
  bank := 0
  uid := 0
  ctl := ⟨0, 0⟩
  opc := op.opc
  tl := 0
  vd := .none
  va := .none
  vb := .none
  pg := none
  pd := 0
  pa := 0
  pb := 0
  pc := 0
  ty := 0
  etd := 0
  rm := 0
  sat := false
  imm := 0
  fn := 0
  sx := 0
  sy := 0
  xd := 0
  seed := 0
  issued := false
  res := none
  seq := 0
  cap := none
  range := none
  done := 0
  full := false
  again := []
  tags := 0
  owed := 0
  stop := none

/-- A memory instruction (R136, R138). -/
def VOp.isMem : VOp → Bool
  | .ld | .st | .gath | .scat | .scadd => true
  | _ => false

/-- A queued vector command of a task took a given entry of a stream (R219). -/
def vecTakesEntry (c : Core) (uid sn e : Nat) : Bool :=
  c.vq.any fun v => v.uid == uid && (v.va == .stream sn e || v.vb == .stream sn e)

/-- The first stopped input stream whose stopped entry a queued vector command took (R219). -/
def stoppedVecStream (c : Core) (b : Bank) (uid : Nat) : Option (Nat × Stream) :=
  b.streams.find? fun e => e.2.stop != 0 && e.2.dir == 0 && vecTakesEntry c uid e.1 e.2.next

/-- The trap of a stopped stream. -/
def trapStream : Option (Nat × Stream) → Except Stop Unit
  | some (n, st) => .error (.streamStop n st.stopCause st.stopAddr)
  | none => .ok ()

/-- Entering the vector queue: stopped work traps (R194, R219); the entries named are taken in the order VA, VB (or VI),
VD (R51, R211); a full queue stalls (R33); the command takes its number (R111). A scalar result is pending until it is
written (R107). -/
def enterVec (s : State) (c : Ctl) (m : VCmd) : Except Stop State := do
  let bk := s.me
  let k := s.core (keyCore bk)
  let b := s.bank bk
  let uid := b.uid.getD 0
  trapStopped (trapV k uid)
  trapStream (stoppedVecStream k b uid)
  let (va, b') ← takeLoc b m.va
  let (vb, b') ← takeLoc b' m.vb
  let (vd, b') ← takeLoc b' m.vd
  need (decide (k.vq.length < 512)) .stall
  let m := { m with
    va := va, vb := vb, vd := vd, bank := bk, uid := uid, ctl := c, tl := b.tlNext 4, seq := b.seq,
    seed := ((s.myLaunch bk).map (·.seed)).getD 0 }
  let b' := (b'.tlGive 4).nextSeq
  let b' := if m.xd = 0 then b' else { b' with pendX := b'.pendX ++ [m.xd] }
  return (s.setBank bk b').setCore (keyCore bk) { k with vq := k.vq ++ [m] }

/-- A word of the vector queue: the crew check of R62, its fields, the queue. -/
def issueVec (c : Ctl) (s : State) (build : Bank → Except Stop VCmd) : Out :=
  perform s 8 do
    checkCrew s c .vec
    let m ← build (s.bank s.me)
    enterVec s c m

/-- The dynamic rounding mode where the operation rounds a floating type (R55, R116). -/
def vecMode (b : Bank) (op : VOp) (ty : Nat) (vd : VLoc) : Except Stop Nat :=
  if op.rounds && decide (ty ≤ 4) then dynMode b vd.isStream else .ok 0

/-- How VD is used (R50). -/
def VOp.dest (op : VOp) : Use := if op.accumulates then .acc else .write

/-- Formats VVV (R57): VD, VA, VB, TY from the highest field downwards. -/
def buildVvv (op : VOp) (f : FVvv) (b : Bank) : Except Stop VCmd := do
  let ty := f.ty.toNat
  let vd ← vField b f.vd op.dest [op.resultTy ty] none 55
  let va ← vField b f.va .read [ty] none 46
  let vb ← vField b f.vb .read [ty] none 37
  need (decide (ty ≤ 6) && op.accepts ty) (badOp 0x15 28)
  let rm ← vecMode b op ty vd
  return { VCmd.blank op with vd := vd, va := va, vb := vb, pg := pgField b f.pg, ty := ty, rm := rm }

/-- The immediates a VVI form accepts (R120, R135). -/
def immOk (op : VOp) (ty : Nat) (imm : BitVec 9) : Bool :=
  let w := etWidth ty
  let v := imm.toInt
  match op with
  | .slli | .srli | .srai => bits imm 8 5 == 0 && decide (bits imm 4 0 < w)
  | .bcl => decide (0 ≤ v) && decide (v < lanes w)
  | .slide | .rotl => true
  | _ => ty != 6 || (decide (-128 ≤ v) && decide (v ≤ 127))

/-- Format VVI. -/
def buildVvi (op : VOp) (f : FVvi) (b : Bank) : Except Stop VCmd := do
  let ty := f.ty.toNat
  let vd ← vField b f.vd op.dest [op.resultTy ty] none 55
  let va ← vField b f.va .read [ty] none 46
  need (decide (ty ≤ 6) && op.accepts ty) (badOp 0x15 37)
  need (immOk op ty f.imm) (badOp 0x19 28)
  return { VCmd.blank op with vd := vd, va := va, pg := pgField b f.pg, ty := ty, imm := f.imm.toInt }

/-- Format VVX: the scalar is read now (R121); vbcast has no VA. -/
def buildVvx (op : VOp) (s : State) (f : FVvx) (b : Bank) : Except Stop VCmd := do
  let ty := f.ty.toNat
  let vd ← vField b f.vd op.dest [op.resultTy ty] none 55
  let va ← if op = .bcast then .ok .none else vField b f.va .read [ty] none 46
  need (decide (ty ≤ 6) && op.accepts ty) (badOp 0x15 32)
  let rm ← vecMode b op ty vd
  return { VCmd.blank op with vd := vd, va := va, pg := pgField b f.pg, ty := ty, rm := rm, sx := s.rx s.me f.xs }

/-- The FN codes a VRD form accepts (R124, R125). -/
def fnOk (op : VOp) (fn : Nat) : Bool :=
  match op with
  | .bits => decide (fn ≤ 4)
  | .fn => decide (fn ≤ 11)
  | _ => true

/-- Format VRD. -/
def buildVrd (op : VOp) (f : FVrd) (b : Bank) : Except Stop VCmd := do
  let ty := f.ty.toNat
  let vd ← vField b f.vd op.dest [op.resultTy ty] none 55
  let va ← vField b f.va .read [ty] none 46
  need (decide (ty ≤ 6) && op.accepts ty) (badOp 0x15 37)
  need (fnOk op f.fn.toNat) (badOp 0x19 31)
  let rm ← vecMode b op ty vd
  return { VCmd.blank op with vd := vd, va := va, pg := pgField b f.pg, ty := ty, rm := rm, fn := f.fn.toNat }

/-- Blocks of an MX operand against its other side (R127). -/
def mxBlocks (et other : Nat) : Option Nat := if isMxEt et then some (if other = 0 then 2 else 4) else none

/-- The pairs of types that vcvt accepts (R128). -/
def cvtPair (ets etd : Nat) : Bool :=
  let float := fun k => decide (k ≤ 2)
  ((decide (ets ≤ 6) || ets == 14) && decide (etd ≤ 6)) || (float ets && isMxEt etd) || (isMxEt ets && float etd)

/-- Format VCV of vcvt (R126 to R128). -/
def buildCvt (f : FVcv) (b : Bank) : Except Stop VCmd := do
  let ets := f.ets.toNat
  let etd := f.etd.toNat
  let vd ← vField b f.vd .write [etd] (mxBlocks etd ets) 55
  let va ← vField b f.va .read [ets] (mxBlocks ets etd) 46
  need (f.pg == 0 || !(isMxEt ets || isMxEt etd)) (badOp 0x19 40)
  need (ets != 7 && ets != 15) (badOp 0x15 36)
  need (cvtPair ets etd) (badOp 0x15 32)
  let rm ← fieldMode b f.rm.toNat vd.isStream 29
  return { VCmd.blank .cvt with vd := vd, va := va, pg := pgField b f.pg, ty := ets, etd := etd, rm := rm, sat := f.sat == 1 }

/-- Format VCV of vrint (R129). -/
def buildRint (f : FVcv) (b : Bank) : Except Stop VCmd := do
  let ets := f.ets.toNat
  let etd := f.etd.toNat
  let vd ← vField b f.vd .write [etd] none 55
  let va ← vField b f.va .read [ets] none 46
  need (ets != 7 && ets != 15) (badOp 0x15 36)
  need (ets == etd && decide (ets ≤ 2)) (badOp 0x15 32)
  let rm ← fieldMode b f.rm.toNat vd.isStream 29
  need (f.sat == 0) (badOp 0x19 28)
  return { VCmd.blank .rint with vd := vd, va := va, pg := pgField b f.pg, ty := ets, etd := etd, rm := rm }

/-- Format PVV of vcmp (R132): CC 6 and 7 only with a floating type (R56). -/
def buildCmp (f : FPvv) (b : Bank) : Except Stop VCmd := do
  let ty := f.ty.toNat
  let va ← vField b f.va .read [ty] none 49
  let vb ← vField b f.vb .read [ty] none 40
  need (decide (ty ≤ 6)) (badOp 0x15 31)
  need (decide (ty ≤ 4) || decide (f.cc.toNat ≤ 5)) (badOp 0x15 28)
  return { VCmd.blank .cmp with va := va, vb := vb, pg := pgField b f.pg, pd := pField b f.pd.toNat, ty := ty, fn := f.cc.toNat }

/-- Format PPP of plog (R133). -/
def buildPlog (f : FPpp) (b : Bank) : Except Stop VCmd :=
  .ok { VCmd.blank .plog with
    pd := pField b f.pd.toNat, pa := pField b f.pa.toNat, pb := pField b f.pb.toNat, pc := pField b f.pc.toNat,
    fn := f.tt.toNat }

/-- The FN codes of a PXF form (R134): ptox names a chunk that the element count has. -/
def pxfFn (op : VOp) (ty fn : Nat) : Bool :=
  match op with
  | .pfirst | .pfromx => decide (fn ≤ 1)
  | .ptox => decide (fn ≤ 3) && decide (64 * fn < lanes (etWidth ty))
  | _ => true

/-- Format PXF of the predicate instructions (R134): scalars are read now. -/
def buildPxf (op : VOp) (s : State) (f : FPxf) (b : Bank) : Except Stop VCmd := do
  let ty := f.ty.toNat
  need (decide (ty ≤ 6)) (badOp 0x15 45)
  need (pxfFn op ty f.fn.toNat) (badOp 0x19 41)
  let toX := match op with
    | .pcnt | .pfirst | .ptox => true
    | _ => false
  return { VCmd.blank op with
    pd := pField b f.pd.toNat, ty := ty, fn := f.fn.toNat, sx := s.rx s.me f.xa, sy := s.rx s.me f.xd,
    xd := if toX then f.xd else 0 }

/-! ### Memory forms (R136 to R138) -/

/-- A register field VT (R50, R136). -/
def vtField (b : Bank) (vt : BitVec 9) : Except Stop VLoc := vField b vt .reg [] none 55

/-- Whether a predicate still has a writer in the queue. -/
def predPending (c : Core) (uid p : Nat) : Bool :=
  c.vq.any fun v => v.uid == uid && v.pd == p && match v.op with
    | .cmp | .plog | .pfromx | .pwhile => true
    | _ => false

/-- A predicate as a vector word that comes next reads it; none while that is still open. A V = 2 word of the crew reads the exposed
results written by its due crew cycle, any other word all of them (R110). -/
def predFor (c : Core) (b : Bank) (uid : Nat) (x : Ctl) (p : Nat) : Option PReg :=
  let writers := b.exposed.filter fun e => e.cmd.pd == p && (e.cmd.res.bind (·.pd)).isSome
  if predPending c uid p then none
  else if writers.isEmpty then some (b.readP p)
  else if c.vq.any fun v => v.uid == uid && !v.issued then none
  else
    let due := match crewOf b .vec with
      | some w => if x.v = 2 then some (crewDue w .vec x (c.gap .vec)) else none
      | none => none
    let seen := writers.filter fun e => due.all fun d => decide (e.due ≤ d)
    let last := seen.foldl (fun (best : Option Exposed) e => match best with
      | none => some e
      | some f => if f.due < e.due || (f.due == e.due && decide (f.cmd.seq < e.cmd.seq)) then some e else some f) none
    some ((last.bind fun e => e.cmd.res.bind (·.pd)).getD (b.readP p))

/-- The address checks of vld and vst at issue, in ascending element order (R137). -/
def checkRun (s : State) (ag : Agent) (p : Option PReg) (w misaligned : Nat) (a : Word) : List Nat → Except Stop Unit
  | [] => .ok ()
  | i :: is =>
    if !active p w i then checkRun s ag p w misaligned a is
    else
      let va := a + w64 (i * w / 8)
      match window s ag va with
      | .error e => .error e
      | .ok _ =>
        if va.toNat % (w / 8) = 0 then checkRun s ag p w misaligned a is else .error (.trap misaligned va)

/-- The range that vld and vst name for the range checker (R407). -/
def runRange (s : State) (ag : Agent) (a : Word) : Option (Option (Nat × Nat × Nat)) :=
  match parseWindow s ag a with
  | some (_, .spad key off) => some (some (key, off, 256))
  | _ => none

/-- Format VMA of vld and vst (R136, R137): a governing predicate that a queued command has still to write is awaited,
because the checks need it. -/
def buildVma (op : VOp) (c : Ctl) (s : State) (f : FVma) (b : Bank) : Except Stop VCmd := do
  let et := f.et.toNat
  let vt ← vtField b f.vt
  need (decide (et ≤ 6)) (badOp 0x15 40)
  let ag := s.agent s.me
  let a := s.rx s.me f.xb + sx64 f.off * 256
  let w := etWidth et
  let pg := pgField b f.pg
  let read := pg.map fun p => predFor (s.core ag.key) b ag.uid c p
  need (read.all (·.isSome)) .stall
  checkRun s ag (read.map (·.getD 0)) w (if op = .ld then 4 else 6) a (List.range (lanes w))
  return { VCmd.blank op with vd := vt, pg := pg, ty := et, sx := a, range := runRange s ag a }

/-- The formats that VI accepts from a stream (R108, R138): those whose elements have the width of ET, the model's reading of "the
matching integer or data type" (DEDUCED: log 51). -/
def indexFmts (et : Nat) : List Nat := (List.range 7).filter fun k => etWidth k == etWidth et

/-- Format VG (R138). -/
def buildVg (op : VOp) (s : State) (f : FVg) (b : Bank) : Except Stop VCmd := do
  let et := f.et.toNat
  let vt ← vtField b f.vt
  let vi ← vField b f.vi .read (indexFmts et) none 41
  need (decide (et ≤ 6) && op.accepts et) (badOp 0x15 31)
  return { VCmd.blank op with
    vd := vt, vb := vi, pg := pgField b f.pg, ty := et, sx := s.rx s.me f.xb, fn := f.sh.toNat,
    range := some none }

/-! ### The rows of VVV, VVI, VVX, VRD, VCV, PVV, PPP and PXF -/

/-- VADD (R117). -/
def execVadd (c : Ctl) (f : FVvv) (s : State) : Out := issueVec c s (buildVvv .add f)

/-- VSUB (R117). -/
def execVsub (c : Ctl) (f : FVvv) (s : State) : Out := issueVec c s (buildVvv .sub f)

/-- VMUL (R117). -/
def execVmul (c : Ctl) (f : FVvv) (s : State) : Out := issueVec c s (buildVvv .mul f)

/-- VFMA (R117). -/
def execVfma (c : Ctl) (f : FVvv) (s : State) : Out := issueVec c s (buildVvv .fma f)

/-- VFMS (R117). -/
def execVfms (c : Ctl) (f : FVvv) (s : State) : Out := issueVec c s (buildVvv .fms f)

/-- VFNMA (R117). -/
def execVfnma (c : Ctl) (f : FVvv) (s : State) : Out := issueVec c s (buildVvv .fnma f)

/-- VMIN (R117). -/
def execVmin (c : Ctl) (f : FVvv) (s : State) : Out := issueVec c s (buildVvv .min f)

/-- VMAX (R117). -/
def execVmax (c : Ctl) (f : FVvv) (s : State) : Out := issueVec c s (buildVvv .max f)

/-- VDIV (R117). -/
def execVdiv (c : Ctl) (f : FVvv) (s : State) : Out := issueVec c s (buildVvv .div f)

/-- VAMIN (R117). -/
def execVamin (c : Ctl) (f : FVvv) (s : State) : Out := issueVec c s (buildVvv .amin f)

/-- VAMAX (R117). -/
def execVamax (c : Ctl) (f : FVvv) (s : State) : Out := issueVec c s (buildVvv .amax f)

/-- VSADD (R117). -/
def execVsadd (c : Ctl) (f : FVvv) (s : State) : Out := issueVec c s (buildVvv .sadd f)

/-- VSSUB (R117). -/
def execVssub (c : Ctl) (f : FVvv) (s : State) : Out := issueVec c s (buildVvv .ssub f)

/-- VMULH (R117). -/
def execVmulh (c : Ctl) (f : FVvv) (s : State) : Out := issueVec c s (buildVvv .mulh f)

/-- VDOT2 (R119). -/
def execVdot2 (c : Ctl) (f : FVvv) (s : State) : Out := issueVec c s (buildVvv .dot2 f)

/-- VDOT4 (R119). -/
def execVdot4 (c : Ctl) (f : FVvv) (s : State) : Out := issueVec c s (buildVvv .dot4 f)

/-- VAND (R117). -/
def execVand (c : Ctl) (f : FVvv) (s : State) : Out := issueVec c s (buildVvv .and f)

/-- VOR (R117). -/
def execVor (c : Ctl) (f : FVvv) (s : State) : Out := issueVec c s (buildVvv .or f)

/-- VXOR (R117). -/
def execVxor (c : Ctl) (f : FVvv) (s : State) : Out := issueVec c s (buildVvv .xor f)

/-- VANDN (R117). -/
def execVandn (c : Ctl) (f : FVvv) (s : State) : Out := issueVec c s (buildVvv .andn f)

/-- VSLL (R117). -/
def execVsll (c : Ctl) (f : FVvv) (s : State) : Out := issueVec c s (buildVvv .sll f)

/-- VSRL (R117). -/
def execVsrl (c : Ctl) (f : FVvv) (s : State) : Out := issueVec c s (buildVvv .srl f)

/-- VSRA (R117). -/
def execVsra (c : Ctl) (f : FVvv) (s : State) : Out := issueVec c s (buildVvv .sra f)

/-- VSEL (R118). -/
def execVsel (c : Ctl) (f : FVvv) (s : State) : Out := issueVec c s (buildVvv .sel f)

/-- VPERM (R135). -/
def execVperm (c : Ctl) (f : FVvv) (s : State) : Out := issueVec c s (buildVvv .perm f)

/-- VZIP (R135). -/
def execVzip (c : Ctl) (f : FVvv) (s : State) : Out := issueVec c s (buildVvv .zip f)

/-- VUNZIP (R135). -/
def execVunzip (c : Ctl) (f : FVvv) (s : State) : Out := issueVec c s (buildVvv .unzip f)

/-- VTRN (R135). -/
def execVtrn (c : Ctl) (f : FVvv) (s : State) : Out := issueVec c s (buildVvv .trn f)

/-- VADDI (R120). -/
def execVaddi (c : Ctl) (f : FVvi) (s : State) : Out := issueVec c s (buildVvi .addi f)

/-- VMINI (R120). -/
def execVmini (c : Ctl) (f : FVvi) (s : State) : Out := issueVec c s (buildVvi .mini f)

/-- VMAXI (R120). -/
def execVmaxi (c : Ctl) (f : FVvi) (s : State) : Out := issueVec c s (buildVvi .maxi f)

/-- VANDI (R120). -/
def execVandi (c : Ctl) (f : FVvi) (s : State) : Out := issueVec c s (buildVvi .andi f)

/-- VXORI (R120). -/
def execVxori (c : Ctl) (f : FVvi) (s : State) : Out := issueVec c s (buildVvi .xori f)

/-- VSLLI (R120). -/
def execVslli (c : Ctl) (f : FVvi) (s : State) : Out := issueVec c s (buildVvi .slli f)

/-- VSRLI (R120). -/
def execVsrli (c : Ctl) (f : FVvi) (s : State) : Out := issueVec c s (buildVvi .srli f)

/-- VSRAI (R120). -/
def execVsrai (c : Ctl) (f : FVvi) (s : State) : Out := issueVec c s (buildVvi .srai f)

/-- VSLIDE (R135). -/
def execVslide (c : Ctl) (f : FVvi) (s : State) : Out := issueVec c s (buildVvi .slide f)

/-- VROTL (R135). -/
def execVrotl (c : Ctl) (f : FVvi) (s : State) : Out := issueVec c s (buildVvi .rotl f)

/-- VBCL (R135). -/
def execVbcl (c : Ctl) (f : FVvi) (s : State) : Out := issueVec c s (buildVvi .bcl f)

/-- VADDX (R121). -/
def execVaddx (c : Ctl) (f : FVvx) (s : State) : Out := issueVec c s (buildVvx .addx s f)

/-- VSUBX (R121). -/
def execVsubx (c : Ctl) (f : FVvx) (s : State) : Out := issueVec c s (buildVvx .subx s f)

/-- VMULX (R121). -/
def execVmulx (c : Ctl) (f : FVvx) (s : State) : Out := issueVec c s (buildVvx .mulx s f)

/-- VMINX (R121). -/
def execVminx (c : Ctl) (f : FVvx) (s : State) : Out := issueVec c s (buildVvx .minx s f)

/-- VMAXX (R121). -/
def execVmaxx (c : Ctl) (f : FVvx) (s : State) : Out := issueVec c s (buildVvx .maxx s f)

/-- VBCAST (R121). -/
def execVbcast (c : Ctl) (f : FVvx) (s : State) : Out := issueVec c s (buildVvx .bcast s f)

/-- VSCALEX (R121). -/
def execVscalex (c : Ctl) (f : FVvx) (s : State) : Out := issueVec c s (buildVvx .scalex s f)

/-- VFMAX (R121). -/
def execVfmax (c : Ctl) (f : FVvx) (s : State) : Out := issueVec c s (buildVvx .fmax s f)

/-- VFN (R125). -/
def execVfn (c : Ctl) (f : FVrd) (s : State) : Out := issueVec c s (buildVrd .fn f)

/-- VNEG (R122). -/
def execVneg (c : Ctl) (f : FVrd) (s : State) : Out := issueVec c s (buildVrd .neg f)

/-- VABS (R122). -/
def execVabs (c : Ctl) (f : FVrd) (s : State) : Out := issueVec c s (buildVrd .abs f)

/-- VCLASS (R123). -/
def execVclass (c : Ctl) (f : FVrd) (s : State) : Out := issueVec c s (buildVrd .cls f)

/-- VBITS (R124). -/
def execVbits (c : Ctl) (f : FVrd) (s : State) : Out := issueVec c s (buildVrd .bits f)

/-- VRSUM (R130). -/
def execVrsum (c : Ctl) (f : FVrd) (s : State) : Out := issueVec c s (buildVrd .rsum f)

/-- VRMAX (R130). -/
def execVrmax (c : Ctl) (f : FVrd) (s : State) : Out := issueVec c s (buildVrd .rmax f)

/-- VRMIN (R130). -/
def execVrmin (c : Ctl) (f : FVrd) (s : State) : Out := issueVec c s (buildVrd .rmin f)

/-- VRAMAX (R130). -/
def execVramax (c : Ctl) (f : FVrd) (s : State) : Out := issueVec c s (buildVrd .ramax f)

/-- VSCAN (R131). -/
def execVscan (c : Ctl) (f : FVrd) (s : State) : Out := issueVec c s (buildVrd .scan f)

/-- VMOV (R122). -/
def execVmov (c : Ctl) (f : FVrd) (s : State) : Out := issueVec c s (buildVrd .mov f)

/-- VREV (R135). -/
def execVrev (c : Ctl) (f : FVrd) (s : State) : Out := issueVec c s (buildVrd .rev f)

/-- VCVT (R126). -/
def execVcvt (c : Ctl) (f : FVcv) (s : State) : Out := issueVec c s (buildCvt f)

/-- VRINT (R129). -/
def execVrint (c : Ctl) (f : FVcv) (s : State) : Out := issueVec c s (buildRint f)

/-- VCMP (R132). -/
def execVcmp (c : Ctl) (f : FPvv) (s : State) : Out := issueVec c s (buildCmp f)

/-- PLOG (R133). -/
def execPlog (c : Ctl) (f : FPpp) (s : State) : Out := issueVec c s (buildPlog f)

/-- PCNT (R134). -/
def execPcnt (c : Ctl) (f : FPxf) (s : State) : Out := issueVec c s (buildPxf .pcnt s f)

/-- PFIRST (R134). -/
def execPfirst (c : Ctl) (f : FPxf) (s : State) : Out := issueVec c s (buildPxf .pfirst s f)

/-- PFROMX (R134). -/
def execPfromx (c : Ctl) (f : FPxf) (s : State) : Out := issueVec c s (buildPxf .pfromx s f)

/-- PTOX (R134). -/
def execPtox (c : Ctl) (f : FPxf) (s : State) : Out := issueVec c s (buildPxf .ptox s f)

/-- PWHILE (R134). -/
def execPwhile (c : Ctl) (f : FPxf) (s : State) : Out := issueVec c s (buildPxf .pwhile s f)

/-- VLD (R136). -/
def execVld (c : Ctl) (f : FVma) (s : State) : Out := issueVec c s (buildVma .ld c s f)

/-- VST (R136). -/
def execVst (c : Ctl) (f : FVma) (s : State) : Out := issueVec c s (buildVma .st c s f)

/-- VGATH (R138). -/
def execVgath (c : Ctl) (f : FVg) (s : State) : Out := issueVec c s (buildVg .gath s f)

/-- VSCAT (R138). -/
def execVscat (c : Ctl) (f : FVg) (s : State) : Out := issueVec c s (buildVg .scat s f)

/-- VSCADD (R138). -/
def execVscadd (c : Ctl) (f : FVg) (s : State) : Out := issueVec c s (buildVg .scadd s f)

/-! ### loopb (R114) -/

/-- LOOPB (R114): performed by the control core; for R48 one issue of the vector queue, in its turn
where a crew holds that queue. -/
def execLoopb (c : Ctl) (f : FBr) (s : State) : Out :=
  performJump s do
    checkCrew s c .vec
    let bk := s.me
    let b := s.bank bk
    let uid := b.uid.getD 0
    trapStopped (trapV (s.core (keyCore bk)) uid)
    trapStream (stoppedVecStream (s.core (keyCore bk)) b uid)
    need (((crewOf b .vec).isNone || !maskBusy (s.core (keyCore bk)) uid 2) && mayIssue s bk uid .vec c) .stall
    let s' := stampIssue s bk uid .vec c
    let b := s'.bank bk
    if b.lc = 0 then return (s', b.pc + 8)
    else
      let b' := { b with lc := b.lc - 1 }
      if b'.lc = 0 then return (s'.setBank bk b', b.pc + 8)
      else
        let vrb := if b.grant = 0 then 0 else (b.vrb.toNat + b.grant - 1) % b.grant
        let prb := (b.prb.toNat + 47) % 48
        return (s'.setBank bk { b' with vrb := BitVec.ofNat 8 vrb, prb := BitVec.ofNat 6 prb }, b.pc + sx64 f.off * 4)

end Sys2Proof.Machine
end

