-- ==== Sys2Proof/Machine/VecEngine.lean ====
section
/-!
DEFINITION. Machine/VecEngine.lean: the vector engine: issue from its queue (R109, R110), memory elements and the replay
queue (R137 to R141), completion (R107), vresume and engine reset (R142, R143).
-/

namespace Sys2Proof.Machine

/-! ### What a command reads and writes -/

/-- Whether an operation writes VD or VT. -/
def VOp.writesV : VOp → Bool
  | .st | .scat | .scadd | .cmp | .plog | .pcnt | .pfirst | .pfromx | .ptox | .pwhile | .resume => false
  | _ => true

/-- Whether an operation writes PD. -/
def VOp.writesP : VOp → Bool
  | .cmp | .plog | .pfromx | .pwhile => true
  | _ => false

/-- The predicates a command reads. -/
def VCmd.readsP (m : VCmd) : List Nat :=
  m.pg.toList ++ match m.op with
    | .plog => [m.pa, m.pb, m.pc]
    | .pcnt | .pfirst | .ptox => [m.pd]
    | _ => []

def VLoc.isReg : VLoc → Bool
  | .stat _ => true
  | .rot _ => true
  | _ => false

/-- A later command needs a register that an earlier one has still to write (R110). One that only writes the VT of a vld or vgath
with a parked entry waits too: the program order of R110 holds it, and the rows of R139 name only reads (DEDUCED, assumption
log 43). -/
def VCmd.waitsFor (m e : VCmd) : Bool :=
  (e.op.writesV && e.vd.isReg && (m.va == e.vd || m.vb == e.vd || m.vd == e.vd))
  || (e.op.writesP && (m.readsP.contains e.pd || (m.op.writesP && m.pd == e.pd)))

/-- The issued commands of a task that have still to complete. -/
def Core.inFlight (c : Core) (uid : Nat) : List VCmd := c.vq.filter fun v => v.uid == uid && v.issued

/-- The interlock of R110: under V = 2 the results of other V = 2 instructions are exposed and do not hold a command. One that a V = 0
or V = 1 word of the crew needs is written first: `crewCycle` puts the word's crew cycle no sooner (DEDUCED, assumption log 55). -/
def registersFree (c : Core) (b : Bank) (m : VCmd) : Bool :=
  (c.inFlight m.uid).all (fun e => !m.waitsFor e) && (m.ctl.v == 2 || b.exposed.all fun e => !m.waitsFor e.cmd)

/-- The entry of a stream operand has arrived whole (R35). -/
def VLoc.arrived (b : Bank) : VLoc → Bool
  | .stream n e => (b.stream n).any fun st => (SMap.find st.buf e).isSome
  | _ => true

/-! ### Stream entries (R107, R211, R220) -/

/-- Position `e` is skipped (R216). -/
def Stream.skipped (st : Stream) (e : Nat) : Bool := st.skips.any fun r => decide (r.1 ≤ e) && decide (e < r.1 + r.2)

/-- POS passes the entries that have been removed (input), up to the issue position. -/
def Stream.passInput : Nat → Stream → Stream
  | 0, st => st
  | n + 1, st =>
    if st.pos < st.issue && (st.skipped st.pos || (decide (st.pos < st.next) && (SMap.find st.buf st.pos).isNone)) then
      Stream.passInput n { st with pos := st.pos + 1 }
    else st

/-- An input entry is removed (R107). -/
def Stream.remove (st : Stream) (e : Nat) : Stream :=
  let st := { st with buf := SMap.del st.buf e }
  Stream.passInput (st.issue - st.pos) st

/-- POS of an output stream passes skipped positions that have been taken (R216). -/
def Stream.passOutput : Nat → Stream → Stream
  | 0, st => st
  | n + 1, st =>
    if st.pos < st.issue && st.skipped st.pos then Stream.passOutput n { st with pos := st.pos + 1 } else st

/-- An output entry may be enqueued: its predecessors are, and fewer than 8 are buffered (R33, R35). -/
def Stream.hasRoom (st : Stream) (e : Nat) : Bool :=
  (Stream.passOutput (st.issue - st.pos) st).pos == e && decide (st.buf.length < 8)

/-- Combining two max-magnitude values (R220): R92's maximum of binary32 values, the canonical NaN sticking. -/
def mmMax (a b : BitVec 32) : BitVec 32 :=
  if a = 0x7FC00000 || b = 0x7FC00000 then 0x7FC00000
  else BitVec.ofNat 32 (roundTo .fp32 (Num.max (decodeNum .fp32 a.toNat) (decodeNum .fp32 b.toNat)) 0 false 0).1

/-- Enqueuing output entry `e` (R211, R220, R221). -/
def Stream.enqueue (st : Stream) (e : Nat) (v : VReg) (mm : Option (BitVec 32)) : Stream :=
  let st := { st with buf := SMap.put st.buf e v, pos := e + 1, wcnt := st.wcnt + 1, mm := (mm.map (mmMax st.mm)).getD st.mm }
  Stream.passOutput (st.issue - st.pos) st

/-- WCNT at the moment entry `e` will be enqueued (R221). -/
def Stream.wcntAt (st : Stream) (e : Nat) : BitVec 32 :=
  st.wcnt + BitVec.ofNat 32 ((range2 st.pos (e - st.pos)).filter fun i => !st.skipped i).length

/-- The values offered by an entry's elements, combined (R220); none where no element offers one. -/
def offered (vs : List Num) : Option (BitVec 32) :=
  if vs.isEmpty then none else some (BitVec.ofNat 32 (vs.foldl mmOffer 0))

/-- The random bits of an output entry's elements (R88, R89, R221); none unless the mode is stochastic. -/
def randomBits (seed : Word) (b : Bank) (rm : Nat) (vd : VLoc) : List Nat :=
  match vd with
  | .stream n e =>
    if rm = 4 then
      match b.stream n with
      | some st => (List.range 256).map fun i => (srgen (seed ^^^ st.tag) (w64 (256 * e + i)) (st.wcntAt e)).toNat
      | none => []
    else []
  | _ => []

/-! ### Results (R117 to R135) -/

/-- What a command reads at issue (R107). -/
def VCmd.inputs (m : VCmd) (b : Bank) : VIn where
  a := b.readV m.va
  b := b.readV m.vb
  d := if m.vd.isStream then 0 else b.readV m.vd
  p := m.pg.map b.readP
  pa := b.readP m.pa
  pb := b.readP m.pb
  pc := b.readP m.pc
  pd := b.readP m.pd
  stream := m.vd.isStream
  us := randomBits m.seed b m.rm m.vd

/-- The result of a command that accesses no memory. -/
def VCmd.result (m : VCmd) (b : Bank) : VRes :=
  let i := m.inputs b
  if m.op.writesV then
    let o := computeV m.op m.ty m.etd m.rm m.sat m.imm m.fn m.sx i
    { vd := some o.v, pd := none, xd := none, flags := o.fl, mm := if m.vd.isStream then offered o.offers else none }
  else
    { vd := none, pd := computeP m.op m.ty m.fn m.sx m.sy i, xd := computeX m.op m.ty m.fn i, flags := 0, mm := none }

/-- Removing the entry an operand took. -/
def Bank.removeLoc (b : Bank) : VLoc → Bank
  | .stream n e => b.modStream n fun st => st.remove e
  | _ => b

/-- A command's result may be written: its output stream has room in order. -/
def resultFits (b : Bank) (m : VCmd) : Bool :=
  match m.vd with
  | .stream n e => match b.stream n with
    | some st => st.hasRoom e
    | none => true
  | _ => true

/-- Completion (R107): destination, flags, entries removed and enqueued, all together. -/
def Bank.complete (b : Bank) (m : VCmd) (r : VRes) : Bank :=
  let b := match r.vd with
    | none => b
    | some v => match m.vd with
      | .stream n e => b.modStream n fun st => st.enqueue e v r.mm
      | l => b.writeV l v
  let b := match r.pd with
    | none => b
    | some p => b.writeP m.pd p
  let b := match r.xd with
    | none => b
    | some x => { b.wx m.xd.toNat x with pendX := b.pendX.filter (· != m.xd) }
  ((b.removeLoc m.va).removeLoc m.vb).addFlags r.flags

/-! ### Memory elements (R136 to R139) -/

/-- The address of element `i`. -/
def VCmd.elemAddr (m : VCmd) (vi : VReg) (i : Nat) : Word :=
  let w := etWidth m.ty
  match m.op with
  | .ld | .st => m.sx + w64 (i * w / 8)
  | _ => m.sx + w64 (elem w i vi <<< m.fn)

/-- KIND of R141. -/
def VOp.replayKind : VOp → BitVec 3
  | .gath => 0
  | .scat => 1
  | .scadd => 2
  | .ld => 3
  | _ => 4

/-- An entry covers an element of its command. -/
def Replay.covers (r : Replay) (tl i : Nat) : Bool := r.tl == tl && decide (r.first ≤ i) && decide (i < r.first + r.count)

/-- The 64-byte line of an element address, after its window: a private-window address and a global one meet in one line (R37, R38). -/
def lineOf (s : State) (ag : Agent) (va : Word) : Option Nat :=
  match window s ag va with
  | .ok (.glob a) => some (a / 64)
  | _ => none

/-- The 64-byte lines that hold a parked access of an entry: of its active elements only (R139). -/
def Replay.lines (s : State) (ag : Agent) (bk uid : Nat) (r : Replay) : List Nat :=
  match (s.core (keyCore bk)).vq.find? fun v => v.uid == uid && v.tl == r.tl with
  | none => (lineOf s ag r.va).toList
  | some m =>
    let cap := m.cap.getD (0, 0, 0)
    ((range2 r.first r.count).filter fun i => active (m.pg.map fun _ => cap.2.2) (etWidth m.ty) i).filterMap fun i =>
      lineOf s ag (m.elemAddr cap.2.1 i)

/-- The access kind of an operation. -/
def VOp.accessKind : VOp → Access
  | .ld | .gath => .read
  | .scadd => .atomic
  | _ => .write

/-- A floating or integer scatter-add (R138). -/
def scaddElem (ty old v : Nat) : Nat × Fl :=
  match fmtOf ty with
  | some f =>
    let r := Num.add false (decodeNum f old) (decodeNum f v)
    let q := roundTo f r.1 0 false 0
    (q.1, q.2 ||| r.2)
  | none => ((old + v) % 2 ^ 32, 0)

/-- Replacing element `i` of a register. -/
def putElem (w i x : Nat) (v : VReg) : VReg :=
  let m : VReg := BitVec.ofNat 2048 ((2 ^ w - 1) * 2 ^ (w * i))
  (v &&& ~~~m) ||| BitVec.ofNat 2048 (x % 2 ^ w * 2 ^ (w * i))

/-- A change of a command of the vector queue. -/
def State.modVCmd (s : State) (bk uid tl : Nat) (f : VCmd → VCmd) : State :=
  s.modCore (keyCore bk) fun c => { c with vq := c.vq.map fun v => if v.uid == uid && v.tl == tl then f v else v }

/-- The home has performed the update with this tag: bank, tl4 number and element (R142). -/
def State.tagged (s : State) (m : VCmd) (i : Nat) : Bool :=
  (s.core (keyCore m.bank)).vq.any fun v => v.uid == m.uid && v.tl == m.tl && v.tags.testBit i

/-- One element access, performed (R136, R138): the state after it, or how it stops. The home discards an update of a scatter-add
whose tag it has performed (R142). -/
def elemAccess (s : State) (ag : Agent) (m : VCmd) (vt vi : VReg) (i : Nat) : Except Stop State := do
  let w := etWidth m.ty
  let n := w / 8
  let (p, s) ← access s ag m.op.accessKind false 30 (m.elemAddr vi i) n
  let eng := (m.bank, 4, m.tl)
  match m.op with
  | .ld | .gath =>
    let s := s.fill ag.key p
    let x := s.readLoc p.loc n
    return s.modHome m.bank m.uid fun b => b.writeV m.vd (putElem w i x (b.readV m.vd))
  | .scadd =>
    if s.tagged m i then return s
    let s := s.modVCmd m.bank m.uid m.tl fun v => { v with tags := v.tags + 2 ^ i }
    let r := scaddElem m.ty (s.readLoc p.loc n) (elem w i vt)
    return (s.storeHome ag p (leBytes n r.1) eng).modHome m.bank m.uid fun b => b.addFlags r.2
  | _ => return s.storeL1 ag p (leBytes n (elem w i vt)) (some eng)

/-- How far a pass over the elements came: all attempted; held, until an entry of the full replay queue frees or until a target
wakes; stopped. -/
inductive Pass
  | finished | held (i : Nat) (full : Bool) | stopped (i cause : Nat) (tval : Word)
deriving DecidableEq, Repr

/-- An entry is older than an element access: by number, then by element. -/
def Replay.before (r : Replay) (tl i : Nat) : Bool := decide (r.tl < tl) || (r.tl == tl && decide (r.first < i))

/-- The queue keeps the order of age: an entry that parks behind another, or parks again, stands in its own place. -/
def insertReplay (e : Replay) : List Replay → List Replay
  | [] => [e]
  | r :: rs => if r.before e.tl e.first then r :: insertReplay e rs else e :: r :: rs

/-- Parking element `i` (R139). -/
def parkElem (s : State) (m : VCmd) (i : Nat) (va : Word) (cause tag : Nat) (ready : Bool) : State :=
  s.modHome m.bank m.uid fun b =>
    { b with replay := insertReplay ⟨m.op.replayKind, i, 1, etWidth m.ty / 8, va, cause, m.tl, tag, ready⟩ b.replay }

/-- The page of an address for the runs of R139: the span of the entry at which its walk stops (R340). -/
def pageOf (s : State) (ag : Agent) (va : Word) : Option Nat :=
  match window s ag va with
  | .ok (.glob a) =>
    let part := keyPart ag.key
    match heapPlace s ag.ctx part a, walkCtx s ag.ctx part .read va a with
    | some _, _ => none
    | none, .ok (_, l) => some (a / 2 ^ levelShift l * 2 ^ levelShift l)
    | none, .error f => some f.page
  | _ => none

/-- The last entry of the command grows up to element `i`: a run of vld or vst within one page (R139). COUNT takes in the
inactive elements between (DEDUCED, assumption log 43). -/
def growRun (s : State) (m : VCmd) (i : Nat) : State :=
  s.modHome m.bank m.uid fun b =>
    let last := ((b.replay.filter fun r => r.tl == m.tl && decide (r.first ≤ i)).getLast?.map (·.first)).getD i
    { b with replay := b.replay.map fun r => if r.tl == m.tl && r.first == last then { r with count := i + 1 - r.first } else r }

/-- The elements of a memory command, attempted in ascending order (R138, R139). `page` is the page of the run that the
last entry of the replay queue holds: every later element of a vld or vst within it joins that run. An element that parks behind
an older entry waits on that entry's record and shows its cause (DEDUCED, assumption log 43). -/
def runElems (ag : Agent) (m : VCmd) (vt vi : VReg) (p : Option PReg) :
    List Nat → Option Nat → State → State × Pass
  | [], _, s => (s, .finished)
  | i :: is, page, s =>
    let w := etWidth m.ty
    let b := (s.home m.bank m.uid).getD Bank.reset
    if !active p w i || b.replay.any (fun r => r.covers m.tl i) then runElems ag m vt vi p is page s
    else
      let va := m.elemAddr vi i
      let run := m.op == .ld || m.op == .st
      if run && page.isSome && page == pageOf s ag va then runElems ag m vt vi p is page (growRun s m i)
      else match b.replay.find? fun r =>
          r.before m.tl i && (lineOf s ag va).any fun l => (r.lines s ag m.bank m.uid).contains l with
      | some r =>
        if 64 ≤ b.replay.length then (s, .held i true)
        else
          let s := parkElem s m i va r.cause r.tag r.ready
          if m.op = .scadd then (s, .held (i + 1) false) else runElems ag m vt vi p is (pageOf s ag va) s
      | none =>
        match elemAccess s ag m vt vi i with
        | .ok s => runElems ag m vt vi p is none s
        | .error (.page f) =>
          if 64 ≤ b.replay.length then (s, .held i true)
          else
            let r := s.postFault ag .vector 0 0 m.tl f
            let s := parkElem r.1 m i va f.cause r.2 false
            if m.op = .scadd then (s, .held (i + 1) false) else runElems ag m vt vi p is (some f.page) s
        | .error (.trap cause v) => (s, .stopped i cause v)
        | .error e => ((s.askWake e).getD s, .held i false)

/-- The checks of a gather or scatter before any access (R137): the first active element that fails. -/
def checkElems (s : State) (ag : Agent) (m : VCmd) (vi : VReg) (p : Option PReg) : List Nat → Option (Nat × Word)
  | [] => none
  | i :: is =>
    let w := etWidth m.ty
    if !active p w i then checkElems s ag m vi p is
    else
      let va := m.elemAddr vi i
      match window s ag va with
      | .error (.trap cause v) => some (cause, v)
      | .error _ => checkElems s ag m vi p is
      | .ok _ =>
        if va.toNat % (w / 8) = 0 then checkElems s ag m vi p is
        else some (if m.op = .gath then 4 else 6, va)

/-- Replacing a command of the vector queue. -/
def State.setVCmd (s : State) (m : VCmd) : State := s.modVCmd m.bank m.uid m.tl fun _ => m

/-- How far a pass over a command's elements came is kept in the command. -/
def State.endPass (s : State) (m : VCmd) (finished : Nat) (p : Pass) : State :=
  s.modVCmd m.bank m.uid m.tl fun v => match p with
    | .finished => { v with done := finished, full := false }
    | .held i full => { v with done := min i finished, full := full }
    | .stopped i cause tval => { v with done := min i finished, full := false, stop := some (cause, tval) }

/-- Elements of a memory command. -/
def VCmd.elems (m : VCmd) : Nat := lanes (etWidth m.ty)

/-- An issued memory command that still has elements to perform and is not stopped: a full replay queue or a target holds it. The
later elements of a scatter-add wait for its own parked entry, which holds nothing else (R139). -/
def heldMem (s : State) (v : VCmd) : Bool :=
  v.op.isMem && v.issued && v.stop.isNone && (decide (v.done < v.elems) || !v.again.isEmpty) && s.resident v.bank v.uid
  && (v.op != .scadd || !v.again.isEmpty || ((s.home v.bank v.uid).getD Bank.reset).replay.all fun r => r.tl != v.tl)

/-- Elements of released entries that waited for their target are performed again, before any other (R140). -/
def performAgain (s : State) (m : VCmd) : State :=
  match m.cap with
  | none => s
  | some cap =>
    let ag := s.agentFor m.bank m.uid true
    let q := runElems ag m cap.1 cap.2.1 (m.pg.map fun _ => cap.2.2) m.again none s
    q.1.modVCmd m.bank m.uid m.tl fun v => match q.2 with
      | .finished => { v with again := [] }
      | .held i _ => { v with again := m.again.filter fun j => decide (i ≤ j) }
      | .stopped i cause tval => { v with done := min i v.done, again := [], stop := some (cause, tval) }

/-- A memory command performs its elements from the one it stands at. -/
def performMem (s : State) (m : VCmd) : State :=
  let b := (s.home m.bank m.uid).getD Bank.reset
  let cap := m.cap.getD (b.readV m.vd, b.readV m.vb, (m.pg.map b.readP).getD 0)
  let m := { m with cap := some cap, issued := true, stop := none, full := false }
  let s := s.setVCmd m
  let ag := s.agentFor m.bank m.uid true
  let p := m.pg.map fun _ => cap.2.2
  let check := match m.op with
    | .ld | .st => none
    | _ => if m.done = 0 then checkElems s ag m cap.2.1 p (List.range m.elems) else none
  match check with
  | some (cause, v) => s.setVCmd { m with stop := some (cause, v) }
  | none =>
    if m.op = .scadd && b.replay.any fun r => r.tl == m.tl then s
    else
      let r := runElems ag m cap.1 cap.2.1 p (range2 m.done (m.elems - m.done)) none s
      r.1.endPass m m.elems r.2

/-! ### The progress registers (R142) -/

/-- Leading elements performed: up to the first that a parked entry holds. -/
def VCmd.leading (m : VCmd) (b : Bank) : Nat :=
  (b.replay.filter fun r => r.tl == m.tl).foldl (fun n r => min n r.first) (m.again.foldl min m.done)

/-- A memory command that has begun. -/
def VCmd.begun (m : VCmd) : Bool := m.op.isMem && (m.issued || m.stop.isSome)

/-- VUPC, VL0 and VL1 show the oldest vector instruction that is partly performed. -/
def State.markVec (s : State) (bk uid : Nat) : State :=
  let s := s.stampMark (keyCore bk) 1
  match (s.core (keyCore bk)).vq.find? fun v => v.uid == uid && v.begun with
  | none => s.modHome bk uid fun b => { b with vupc := 0, vl0 := 0, vl1 := 0 }
  | some m => s.modHome bk uid fun b =>
      { b with
        vupc := BitVec.ofNat 9 m.opc
        vl0 := BitVec.ofNat 32 (m.leading b)
        vl1 := BitVec.ofNat 32 ((b.replay.filter fun r => r.tl == m.tl).length + m.owed) }

/-! ### VECTOR_ISSUE (R109, R110) -/

/-- The next command of a bank in the vector queue: with a stopped command, only a vresume moves (R194). -/
def nextVec (s : State) (bk : Nat) : Option VCmd :=
  let c := s.core (keyCore bk)
  let stopped := fun (u : Nat) => (stoppedV c u).isSome
  c.vq.find? fun v =>
    v.bank == bk && !v.issued && s.resident bk v.uid
    && !heldByCrew ((s.home bk v.uid).getD Bank.reset) .vec v.seq
    && (!stopped v.uid || v.op == .resume)

/-- The crew cycle at which a command issues, where its queue is a crew member. A V = 0 or V = 1 word interlocks: its cycle is no
sooner than those at which the exposed results it needs are written (R110; DEDUCED, assumption log 55). -/
def crewCycle (s : State) (m : VCmd) : Option Nat :=
  let b := (s.home m.bank m.uid).getD Bank.reset
  (crewOf b .vec).map fun w =>
    let d := crewDue w .vec m.ctl ((s.core (keyCore m.bank)).gap .vec)
    let d := if m.ctl.v = 0 then max w.time d else d
    if m.ctl.v = 2 then d else (b.exposed.filter fun e => m.waitsFor e.cmd).foldl (fun n e => max n e.due) d

/-- The crew cycle of an issue, where an interlock has put it after the word's due cycle. -/
def State.crewAt (s : State) (bk uid : Nat) (crew : Option Nat) : State :=
  match crew with
  | none => s
  | some d => s.modHome bk uid fun b =>
      { b with crew := b.crew.map fun w =>
          { w with time := max w.time d, last := SMap.put w.last (queueBit .vec) (max d (SMap.get 0 w.last (queueBit .vec))) } }

/-- Exposed results due no later than a crew cycle are written, in the order of their cycles and then of the program
(R110); none where one of them has no room. -/
def settleExposed (s : State) (bk uid due : Nat) : Nat → Option State
  | 0 => some s
  | n + 1 =>
    match settleExposed s bk uid due n with
    | none => none
    | some s =>
      let b := (s.home bk uid).getD Bank.reset
      let ready := b.exposed.filter fun e => decide (e.due ≤ due)
      match ready.foldl (fun (best : Option Exposed) e => match best with
          | none => some e
          | some f => if e.due < f.due || (e.due == f.due && decide (e.cmd.seq < f.cmd.seq)) then some e else some f) none with
      | none => some s
      | some e =>
        if resultFits b e.cmd then
          match e.cmd.res with
          | some r =>
            some ((s.modHome bk uid fun b =>
              { (b.complete e.cmd r) with exposed := b.exposed.filter fun x => x.cmd.tl != e.cmd.tl }).tlDone bk 4 e.cmd.tl)
          | none => some s
        else none

/-- The command that a vresume continues owns the `n` oldest of its entries; a greater count waits for entries that there are
none of (R143; DEDUCED, assumption log 43). -/
def State.ownEntries (s : State) (v : VCmd) (n : Nat) : State :=
  let mine (r : Replay) : Bool := r.tl == v.tl
  let k := ((((s.home v.bank v.uid).getD Bank.reset).replay).filter mine).length
  (s.modHome v.bank v.uid fun b =>
    { b with replay := (b.replay.filter fun r => !mine r || ((b.replay.filter mine).take n).contains r) }).modVCmd v.bank v.uid v.tl
    fun x => { x with owed := n - k }

/-- A vresume takes effect (R143): it completes at once where it continues no command, and otherwise with that
command, from element VL0 and with VL1 owned entries. -/
def performResume (s : State) (m : VCmd) : State :=
  match (s.core (keyCore m.bank)).vq.find? fun v => v.uid == m.uid && v.tl == m.pa && m.pa != 0 with
  | none => s.setVCmd { m with issued := true, done := 1 }
  | some v =>
    let s := s.setVCmd { m with issued := true }
    if v.op.isMem then performMem (s.ownEntries v m.sy.toNat) { v with done := m.sx.toNat, again := [], stop := none, owed := m.sy.toNat - (((s.home v.bank v.uid).getD Bank.reset).replay.filter fun r => r.tl == v.tl).length }
    else s.setVCmd { v with stop := none }

/-- A resident command held by a full replay queue stalls the engine (R33, R139). -/
def State.vecStalled (s : State) (core : Nat) : Bool :=
  (s.core core).vq.any fun v => v.full && v.issued && v.stop.isNone && s.resident v.bank v.uid

/-- A memory command held by its target keeps the later ones of its bank from issuing: they take effect one at a time, in program
order (R110). -/
def State.bankHeld (s : State) (bk : Nat) : Bool := (s.core (keyCore bk)).vq.any fun v => v.bank == bk && heldMem s v

/-- The command issues, if it may. -/
def issueOne (s : State) (bk : Nat) (second : Bool) : Option State := do
  let m ← nextVec s bk
  let c := s.core (keyCore bk)
  let b := (s.home bk m.uid).getD Bank.reset
  let crew := crewCycle s m
  if s.vecStalled (keyCore bk) || s.bankHeld bk then none
  if second && (m.ctl.v == 2 || crew.isSome) then none
  if !mayIssue s bk m.uid .vec m.ctl then none
  if m.ctl.v == 0 && !rangeOk c bk m.uid m.seq m.range then none
  let s ← match crew with
    | some d => settleExposed s bk m.uid d b.exposed.length
    | none => some s
  let b := (s.home bk m.uid).getD Bank.reset
  if !(m.va.arrived b && m.vb.arrived b && registersFree c b m) then none
  let s := (stampIssue s bk m.uid .vec m.ctl).crewAt bk m.uid crew
  if m.op = .resume then return (performResume s m).markVec bk m.uid
  else if m.op.isMem then return (performMem s m).markVec bk m.uid
  else
    let m := { m with issued := true, res := some (m.result b) }
    match (if m.ctl.v == 2 then crew else none) with
    | some d =>
      return (s.modCore (keyCore bk) fun c => { c with vq := c.vq.filter fun v => !(v.uid == m.uid && v.tl == m.tl) }).modHome
        bk m.uid fun b => { b with exposed := b.exposed ++ [⟨m, d + m.op.latency m.ty m.etd⟩] }
    | none => return s.setVCmd m

/-- A memory command that was held goes on: an entry of the replay queue has freed, or its target has woken. -/
def resumeHeld (s : State) (bk : Nat) : Option State :=
  match (s.core (keyCore bk)).vq.find? fun v => v.bank == bk && heldMem s v with
  | none => none
  | some m =>
    let t := (if m.again.isEmpty then performMem s m else performAgain s m).markVec bk m.uid
    if ((t.core (keyCore bk)).vq.find? fun v => v.uid == m.uid && v.tl == m.tl).any
        (fun v => v.done != m.done || v.again != m.again || v.stop.isSome)
    then some t else none

/-- VECTOR_ISSUE (R109): the oldest command of each bank, bank 0 first; a pipe left free takes a second command of a
bank. -/
def tryVectorIssue (core : Nat) (s : State) : Option State :=
  let b0 := bankKey core 0
  let b1 := bankKey core 1
  match resumeHeld s b0 with
  | some t => some t
  | none => match resumeHeld s b1 with
    | some t => some t
    | none => match issueOne s b0 false with
      | some t => match issueOne t b1 false with
        | some u => some u
        | none => some ((issueOne t b0 true).getD t)
      | none => match issueOne s b1 false with
        | some t => some ((issueOne t b1 true).getD t)
        | none => none

/-- VECTOR_ISSUE (R109). -/
def execVectorIssue (core : Nat) (s : State) : Out := eventOn s core (tryVectorIssue core s)

/-! ### VECTOR_COMPLETION (R107) -/

/-- A queued command may complete: its result is ready and fits, or its elements are all performed (R139, R143). -/
def completable (s : State) (m : VCmd) : Bool :=
  let b := (s.home m.bank m.uid).getD Bank.reset
  m.issued && m.stop.isNone && s.resident m.bank m.uid &&
  if m.op = .resume then
    m.done == 1 || (s.core (keyCore m.bank)).vq.all fun v => !(v.uid == m.uid && v.tl == m.pa)
  else if m.op.isMem then decide (m.elems ≤ m.done) && m.again.isEmpty && m.owed == 0 && b.replay.all fun r => r.tl != m.tl
  else m.res.isSome && resultFits b m

/-- An exposed result that no later word of the crew can still precede: its crew has ended, or the control core waits
outside the crew with no member word queued (R279, R280). -/
def exposedFree (c : Core) (b : Bank) (uid : Nat) : Bool :=
  match b.crew with
  | none => true
  | some w => !w.suspended && !bitAt w.mask 0 && b.wait.isSome && !maskBusy c uid w.mask

/-- A command leaves the queue with its result. -/
def finishVec (s : State) (m : VCmd) : State :=
  let r := m.res.getD ⟨none, none, none, 0, none⟩
  let s := s.modHome m.bank m.uid fun b => if m.op.isMem then b.removeLoc m.vb else b.complete m r
  let s := s.modCore (keyCore m.bank) fun c => { c with vq := c.vq.filter fun v => !(v.uid == m.uid && v.tl == m.tl) }
  (s.tlDone m.bank 4 m.tl).markVec m.bank m.uid

/-- Completion of the oldest command of a bank that can complete, or of an exposed result. -/
def tryVectorCompletion (core bank : Nat) (s : State) : Option State :=
  let bk := bankKey core bank
  match (s.core core).vq.find? fun v => v.bank == bk && completable s v with
  | some m => some (finishVec s m)
  | none =>
    let b := s.bank bk
    let uid := b.uid.getD 0
    if !b.exposed.isEmpty && exposedFree (s.core core) b uid then
      let first := b.exposed.foldl (fun n e => min n e.due) ((b.exposed.head?.map (·.due)).getD 0)
      match settleExposed s bk uid first 1 with
      | some t => if (t.bank bk).exposed.length < b.exposed.length then some t else none
      | none => none
    else none

/-- VECTOR_COMPLETION (R107). -/
def execVectorCompletion (core bank : Nat) (s : State) : Out := eventOn s core (tryVectorCompletion core bank s)

/-! ### The replay queue (R140, R141) and vresume (R143) -/

/-- Performing a released entry again: its elements in order, and no other element of the command; one that faults again parks
again, and one that waits for its target is kept in the command with those after it. -/
def releaseEntry (s : State) (bk uid : Nat) (r : Replay) : State :=
  let s := s.modHome bk uid fun b => { b with replay := b.replay.erase r }
  match (s.core (keyCore bk)).vq.find? fun v => v.uid == uid && v.tl == r.tl with
  | none => s
  | some m =>
    match m.cap with
    | none => s
    | some cap =>
      let ag := s.agentFor bk uid true
      let q := runElems ag m cap.1 cap.2.1 (m.pg.map fun _ => cap.2.2) (range2 r.first r.count) none s
      match q.2 with
      | .held i _ => q.1.modVCmd bk uid m.tl fun v =>
          { v with again := v.again ++ (range2 r.first r.count).filter fun j => decide (i ≤ j) }
      | p => q.1.endPass m m.done p

/-- Releasing entries in queue order (R140). -/
def State.releaseReplay (s : State) (bk uid : Nat) (rs : List Replay) : State :=
  (rs.foldl (fun s r => releaseEntry s bk uid r) s).markVec bk uid

/-- The replay-queue controller performs a word of the bank in its turn: after the earlier vector commands of the task that can
issue; it passes those that are held (R140; DEDUCED, assumption log 43). -/
def replayTurn (s : State) (bk uid : Nat) : Bool :=
  let c := s.core (keyCore bk)
  let b := s.bank bk
  s.vecStalled (keyCore bk) || !s.bankHeld bk &&
  match c.vq.find? fun v => v.bank == bk && v.uid == uid && !v.issued with
  | none => true
  | some m =>
    heldByCrew b .vec m.seq || (m.ctl.v == 0 && !rangeOk c bk uid m.seq m.range)
    || !(m.va.arrived b && m.vb.arrived b && registersFree c b m)

/-- The start of a word of the vector queue that the replay-queue controller performs: its checks, its turn (R48) and its tl4
number, which it passes at once. -/
def startReplayWord (s : State) (c : Ctl) (fnOk : Bool) : Except Stop State := do
  checkCrew s c .vec
  need fnOk (badOp 0x19 41)
  let bk := s.me
  let b := s.bank bk
  let uid := b.uid.getD 0
  trapStopped (trapV (s.core (keyCore bk)) uid)
  trapStream (stoppedVecStream (s.core (keyCore bk)) b uid)
  need (replayTurn s bk uid && mayIssue s bk uid .vec c) .stall
  return ((stampIssue s bk uid .vec c).modBank bk fun b => (b.tlGive 4).nextSeq).tlDone bk 4 (b.tlNext 4)

/-- RQREL (R140). -/
def execRqrel (c : Ctl) (f : FPxf) (s : State) : Out :=
  perform s 8 do
    let s' ← startReplayWord s c (decide (f.fn.toNat ≤ 1))
    let bk := s.me
    let b := s.bank bk
    let n := if f.fn = 0 then b.replay.length else min (s.rx bk f.xa).toNat b.replay.length
    return (s'.releaseReplay bk (b.uid.getD 0) (b.replay.take n)).wx bk f.xd (w64 n)

/-- The descriptor word of an entry (R141). -/
def Replay.word (r : Replay) : Word :=
  w64 (2 ^ 63 + r.kind.toNat * 2 ^ 60 + r.first % 256 * 2 ^ 52 + (r.count - 1) % 256 * 2 ^ 44 + r.cause % 256 * 2 ^ 32
    + r.tl % 2 ^ 32)

/-- RQSTAT (R141). -/
def execRqstat (c : Ctl) (f : FPxf) (s : State) : Out :=
  perform s 8 do
    let s' ← startReplayWord s c (decide (f.fn.toNat ≤ 2))
    let rs := (s.bank s.me).replay
    let e := rs[(s.rx s.me f.xa).toNat]?
    return s'.wx s.me f.xd (match f.fn.toNat with
      | 0 => w64 rs.length
      | 1 => (e.map (·.va)).getD 0
      | _ => (e.map Replay.word).getD 0)

/-- Elements of a vector command (R105, R126). -/
def VCmd.count (v : VCmd) : Nat :=
  if v.op.isMem then v.elems
  else if v.op = .cvt then
    if isMxEt v.etd then lanes (etWidth v.ty)
    else if isMxEt v.ty then lanes (etWidth v.etd)
    else lanes (max (etWidth v.ty) (etWidth v.etd))
  else lanes (v.op.width v.ty)

/-- VRESUME (R143). -/
def execVresume (c : Ctl) (s : State) : Out :=
  perform s 8 do
    checkCrew s c .vec
    let bk := s.me
    let b := s.bank bk
    let uid := b.uid.getD 0
    let k := s.core (keyCore bk)
    let target := k.vq.find? fun v => v.uid == uid
    let bad := b.vupc != 0 && match target with
      | none => true
      | some v => v.opc != b.vupc.toNat || decide (v.count < b.vl0.toNat)
    need (!bad) (badOp 0x19 0)
    trapStream (stoppedVecStream k b uid)
    need (decide (k.vq.length < 512)) .stall
    let m := { VCmd.blank .resume with
      bank := bk, uid := uid, ctl := c, tl := b.tlNext 4, seq := b.seq, sx := b.vl0.setWidth 64, sy := b.vl1.setWidth 64,
      pa := if b.vupc = 0 then 0 else (target.map (·.tl)).getD 0 }
    return (s.setBank bk (b.tlGive 4).nextSeq).setCore (keyCore bk) { k with vq := k.vq ++ [m] }

/-! ### Reset of the engine (R107, R142) -/

/-- Commands in flight are taken back to their marks: a memory instruction to its leading elements. Any other starts
again and reads the same operands (R107), so its redo is the result it has. The home of a scatter-add discards the
updates whose tags it has performed (R142). -/
def State.resetVec (s : State) (core : Nat) : State :=
  s.modCore core fun c =>
    { c with vq := c.vq.map fun v =>
        if v.op.isMem then { v with done := v.leading ((s.home v.bank v.uid).getD Bank.reset), full := false, again := [] } else v }

end Sys2Proof.Machine
end

