-- ==== Sys2Proof/Machine/MatIssue.lean ====
section
/-!
DEFINITION. Machine/MatIssue.lean: the rows of the tile queue when the control core issues them: fields of a record
(R154, R165), the checks of R152, R155 and R168, and entry to the queue (R159, R160).
-/

namespace Sys2Proof.Machine

/-! ### Records -/

def isMma (opc : Nat) : Bool := decide (0x0C0 ≤ opc) && decide (opc ≤ 0x0C9)
def isMs (opc : Nat) : Bool := decide (0x0CA ≤ opc) && decide (opc ≤ 0x0CD)
def isAs (opc : Nat) : Bool := decide (0x0D0 ≤ opc) && decide (opc ≤ 0x0D3)

/-- Operand fields of formats MT, MS and AS within bits [63:28] (R57). -/
def MCmd.acc (m : MCmd) : Nat := bits m.operands 35 32
def MCmd.ma (m : MCmd) : Nat := bits m.operands 31 26
def MCmd.mb (m : MCmd) : Nat := bits m.operands 25 20
def MCmd.ms (m : MCmd) : Nat := bits m.operands 35 30
def MCmd.pm1 (m : MCmd) : Nat := bits m.operands 10 3
def MCmd.ta (m : MCmd) : Bool := bitAt m.operands 2
def MCmd.tb (m : MCmd) : Bool := bitAt m.operands 1
def MCmd.clr (m : MCmd) : Bool := bitAt m.operands 0
def MCmd.etd (m : MCmd) : Nat := bits m.operands 21 18
def MCmd.sat (m : MCmd) : Bool := bitAt m.operands 14

/-- The course a command lies on (R57, R161). -/
def MCmd.course (m : MCmd) : Nat :=
  if isMma m.opc then bits m.operands 14 11
  else if isMs m.opc then bits m.operands 19 16
  else bits m.operands 13 10

/-- Geometry fields (R154, R165). -/
def geoM (g : Word) : Nat := bits g 7 0
def geoN (g : Word) : Nat := bits g 15 8
def geoK (g : Word) : Nat := bits g 24 16
def geoKoff (g : Word) : Nat := bits g 30 25
def geoArr (g : Word) : Nat := bits g 33 31
def geoAfmt (g : Word) : Nat := bits g 34 34
def geoBfmt (g : Word) : Nat := bits g 35 35
def geoBen (g : Word) : Bool := bitAt g 36
def geoBsl (g : Word) : Nat := bits g 42 37
def geoInt (g : Word) : Bool := bitAt g 16

/-! ### The MMA family (R145, R147, R153) -/

/-- k indices per k-step (R145). -/
def mmaKw : Nat → Nat
  | 0x0C3 => 2
  | 0x0C4 => 2
  | 0x0C7 => 8
  | 0x0C9 => 16
  | _ => 4

/-- Element type of operand A or B (R153). -/
def mmaEt (opc fmt : Nat) (b : Bool) : Nat :=
  match opc with
  | 0x0C0 => 3
  | 0x0C1 => 4
  | 0x0C2 => 6
  | 0x0C3 => 1
  | 0x0C4 => 2
  | 0x0C5 => 8 + fmt
  | 0x0C6 => 10 + fmt
  | 0x0C7 => 12
  | 0x0C8 => 13
  | _ => if b then 14 else 6

/-- A type with subtypes (R154). -/
def mmaSub (opc : Nat) : Bool := opc == 0x0C5 || opc == 0x0C6

/-- The record sums in INT32 (R101). -/
def mmaInt (opc : Nat) : Bool := opc == 0x0C2 || opc == 0x0C9

/-- Depth of a slot in a layout (R147). -/
def slotDepth (opc et : Nat) (transposed : Bool) : Nat :=
  match et with
  | 14 => if transposed then 8 else 64
  | 1 => 64
  | 2 => 64
  | 8 => if transposed then 32 else 56
  | 9 => if transposed then 32 else 56
  | 13 => if transposed then 32 else 56
  | 12 => if transposed then 16 else 32
  | _ => if opc = 0x0C9 then (if transposed then 8 else 16) else if transposed then 32 else 64

def MCmd.etA (m : MCmd) : Nat := mmaEt m.opc (geoAfmt m.geo) false
def MCmd.etB (m : MCmd) : Nat := mmaEt m.opc (geoBfmt m.geo) true

/-- The pair depth D (R147). -/
def MCmd.pairDepth (m : MCmd) : Nat := min (slotDepth m.opc m.etA m.ta) (slotDepth m.opc m.etB m.tb)

/-- P, the k-steps of a promotion group (R155). -/
def MCmd.p (m : MCmd) : Nat := if mmaInt m.opc then 1 else m.pm1 + 1

/-- S, the slot pairs read (R154). -/
def MCmd.pairs (m : MCmd) : Nat :=
  let k := geoK m.geo
  if k = 0 then 0 else (geoKoff m.geo + k + m.pairDepth - 1) / m.pairDepth

/-- A record with M = 0 or N = 0 (R157). -/
def MCmd.empty (m : MCmd) : Bool := geoM m.geo == 0 || geoN m.geo == 0

/-- Slots an MMA reads (R155, R157). -/
def MCmd.mmaSlots (m : MCmd) : List Nat :=
  if m.empty then []
  else range2 m.ma m.pairs ++ range2 m.mb m.pairs ++ (if geoBen m.geo then [geoBsl m.geo] else [])

/-- The slots a command names: those it reads, and those it changes (R161). -/
def MCmd.slotsRead (m : MCmd) : List Nat := if isMma m.opc then m.mmaSlots else []
def MCmd.slotsChanged (m : MCmd) : List Nat := if isMs m.opc then [m.ms] else []

/-- The tile a command names; none for a record with a zero dimension (R157). -/
def MCmd.tile (m : MCmd) : Option Nat :=
  if isMma m.opc then (if m.empty then none else some m.acc)
  else if isAs m.opc then some m.acc
  else none

/-! ### Entry to the tile queue (R33, R159, R160, R219) -/

/-- A command with empty progress. -/
def MCmd.blank (opc : Nat) (operands : BitVec 36) (geo : Word) : MCmd where
  opc := opc
  operands := operands
  bank := 0
  det := false
  geo := geo
  row := 0
  col := 0
  depth := 0
  mupc := 0
  tl := 0
  uid := 0
  ctx := 0
  seed := 0
  rm := 0
  sn := 32
  entry := 0
  entries := 0
  ctl := ⟨0, 0⟩
  seq := 0
  entered := false
  resume := ⟨0, none⟩
  held := []
  started := false
  finished := false

/-- The first stopped input stream whose stopped entry a queued matrix command took (R219). -/
def stoppedMatStream (c : Core) (b : Bank) (uid : Nat) : Option (Nat × Stream) :=
  b.streams.find? fun e => e.2.stop != 0 && e.2.dir == 0 && c.mq.any fun m =>
    m.uid == uid && m.usesStream && m.sn == e.1 && decide (m.entry ≤ e.2.next) && decide (e.2.next < m.entry + m.entries)

/-- Entering the tile queue: `claim` is the bank's claim mask after the command (R148). -/
def enterMat (s : State) (c : Ctl) (m : MCmd) (claim : BitVec 48) : Except Stop State := do
  let bk := s.me
  let k := s.core (keyCore bk)
  let b := s.bank bk
  let uid := b.uid.getD 0
  trapStream (stoppedMatStream k b uid)
  let (e, b') ← takeEntries b m.sn m.entries
  need (decide (k.mq.length < 256)) .stall
  let m := { m with
    bank := bk, uid := uid, ctx := s.ctxOf bk, ctl := c, tl := b.tlNext 5, seq := b.seq, entry := e,
    seed := ((s.myLaunch bk).map (·.seed)).getD 0, det := ((s.myLaunch bk).map (·.det)).getD false }
  return (s.setBank bk { (b'.tlGive 5).nextSeq with claim := claim, prevMat := some m }).setCore (keyCore bk) { k with mq := k.mq ++ [m] }

/-- A word of the tile queue: the crew check of R62, its fields, the queue. The bank's next instruction follows a matrix
command (R177). -/
def issueMat (c : Ctl) (s : State) (build : Bank → Except Stop (MCmd × BitVec 48)) : Out :=
  let r : Except Stop State := do
    checkCrew s c .mat
    let m ← build (s.bank s.me)
    enterMat s c m.1 m.2
  match r with
  | .ok t => .next (t.modBank s.me fun b => { b.pass ((s.bank s.me).pc + 8) with prevMat := b.prevMat })
  | .error e => .next (settleStop s s.me e)

/-! ### MMA (R155) -/

/-- x[XG] is a geometry that the instruction accepts (R154, R155). -/
def geoOk (m : MCmd) : Bool :=
  let g := m.geo
  bits g 63 43 == 0 && decide (geoM g ≤ 128) && decide (geoN g ≤ 128) && decide (geoK g ≤ 256) && geoArr g != 7
  && decide (geoKoff g < m.pairDepth) && decide (m.pairs ≤ 4) && decide (m.ma + m.pairs ≤ 48) && decide (m.mb + m.pairs ≤ 48)
  && (mmaSub m.opc || (geoAfmt g == 0 && geoBfmt g == 0)) && (!geoBen g || m.clr) && decide (geoBsl g ≤ 47)
  && (geoBen g || geoBsl g == 0)

/-- The highest course that the bank has issued to a tile since its open round began, in program order (R162). -/
def roundCourse (c : Core) (uid acc : Nat) : Nat :=
  let since := c.mq.foldl (fun (l : Option (List MCmd)) m =>
    if m.uid = uid && m.tile == some acc then
      if m.opc = 0x0D0 || m.opc = 0x0D1 then some []
      else if isMma m.opc then l.map (· ++ [m]) |>.orElse fun _ => some [m]
      else l
    else l) none
  let queued := (since.getD []).foldl (fun n m => max n m.course) 0
  let stored := c.mq.any fun m => m.uid == uid && (m.opc == 0x0D0 || m.opc == 0x0D1) && m.acc == acc
  match SMap.find c.rounds acc with
  | some r => if r.uid = uid && !stored then max r.course queued else queued
  | none => queued

/-- The checks of an MMA, in the order of R62 (R155). -/
def buildMma (opc : Nat) (s : State) (f : FMt) (b : Bank) : Except Stop (MCmd × BitVec 48) := do
  need (decide (f.acc.toNat < 12)) (badOp 0x17 60)
  need (decide (f.ma.toNat < 48)) (badOp 0x17 54)
  need (decide (f.mb.toNat < 48)) (badOp 0x17 48)
  let m := MCmd.blank opc (encMt f) (s.rx s.me f.xg)
  need (geoOk m) (badOp 0x19 43)
  need (m.mmaSlots.all fun n => bitAt b.claim n) (badOp 0x19 43)
  let det := ((s.myLaunch s.me).map (·.det)).getD false
  need (!det || m.empty || decide (roundCourse (s.core (keyCore s.me)) (b.uid.getD 0) m.acc ≤ m.course)) (badOp 0x19 39)
  return (m, b.claim)

/-- MMA_E4M3 (R153). -/
def execMmaE4m3 (c : Ctl) (f : FMt) (s : State) : Out := issueMat c s (buildMma 0x0C0 s f)

/-- MMA_E5M2 (R153). -/
def execMmaE5m2 (c : Ctl) (f : FMt) (s : State) : Out := issueMat c s (buildMma 0x0C1 s f)

/-- MMA_INT8 (R153). -/
def execMmaInt8 (c : Ctl) (f : FMt) (s : State) : Out := issueMat c s (buildMma 0x0C2 s f)

/-- MMA_BF16 (R153). -/
def execMmaBf16 (c : Ctl) (f : FMt) (s : State) : Out := issueMat c s (buildMma 0x0C3 s f)

/-- MMA_FP16 (R153). -/
def execMmaFp16 (c : Ctl) (f : FMt) (s : State) : Out := issueMat c s (buildMma 0x0C4 s f)

/-- MMA_MXFP8 (R153). -/
def execMmaMxfp8 (c : Ctl) (f : FMt) (s : State) : Out := issueMat c s (buildMma 0x0C5 s f)

/-- MMA_MXFP6 (R153). -/
def execMmaMxfp6 (c : Ctl) (f : FMt) (s : State) : Out := issueMat c s (buildMma 0x0C6 s f)

/-- MMA_MXFP4 (R153). -/
def execMmaMxfp4 (c : Ctl) (f : FMt) (s : State) : Out := issueMat c s (buildMma 0x0C7 s f)

/-- MMA_MXINT8 (R153). -/
def execMmaMxint8 (c : Ctl) (f : FMt) (s : State) : Out := issueMat c s (buildMma 0x0C8 s f)

/-- MMA_TERN (R153). -/
def execMmaTern (c : Ctl) (f : FMt) (s : State) : Out := issueMat c s (buildMma 0x0C9 s f)

/-! ### Marver slots (R148 to R152) -/

/-- MCLAIM (R148): sets the slot's bit of the claim mask at issue. -/
def execMclaim (c : Ctl) (f : FMs) (s : State) : Out :=
  issueMat c s fun b => do
    need (decide (f.ms.toNat < 48)) (badOp 0x17 58)
    return (MCmd.blank 0x0CA (encMs f) 0, setBit b.claim f.ms.toNat true)

/-- MREL (R148): clears it. -/
def execMrel (c : Ctl) (f : FMs) (s : State) : Out :=
  issueMat c s fun b => do
    need (decide (f.ms.toNat < 48)) (badOp 0x17 58)
    return (MCmd.blank 0x0CB (encMs f) 0, setBit b.claim f.ms.toNat false)

/-- MLOAD (R150, R152): takes 128 entries. -/
def execMload (c : Ctl) (f : FMs) (s : State) : Out :=
  issueMat c s fun b => do
    let et := f.et.toNat
    need (decide (f.ms.toNat < 48)) (badOp 0x17 58)
    need (bitAt b.claim f.ms.toNat) (badOp 0x19 58)
    let _ ← streamField b f.sr.toNat false [et] none 53
    need (et != 7 && et != 15) (badOp 0x15 40)
    return ({ MCmd.blank 0x0CC (encMs f) 0 with sn := f.sr.toNat, entries := 128 }, b.claim)

/-- MZERO (R151, R152). -/
def execMzero (c : Ctl) (f : FMs) (s : State) : Out :=
  issueMat c s fun b => do
    need (decide (f.ms.toNat < 48)) (badOp 0x17 58)
    need (bitAt b.claim f.ms.toNat) (badOp 0x19 58)
    return (MCmd.blank 0x0CD (encMs f) 0, b.claim)

/-! ### Accumulators (R165 to R170) -/

/-- Blocks of an entry, Bm (R165); none for a type without blocks. -/
def blocksPerEntry (et : Nat) : Option Nat :=
  if et = 8 || et = 9 || et = 13 then some 7 else if isMxEt et then some 8 else none

/-- Entries E of an M x N corner (R165). -/
def entriesOf (et mn : Nat) : Nat :=
  match blocksPerEntry et with
  | some bm => (mn + 32 * bm - 1) / (32 * bm)
  | none => (mn * etWidth et + 2047) / 2048

/-- x[XG] of an AS instruction (R165, R168): `inner` is its inner dimension. -/
def asGeoOk (g : Word) (et inner : Nat) : Bool :=
  bits g 63 17 == 0 && decide (geoM g ≤ 128) && decide (geoN g ≤ 128) && (!isMxEt et || inner % 32 == 0)

/-- The checks of astore and astore.t (R166, R168). -/
def buildAstore (opc : Nat) (s : State) (f : FAs) (b : Bank) : Except Stop (MCmd × BitVec 48) := do
  let et := f.etd.toNat
  let g := s.rx s.me f.xg
  need (decide (f.acc.toNat < 12)) (badOp 0x17 60)
  let _ ← streamField b f.sr.toNat true [et] (blocksPerEntry et) 55
  need (asGeoOk g et (if opc = 0x0D0 then geoN g else geoM g)) (badOp 0x19 50)
  need (decide (et ≤ 6) || (isMxEt et && !geoInt g)) (badOp 0x15 46)
  let rm ← fieldMode b f.rm.toNat true 43
  return ({ MCmd.blank opc (encAs f) g with sn := f.sr.toNat, entries := entriesOf et (geoM g * geoN g), rm := rm }, b.claim)

/-- ASTORE (R165). -/
def execAstore (c : Ctl) (f : FAs) (s : State) : Out := issueMat c s (buildAstore 0x0D0 s f)

/-- ASTORE_T (R165). -/
def execAstoreT (c : Ctl) (f : FAs) (s : State) : Out := issueMat c s (buildAstore 0x0D1 s f)

/-- ACLR (R169). -/
def execAclr (c : Ctl) (f : FAs) (s : State) : Out :=
  issueMat c s fun b => do
    need (decide (f.acc.toNat < 12)) (badOp 0x17 60)
    return (MCmd.blank 0x0D2 (encAs f) 0, b.claim)

/-- ALOAD (R170): takes E entries. -/
def execAload (c : Ctl) (f : FAs) (s : State) : Out :=
  issueMat c s fun b => do
    let et := f.etd.toNat
    let g := s.rx s.me f.xg
    need (decide (f.acc.toNat < 12)) (badOp 0x17 60)
    let _ ← streamField b f.sr.toNat false [et] (blocksPerEntry et) 55
    need (asGeoOk g et (geoN g)) (badOp 0x19 50)
    need (if geoInt g then et == 5 || et == 6 else decide (et ≤ 4) || isMxEt et) (badOp 0x15 46)
    let rm ← fieldMode b f.rm.toNat true 43
    return ({ MCmd.blank 0x0D3 (encAs f) g with sn := f.sr.toNat, entries := entriesOf et (geoM g * geoN g), rm := rm }, b.claim)

/-! ### mresume (R177) -/

/-- A promotion boundary of a record (R172), or 0. -/
def markOk (m : MCmd) (d : Nat) : Bool :=
  d == 0 || (decide (d ≤ geoK m.geo) && (d % m.p == 0 || d == geoK m.geo))

/-- The written progress lies within the command (R177). -/
def progressOk (m : MCmd) (row col depth : Nat) : Bool :=
  if isMma m.opc then row == 0 && col == 0 && markOk m depth
  else if m.opc = 0x0CC then col == 0 && depth == 0 && decide (row ≤ 128)
  else if m.opc = 0x0D0 || m.opc = 0x0D3 then col == 0 && depth == 0 && decide (row ≤ m.entries)
  else if m.opc = 0x0D1 then row == 0 && depth == 0 && decide (col ≤ m.entries)
  else row == 0 && col == 0 && depth == 0

/-- MRESUME (R177): the progress is applied to the command before it; entries before the written point are passed. It
completes with that command, at once where that command has completed or there is none. With MUPC.ACTIVE = 0 it issues whatever
precedes it, although the table's third row names a preceding instruction that is no matrix command too (DEDUCED: log 46). -/
def execMresume (c : Ctl) (s : State) : Out :=
  issueMat c s fun b => do
    let at1 := (b.row.toNat, b.col.toNat, b.depth.toNat)
    let active := bitAt b.mupc 15
    need (!active || b.prevMat.any fun m => bits b.mupc 8 0 == m.opc && progressOk m at1.1 at1.2.1 at1.2.2) (badOp 0x19 0)
    return ({ MCmd.blank 0x0CE 0 0 with
      resume := ⟨(b.prevMat.map (·.tl)).getD 0, if active then some at1 else none⟩ }, b.claim)

end Sys2Proof.Machine
end

