-- ==== Sys2Proof/Machine/Matrix.lean ====
section
/-!
DEFINITION. Machine/Matrix.lean: the matrix engine: entry to the tile queue, the tile scheduler (R161 to R164), slots,
lines and entries (R148, R150, R166, R170), the arrays and their punty marks (R156 to R158, R172, R173), completion
(R160) and engine reset (R174).
-/

namespace Sys2Proof.Machine

/-! ### Tables -/

/-- Replacing a record of the tile queue. -/
def State.setMCmd (s : State) (m : MCmd) : State :=
  s.modCore (keyCore m.bank) fun c =>
    { c with mq := c.mq.map fun v => if v.uid == m.uid && v.tl == m.tl then m else v }

/-- A line of a marver slot (R146). -/
def Core.line (c : Core) (slot l : Nat) : VReg := SMap.get 0 c.marver (128 * slot + l)

/-- Every byte of a slot set to 0. -/
def Core.clearSlot (c : Core) (slot : Nat) : Core :=
  { c with marver := SMap.erase c.marver fun k => k / 128 == slot }

/-- An element of a committed tile (R27). -/
def Core.tileElem (c : Core) (acc i j : Nat) : BitVec 32 := SMap.get 0 c.tiles (16384 * acc + 128 * i + j)

/-- Writing tile elements: position 128 i + j and value. -/
def Core.setTile (c : Core) (acc : Nat) (xs : List (Nat × BitVec 32)) : Core :=
  { c with tiles := xs.foldl (fun t x => SMap.set 0 t (16384 * acc + x.1) x.2) c.tiles }

/-- Opening a tile's round in the bank (R162); the course counts for an MMA. A round that opens after its task's TAIL closes as one
that was open at it. -/
def Core.openRound (c : Core) (m : MCmd) (acc : Nat) : Core :=
  let k := if isMma m.opc then m.course else 0
  match SMap.find c.rounds acc with
  | some r => { c with rounds := SMap.put c.rounds acc { r with course := max r.course k } }
  | none => { c with rounds := SMap.put c.rounds acc ⟨m.bank, m.uid, k, c.tracker.any fun t => t.uid == m.uid⟩ }

/-! ### Progress registers (R171, R176) -/

/-- A partly performed command: from its start on, before its first mark too (DESIGN CHOICE: log 46). -/
def MCmd.partly (m : MCmd) : Bool := (m.started || m.row != 0 || m.col != 0 || m.depth != 0) && m.opc != 0x0CE

/-- The engine writes doubleword 2 of a record at a mark (R159): MUPC beside the progress. -/
def MCmd.mark (m : MCmd) : MCmd := { m with mupc := BitVec.ofNat 16 (2 ^ 15 + m.opc) }

/-- The progress has reached the end of a command that takes entries or writes lines. -/
def MCmd.atEnd (m : MCmd) : Bool :=
  if m.opc = 0x0CC then decide (128 ≤ m.row)
  else if m.opc = 0x0D1 then decide (m.entries ≤ m.col)
  else (m.opc == 0x0D0 || m.opc == 0x0D3) && decide (m.entries ≤ m.row)

/-- MUPC, ROW, COL and DEPTH show the bank's oldest partly performed command in queue order. -/
def State.markMat (s : State) (bk uid : Nat) : State :=
  let s := s.stampMark (keyCore bk) 2
  match (s.core (keyCore bk)).mq.find? fun m => m.uid == uid && m.partly with
  | none => s.modHome bk uid fun b => { b with mupc := 0, row := 0, col := 0, depth := 0 }
  | some m => s.modHome bk uid fun b =>
      { b with
        mupc := BitVec.ofNat 16 (2 ^ 15 + m.opc)
        row := BitVec.ofNat 16 m.row
        col := BitVec.ofNat 16 m.col
        depth := BitVec.ofNat 16 m.depth }

/-! ### The arrays (R146, R156 to R158) -/

/-- Element `pos` of line or row `x` of a slot, and its scale byte (R146). -/
def slotElem (c : Core) (et : Nat) (transposed : Bool) (slot pos x : Nat) : Nat × Nat :=
  let l := if transposed then pos else x
  let i := if transposed then x else pos
  let b := pos / 32
  let scale := if transposed then elem 8 (248 + x % 8) (c.line slot (32 * b + x / 8)) else elem 8 (248 + b) (c.line slot x)
  (elem (etWidth et) i (c.line slot l), scale)

/-- The operand of k index `g` for row or column `x` (R156). -/
def mmaElem (c : Core) (m : MCmd) (b : Bool) (g x : Nat) : Nat × Nat :=
  let n := m.pairDepth * mmaKw m.opc
  if b then slotElem c m.etB m.tb (m.mb + g / n) (g % n) x else slotElem c m.etA m.ta (m.ma + g / n) (g % n) x

/-- The value of an operand of a floating record, its scale included (R82, R100). -/
def mmaNum (et : Nat) (e : Nat × Nat) : Num := if isMxEt et then mxNum et e.2 e.1 else elemNum et e.1

/-- The value of an operand of an integer record; a ternary 0b10 sets TERN_BAD (R80, R101). -/
def mmaIntVal (et : Nat) (e : Nat × Nat) : Int × Fl :=
  if et = 14 then
    match e.1 with
    | 1 => (1, 0)
    | 3 => (-1, 0)
    | 2 => (0, flTern)
    | _ => (0, 0)
  else (toSigned 8 e.1, 0)

/-- Rounding to IA25 by rne (R83, R100). -/
def roundIa25 (v : Num) : Num × Fl :=
  let q := roundTo .ia25 v 0 false 0
  (decodeNum .ia25 q.1, q.2)

/-- The sum of a promotion group in a floating record takes the products of one k-step (R100). -/
def addProducts (s : Option Num × Fl) (ps : List (Num × Num)) : Option Num × Fl :=
  ps.foldl (fun acc p =>
    let pr := Num.mul p.1 p.2
    let x := match acc.1 with
      | none => (pr.1, 0)
      | some v => Num.add false v pr.1
    let q := roundIa25 x.1
    (some q.1, acc.2 ||| pr.2 ||| x.2 ||| q.2)) s

/-- One tile element of a floating record over k-steps (R100, R156): the working value and the flags. -/
def floatSteps (c : Core) (m : MCmd) (i j depth : Nat) : List Nat → Nat × Option Num × Fl → Nat × Option Num × Fl
  | [], r => r
  | t :: ts, (w, sum, fl) =>
    let kw := mmaKw m.opc
    let sum := if (t - depth) % m.p = 0 || t % m.p = 0 then none else sum
    let ps := (List.range kw).map fun u =>
      let g := (geoKoff m.geo + t) * kw + u
      (mmaNum m.etA (mmaElem c m false g i), mmaNum m.etB (mmaElem c m true g j))
    let r := addProducts (sum, fl) ps
    if (t + 1) % m.p = 0 || t + 1 = geoK m.geo then
      let x := Num.add false (decodeNum .fp32 w) (r.1.getD (.fin false 0 1))
      let q := roundTo .fp32 x.1 0 false 0
      floatSteps c m i j depth ts (q.1, r.1, r.2 ||| x.2 ||| q.2)
    else floatSteps c m i j depth ts (w, r.1, r.2)

/-- One tile element of an integer record over k-steps (R101, R156). -/
def intSteps (c : Core) (m : MCmd) (i j : Nat) : List Nat → Nat × Fl → Nat × Fl
  | [], r => r
  | t :: ts, (w, fl) =>
    let kw := mmaKw m.opc
    let r := (List.range kw).foldl (fun (acc : Int × Fl) u =>
      let g := (geoKoff m.geo + t) * kw + u
      let a := mmaIntVal m.etA (mmaElem c m false g i)
      let b := mmaIntVal m.etB (mmaElem c m true g j)
      (acc.1 + a.1 * b.1, acc.2 ||| a.2 ||| b.2)) (0, fl)
    intSteps c m i j ts (wrapN 32 ((w : Int) + r.1), r.2)

/-- The positions of the M x N corner in row order. -/
def corner (m n : Nat) : List (Nat × Nat) := (List.range m).flatMap fun i => (List.range n).map fun j => (i, j)

/-- The working bank at the start of a record at a depth (R156, R158). -/
def startBank (c : Core) (m : MCmd) : SMap (BitVec 32) :=
  (corner (geoM m.geo) (geoN m.geo)).map fun p =>
    let v :=
      if m.depth = 0 && m.clr then
        (if geoBen m.geo then BitVec.ofNat 32 (elem 32 (p.2 % 64) (c.line (geoBsl m.geo) (p.2 / 64))) else 0)
      else c.tileElem m.acc p.1 p.2
    (128 * p.1 + p.2, v)

/-- The next punty mark after `d` k-steps: the first promotion boundary at or after the next slot-pair boundary, or the
end (R172). -/
def nextMark (m : MCmd) (d : Nat) : Nat :=
  let k := geoK m.geo
  let pairEnd := ((range2 (d + 1) (k - d)).find? fun t => (geoKoff m.geo + t) % m.pairDepth = 0).getD k
  ((range2 pairEnd (k + 1 - pairEnd)).find? fun t => t % m.p = 0 || t = k).getD k

/-- The working bank after the k-steps from one mark to the next, and the flags. -/
def runSteps (c : Core) (m : MCmd) (w : SMap (BitVec 32)) (d e : Nat) : SMap (BitVec 32) × Fl :=
  let ts := range2 d (e - d)
  let rs := w.map fun x =>
    let i := x.1 / 128
    let j := x.1 % 128
    if mmaInt m.opc then
      let r := intSteps c m i j ts (x.2.toNat, 0)
      (x.1, BitVec.ofNat 32 r.1, r.2)
    else
      let r := floatSteps c m i j d ts (x.2.toNat, none, 0)
      (x.1, BitVec.ofNat 32 r.1, r.2.2)
  (rs.map fun r => (r.1, r.2.1), rs.foldl (fun fl r => fl ||| r.2.2) 0)

/-! ### Entry to the queue (R160) -/

/-- The command that a written point is applied to (R177), in its state after it. A finished MMA starts again, from there, on a free
array (R174); a command of a stream goes on no sooner than the entries it has taken or enqueued, since those are gone (DEDUCED:
log 46). -/
def MCmd.atPoint (t : MCmd) (row col depth : Nat) : MCmd :=
  let u := { t with row := max row t.row, col := max col t.col, depth := depth }.mark
  if isMma t.opc then (if t.finished && !t.empty then { u with started := false, finished := false } else u)
  else if t.usesStream then { u with finished := t.started && u.atEnd }
  else u

/-- A record enters the tile queue behind those that have entered. -/
def tryEnterMat (bk : Nat) (s : State) : Option State := do
  let c := s.core (keyCore bk)
  let m ← c.mq.find? fun m =>
    m.bank == bk && !m.entered && s.resident bk m.uid && !heldByCrew ((s.home bk m.uid).getD Bank.reset) .mat m.seq
  if !mayIssue s bk m.uid .mat m.ctl then none
  let rest := c.mq.filter fun x => !(x.uid == m.uid && x.tl == m.tl)
  let s := stampIssue s bk m.uid .mat m.ctl
  let isRes := m.opc == 0x0CE
  let m' := { m with entered := true, started := isRes }
  let s := s.modCore (keyCore bk) fun c =>
    { c with mq := (rest.filter fun x => x.entered) ++ [m'] ++ rest.filter fun x => !x.entered }
  match if isRes then m.resume.point else none with
  | none => return s
  | some (row, col, depth) =>
    match c.mq.find? fun x => x.uid == m.uid && x.tl == m.resume.target with
    | none => return s
    | some t =>
      let t' := t.atPoint row col depth
      let n := if t.opc = 0x0D1 then t'.col else t'.row
      let s := (s.setMCmd t').modHome bk m.uid fun b =>
        if t.entries = 0 then b
        else b.modStream t.sn fun st =>
          let st := { st with skips := st.skips ++ [(t.entry, n)], buf := SMap.erase st.buf fun e => decide (t.entry ≤ e) && decide (e < t.entry + n) }
          if st.dir = 0 then Stream.passInput (st.issue - st.pos) st else Stream.passOutput (st.issue - st.pos) st
      let c := s.core (keyCore bk)
      return (if isMma t.opc then
        s.setCore (keyCore bk) { c with arrays := c.arrays.map fun a =>
          if a.2.bank = bk && a.2.tl = t.tl then (a.1, { a.2 with w := startBank c t' }) else a }
        else s).markMat bk m.uid

/-- The next record of a bank is a word of an active crew that has mat as a member. -/
def matCrewWord (s : State) (bk : Nat) : Bool :=
  ((s.core (keyCore bk)).mq.find? fun m => m.bank == bk && !m.entered && s.resident bk m.uid).any fun m =>
    (crewOf ((s.home bk m.uid).getD Bank.reset) .mat).isSome

/-- The bank whose record enters the tile queue first where both present one: a crew's member word before a non-crew word, bank 0's of
two crews (R280), else bank 0's in an even cycle of the core clock and bank 1's in an odd one (R34). -/
def matFirst (s : State) (core : Nat) : Nat :=
  match matCrewWord s (2 * core), matCrewWord s (2 * core + 1) with
  | false, false => s.coreClock core % 2
  | false, true => 1
  | _, _ => 0

/-- A record enters the tile queue, of the bank that comes first or else of the other (R34, R280). -/
def tryMatIssue (core : Nat) (s : State) : Option State :=
  let first := matFirst s core
  match tryEnterMat (2 * core + first) s with
  | some t => some t
  | none => tryEnterMat (2 * core + (1 - first)) s

/-! ### The scheduler (R161 to R164) -/

/-- Two commands of a bank that are performed one after the other, in queue order (R161): a slot that both name and do
not both only read, a stream, a tile that one of them stores, loads or clears, or in deterministic operation any tile
(R162). -/
def matConflict (e m : MCmd) : Bool :=
  (e.slotsChanged.any fun n => m.slotsChanged.contains n || m.slotsRead.contains n)
  || (e.slotsRead.any fun n => m.slotsChanged.contains n)
  || (e.usesStream && m.usesStream && e.sn == m.sn)
  || ((isAs e.opc || isAs m.opc || m.det) && (match e.tile, m.tile with
      | some a, some b => a == b
      | _, _ => false))

/-- The records before one in the queue. -/
def before (q : List MCmd) (m : MCmd) : List MCmd := q.takeWhile fun e => !(e.uid == m.uid && e.tl == m.tl)

/-- The array that an MMA takes: the lowest-numbered free one, or the one that ARR names (R164). -/
def freeArray (c : Core) (m : MCmd) : Option Nat :=
  let a := geoArr m.geo
  (List.range 6).find? fun n => (SMap.find c.arrays n).isNone && (a == 0 || a == n + 1)

/-- The slot condition of mclaim (R148): the slot is free or the task's own, and no mclaim of another task has started on it. -/
def slotFree (c : Core) (m : MCmd) : Bool :=
  (c.mq.all fun e => !(e.opc == 0x0CA && e.started && !e.finished && e.ms == m.ms && e.uid != m.uid)) &&
  match SMap.find c.slots m.ms with
  | none => true
  | some sl => sl.held.isNone || sl.held == some m.uid

/-- The tile condition (R162): no round of another task is open. -/
def tileFree (c : Core) (m : MCmd) : Bool := (m.tile.bind (SMap.find c.rounds)).all fun r => r.uid == m.uid

/-- The stream condition of the next entry (R164): an input entry has been fetched, an output entry has room. -/
def streamReady (s : State) (m : MCmd) : Bool :=
  !m.usesStream || m.atEnd ||
  match (s.home m.bank m.uid).bind (·.stream m.sn) with
  | none => false
  | some st =>
    if m.opc = 0x0CC || m.opc = 0x0D3 then (SMap.find st.buf (m.entry + m.row)).isSome
    else st.hasRoom (m.entry + if m.opc = 0x0D1 then m.col else m.row)

/-- The load and store path of a bank is at work (R164); a command on it that waits for its stream holds back its course and no
other (R161). -/
def pathBusy (s : State) (c : Core) (m : MCmd) : Bool :=
  c.mq.any fun e => e.bank == m.bank && e.started && !e.finished && !isMma e.opc && e.opc != 0x0CE && s.resident e.bank e.uid && streamReady s e

/-- The conditions of a start but for those of R148 and R162 on its slot and its tile (R161, R164). Commands of a task that is in its
image hold back none. -/
def startable (s : State) (c : Core) (m : MCmd) : Bool :=
  m.entered && !m.started && m.opc != 0x0CE && s.resident m.bank m.uid
  && ((before c.mq m).all fun e =>
    !(e.bank == m.bank && s.resident e.bank e.uid && (e.entered && !e.started && e.course == m.course || matConflict e m)))
  && (c.mq.all fun e =>
    !(isMma e.opc && isMma m.opc && e.started && e.tile.isSome && e.tile == m.tile && s.resident e.bank e.uid))
  && (if isMma m.opc then m.empty || (freeArray c m).isSome else !pathBusy s c m)
  && streamReady s m

/-- A record may start (R161, R162, R164). -/
def canStart (s : State) (c : Core) (m : MCmd) : Bool :=
  startable s c m && tileFree c m && (m.opc != 0x0CA || slotFree c m)

/-- Starting a record: what takes no further step of its own is performed now. -/
def startMat (s : State) (m : MCmd) : State :=
  let ck := keyCore m.bank
  let m := { m with started := true }
  let s := match m.tile with
    | some a => s.modCore ck fun c => c.openRound m a
    | none => s
  let s :=
    if isMma m.opc then
      if m.empty || (geoK m.geo = 0 && !m.clr) then s.setMCmd { m with finished := true }
      else
        let c := s.core ck
        match freeArray c m with
        | some n => (s.setCore ck { c with arrays := SMap.put c.arrays n ⟨m.bank, m.tl, startBank c m⟩ }).setMCmd m
        | none => s
    else if m.opc = 0x0CB then
      (s.modCore ck fun c =>
        match SMap.find c.slots m.ms with
        | some sl => if sl.held = some m.uid then { c with slots := SMap.put c.slots m.ms { sl with held := none } } else c
        | none => c).setMCmd { m with finished := true }
    else if m.opc = 0x0CD then (s.modCore ck fun c => c.clearSlot m.ms).setMCmd { m with finished := true }
    else if m.opc = 0x0D2 then
      (s.modCore ck fun c => { c with tiles := SMap.erase c.tiles fun k => k / 16384 == m.acc }).setMCmd { m with finished := true }
    else s.setMCmd { m with finished := m.atEnd }
  s.markMat m.bank m.uid

/-- TILE_SCHEDULER_START (R164): the oldest record whose conditions are met starts. -/
def tryTileSchedulerStart (core : Nat) (s : State) : Option State :=
  let c := s.core core
  (c.mq.find? fun m => canStart s c m).map fun m => startMat s m

/-- TILE_SCHEDULER_START (R164). -/
def execTileSchedulerStart (core : Nat) (s : State) : Out := eventOn s core (tryTileSchedulerStart core s)

/-- The started, unfinished command of an opcode on a bank that its stream does not hold up. One that gave up the path for want of
stream entries goes on as soon as they are there, beside the command that took the path meanwhile (DESIGN CHOICE: log 41). -/
def running (s : State) (bk : Nat) (p : Nat → Bool) : Option MCmd :=
  (s.core (keyCore bk)).mq.find? fun m => m.bank == bk && m.started && !m.finished && p m.opc && s.resident bk m.uid && streamReady s m

/-! ### Slots and lines (R148, R150) -/

/-- mclaim is performed (R148): a slot last held by another context, or by none, is cleared first. -/
def tryMclaimPerformed (core bank : Nat) (s : State) : Option State := do
  let bk := bankKey core bank
  let m ← running s bk (· == 0x0CA)
  let c := s.core core
  if !slotFree c m then none
  let sl := SMap.get ⟨none, none⟩ c.slots m.ms
  let c := if sl.held = some m.uid || sl.last = some m.ctx then c else c.clearSlot m.ms
  let s := s.setCore core { c with slots := SMap.put c.slots m.ms ⟨some m.uid, some m.ctx⟩ }
  return (s.setMCmd { m with finished := true }).markMat bk m.uid

/-- MCLAIM_PERFORMED (R148). -/
def execMclaimPerformed (core bank : Nat) (s : State) : Out := eventOn s core (tryMclaimPerformed core bank s)

/-- One line of an mload: writing it, removing the entry and ROW, in one step (R150). -/
def tryMloadLine (core bank : Nat) (s : State) : Option State := do
  let bk := bankKey core bank
  let m ← running s bk (· == 0x0CC)
  if 128 ≤ m.row then none
  let b ← s.home bk m.uid
  let st ← b.stream m.sn
  let v ← SMap.find st.buf (m.entry + m.row)
  let s := s.modCore core fun c => { c with marver := SMap.set 0 c.marver (128 * m.ms + m.row) v }
  let s := s.modHome bk m.uid fun b => b.modStream m.sn fun st => st.remove (m.entry + m.row)
  return (s.setMCmd { m with row := m.row + 1, finished := m.row + 1 == 128 }.mark).markMat bk m.uid

/-- MLOAD_LINE (R150). -/
def execMloadLine (core bank : Nat) (s : State) : Out := eventOn s core (tryMloadLine core bank s)

/-! ### Storing and loading tiles (R165 to R167, R170) -/

/-- The positions of the string of an astore: rows, or columns for astore.t (R165). -/
def storeOrder (m : MCmd) : List (Nat × Nat) :=
  let p := corner (geoM m.geo) (geoN m.geo)
  if m.opc = 0x0D1 then
    (List.range (geoN m.geo)).flatMap fun j => (List.range (geoM m.geo)).map fun i => (i, j)
  else p

/-- Elements of the string that entry `k` holds. -/
def entryElems (et : Nat) : Nat :=
  match blocksPerEntry et with
  | some bm => 32 * bm
  | none => 2048 / etWidth et

/-- Conversion of a tile element (R166). -/
def storeElem (m : MCmd) (v u : Nat) : Nat × Fl :=
  convElem (if geoInt m.geo then 5 else 0) m.etd v m.rm m.sat u

/-- An output entry of an astore: its bits, its flags and the values it offers (R165 to R167). -/
def storeEntry (c : Core) (m : MCmd) (k : Nat) (us : List Nat) : VReg × Fl × List Num :=
  let n := entryElems m.etd
  let ps := ((storeOrder m).drop (n * k)).take n
  let vs := ps.map fun p => (c.tileElem m.acc p.1 p.2).toNat
  let offers := vs.map (elemNum (if geoInt m.geo then 5 else 0))
  let u (i : Nat) : Nat := us.getD i 0
  if isMxEt m.etd then
    let blocks := (List.range (vs.length / 32)).map fun b =>
      toMx m.etd ((offers.drop (32 * b)).take 32) m.rm ((range2 (32 * b) 32).map u)
    (BitVec.ofNat 2048 (packN (etWidth m.etd) (blocks.flatMap fun b => b.2.1) + packN 8 (blocks.map (·.1)) * 2 ^ (8 * 248)),
     blocks.foldl (fun f b => f ||| b.2.2) 0, offers)
  else
    let rs := vs.zipIdx.map fun x => storeElem m x.1 (u x.2)
    (BitVec.ofNat 2048 (packN (etWidth m.etd) (rs.map (·.1))), rs.foldl (fun f r => f ||| r.2) 0, offers)

/-- One entry of an astore: converted, enqueued and counted in one step (R166). -/
def tryAstoreEntry (core bank : Nat) (s : State) : Option State := do
  let bk := bankKey core bank
  let m ← running s bk fun o => o == 0x0D0 || o == 0x0D1
  let k := if m.opc = 0x0D0 then m.row else m.col
  if m.entries ≤ k then none
  let b ← s.home bk m.uid
  let st ← b.stream m.sn
  let e := m.entry + k
  if !st.hasRoom e then none
  let r := storeEntry (s.core core) m k (randomBits m.seed b m.rm (.stream m.sn e))
  let s := s.modHome bk m.uid fun b =>
    (b.modStream m.sn fun st => st.enqueue e r.1 (offered r.2.2)).addFlags r.2.1
  let m := if m.opc = 0x0D0 then { m with row := k + 1 } else { m with col := k + 1 }
  return (s.setMCmd { m with finished := k + 1 == m.entries }.mark).markMat bk m.uid

/-- ASTORE_ENTRY (R166). -/
def execAstoreEntry (core bank : Nat) (s : State) : Out := eventOn s core (tryAstoreEntry core bank s)

/-- Conversion of a loaded element into a tile element (R96, R170): `u` are random bits. -/
def loadElem (m : MCmd) (scale b u : Nat) : Nat × Fl :=
  if geoInt m.geo then (if m.etd = 5 then b else wrapN 32 (toSigned 8 b), 0)
  else if isMxEt m.etd then roundTo .fp32 (mxNum m.etd scale b) m.rm m.sat u
  else convElem m.etd 0 b m.rm m.sat u

/-- One entry of an aload: its elements are held until the command completes (R170). -/
def tryAloadEntry (core bank : Nat) (s : State) : Option State := do
  let bk := bankKey core bank
  let m ← running s bk (· == 0x0D3)
  if m.entries ≤ m.row then none
  let b ← s.home bk m.uid
  let st ← b.stream m.sn
  let v ← SMap.find st.buf (m.entry + m.row)
  let n := entryElems m.etd
  let ps := ((storeOrder m).drop (n * m.row)).take n
  let rs := ps.zipIdx.map fun x =>
    let u := if m.rm = 4 then (Config.aloadRandom m.seed (m.entry + m.row) x.2).toNat else 0
    let r := loadElem m (elem 8 (248 + x.2 / 32) v) (elem (etWidth m.etd) x.2 v) u
    (128 * x.1.1 + x.1.2, BitVec.ofNat 32 r.1, r.2)
  let held := rs.foldl (fun h r => SMap.put h r.1 r.2.1) m.held
  let s := s.modHome bk m.uid fun b =>
    (b.modStream m.sn fun st => st.remove (m.entry + m.row)).addFlags (rs.foldl (fun f r => f ||| r.2.2) 0)
  return (s.setMCmd { m with row := m.row + 1, held := held, finished := m.row + 1 == m.entries }.mark).markMat bk m.uid

/-- ALOAD_ENTRY (R170). -/
def execAloadEntry (core bank : Nat) (s : State) : Out := eventOn s core (tryAloadEntry core bank s)

/-! ### Punty marks (R172, R173) -/

/-- An array runs its record to the next mark and commits: the tile and DEPTH in one step. -/
def tryPuntyMark (core array : Nat) (s : State) : Option State := do
  let c := s.core core
  let a ← SMap.find c.arrays array
  let m ← c.mq.find? fun m => m.bank == a.bank && m.tl == a.tl && isMma m.opc
  if !s.resident m.bank m.uid then none
  let e := if geoK m.geo = 0 then 0 else nextMark m m.depth
  let r := runSteps c m a.w m.depth e
  let last := e == geoK m.geo
  let c := c.setTile m.acc r.1
  let c := { c with arrays := if last then SMap.del c.arrays array else SMap.put c.arrays array { a with w := r.1 } }
  let s := (s.setCore core c).modHome m.bank m.uid fun b => b.addFlags r.2
  return (s.setMCmd { m with depth := e, finished := last }.mark).markMat m.bank m.uid

/-- PUNTY_MARK (R173). -/
def execPuntyMark (core array : Nat) (s : State) : Out := eventOn s core (tryPuntyMark core array s)

/-! ### Completion (R160, R162) -/

/-- A round of a task that has reached TAIL closes once no command of the task names its tile (R162). -/
def Core.closeTailed (c : Core) (uid : Nat) : Core :=
  { c with rounds := c.rounds.filter fun r =>
      !(r.2.uid == uid && r.2.tailed && c.mq.all fun m => !(m.uid == uid && m.tile == some r.1)) }

/-- The slots that a task at its TAIL holds and no matrix command of it names any more go free (R148). -/
def Core.releaseUnnamed (c : Core) (uid : Nat) : Core :=
  { c with slots := c.slots.map fun e =>
      if e.2.held = some uid && c.mq.all (fun m => m.uid != uid || !((m.slotsRead ++ m.slotsChanged).contains e.1)) then
        (e.1, { e.2 with held := none }) else e }

/-- The oldest finished command of a bank completes: aload's tile is written, an astore closes its round, tl5 may pass;
mresume completes with the command it resumes. -/
def tryMatrixCompletion (core bank : Nat) (s : State) : Option State := do
  let bk := bankKey core bank
  let c := s.core core
  let m ← c.mq.find? fun m =>
    m.bank == bk && s.resident bk m.uid &&
    (m.finished || (m.opc == 0x0CE && m.entered && c.mq.all fun x => !(x.uid == m.uid && x.tl == m.resume.target)))
  let s := s.modCore core fun c =>
    let c := if m.opc = 0x0D3 then c.setTile m.acc m.held else c
    let c := { c with mq := c.mq.filter fun x => !(x.uid == m.uid && x.tl == m.tl) }
    let c := if (m.opc = 0x0D0 || m.opc = 0x0D1) && (SMap.find c.rounds m.acc).any (fun r => r.uid == m.uid) then
        { c with rounds := SMap.del c.rounds m.acc } else c
    let c := c.closeTailed m.uid
    if c.tracker.any (fun t => t.uid == m.uid) then c.releaseUnnamed m.uid else c
  return (s.tlDone bk 5 m.tl).markMat bk m.uid

/-- MATRIX_COMPLETION (R160). -/
def execMatrixCompletion (core bank : Nat) (s : State) : Out := eventOn s core (tryMatrixCompletion core bank s)

/-! ### Reset (R174) -/

/-- Working banks are discarded and every started record goes on from its mark. -/
def State.resetMat (s : State) (core : Nat) : State :=
  s.modCore core fun c =>
    { c with arrays := c.arrays.map fun a =>
        match c.mq.find? fun m => m.bank == a.2.bank && m.tl == a.2.tl && isMma m.opc with
        | some m => (a.1, { a.2 with w := startBank c m })
        | none => a }

end Sys2Proof.Machine
end

