-- ==== Sys2Proof/Machine/Order.lean ====
section
/-!
DEFINITION. Machine/Order.lean: class 110: fences, acquiring loads and releasing stores, the semaphore instructions and
the timeline instructions (R195 to R201).
-/

namespace Sys2Proof.Machine

/-! ### Fences (R195) -/

/-- FENCE_SC (R195). -/
def execFenceSc (c : Ctl) (f : FSc) (s : State) : Out :=
  perform s 8 do
    let s' ← ccStart s c
    let k ← scopeField f.scope memScope 61
    let ag := s.agent s.me
    return (s'.release ag k).acquire ag.key k

/-- FENCE_REL (R195). -/
def execFenceRel (c : Ctl) (f : FSc) (s : State) : Out :=
  perform s 8 do
    let s' ← ccStart s c
    let k ← scopeField f.scope memScope 61
    return s'.release (s.agent s.me) k

/-- FENCE_ACQ (R195). -/
def execFenceAcq (c : Ctl) (f : FSc) (s : State) : Out :=
  perform s 8 do
    let s' ← ccStart s c
    let k ← scopeField f.scope memScope 61
    return s'.acquire (keyCore s.me) k

/-! ### Loads and stores at the home (R196) -/

/-- LDACQ (R196). -/
def execLdacq (c : Ctl) (f : FMa) (s : State) : Out :=
  perform s 8 do
    let s' ← ccStart s c
    let k ← scopeField f.scope memScope 49
    let ag := s.agent s.me
    let n := 2 ^ f.sz.toNat
    let (p, s') ← access s' ag .read true 4 (s.rx s.me f.xa + sx64 f.off) n
    let s' := if p.cached then s'.dropL1 ag.key (sectorOf p.loc) else s'
    let v := s'.readLoc p.loc n
    return (s'.acquire ag.key k).wx s.me f.xd (w64 v)

/-- The bytes a STREL writes and what becomes of their sector (R196). -/
def State.storeReleased (s : State) (ag : Agent) (k : Nat) (p : Place) (bs : List Byte) : State :=
  if !p.cached then s.writeLoc p.loc bs
  else if 2 ≤ k then s.storePublished ag.key p bs
  else
    let tag : Tag := if k = 1 then .core ag.key else .task ag.uid
    ((s.writeLoc p.loc bs).dropL1 ag.key (sectorOf p.loc)).tagNarrow (sectorOf p.loc) tag none

/-- STREL (R196). -/
def execStrel (c : Ctl) (f : FMa) (s : State) : Out :=
  perform s 8 do
    let s' ← ccStart s c
    let k ← scopeField f.scope memScope 49
    let ag := s.agent s.me
    let n := 2 ^ f.sz.toNat
    let (p, s') ← access s' ag .write true 6 (s.rx s.me f.xa + sx64 f.off) n
    return (s'.release ag k).storeReleased ag k p (leBytes n (s.rx s.me f.xd).toNat)

/-! ### Semaphore instructions (R198 to R200) -/

/-- A returned value of a semaphore operation makes the task's log entry unverifiable (R373). -/
def State.usesSem (s : State) (xd : BitVec 5) : State :=
  if xd = 0 then s else s.modTask ((s.bank s.me).uid.getD 0) fun t => { t with unverifiable := true }

/-- The scope and the word of a semaphore instruction, fields checked from the highest down (R62, R198). -/
def semOperand (s : State) (f : FSm) : Except Stop (Nat × Nat) := do
  let w ← semWord s (s.ctxOf s.me) ((s.rx s.me f.xh).setWidth 32) 54
  let k ← scopeField f.scope memScope 41
  return (w, k)

/-- A read-modify-write of a semaphore word (R198): release, the operation, acquire; the old word to x[xd]. -/
def semRmw (s s' : State) (f : FSm) (w k : Nat) (new : Word) : State :=
  let ag := s.agent s.me
  let s' := ((s'.release ag k).semWrite w new).acquire ag.key k
  (s'.usesSem f.xd).wx s.me f.xd (s.semRead w)

/-- SEM_LD (R198). -/
def execSemLd (c : Ctl) (f : FSm) (s : State) : Out :=
  perform s 8 do
    let s' ← ccStart s c
    let (w, k) ← semOperand s f
    return ((s'.acquire (keyCore s.me) k).usesSem f.xd).wx s.me f.xd (s.semRead w)

/-- SEM_ST (R198). -/
def execSemSt (c : Ctl) (f : FSm) (s : State) : Out :=
  perform s 8 do
    let s' ← ccStart s c
    let (w, k) ← semOperand s f
    return (s'.release (s.agent s.me) k).semWrite w (s.rx s.me f.xa)

/-- SEM_ADD (R198). -/
def execSemAdd (c : Ctl) (f : FSm) (s : State) : Out :=
  perform s 8 do
    let s' ← ccStart s c
    let (w, k) ← semOperand s f
    return semRmw s s' f w k (s.semRead w + s.rx s.me f.xa)

/-- SEM_CAS (R198). -/
def execSemCas (c : Ctl) (f : FSm) (s : State) : Out :=
  perform s 8 do
    let s' ← ccStart s c
    let (w, k) ← semOperand s f
    let old := s.semRead w
    return semRmw s s' f w k (if old = s.rx s.me f.xa then s.rx s.me f.xb else old)

/-- SEM_MAX (R198). -/
def execSemMax (c : Ctl) (f : FSm) (s : State) : Out :=
  perform s 8 do
    let s' ← ccStart s c
    let (w, k) ← semOperand s f
    let old := s.semRead w
    let a := s.rx s.me f.xa
    return semRmw s s' f w k (if old.toNat < a.toNat then a else old)

/-- SEM_SWAP (R198). -/
def execSemSwap (c : Ctl) (f : FSm) (s : State) : Out :=
  perform s 8 do
    let s' ← ccStart s c
    let (w, k) ← semOperand s f
    return semRmw s s' f w k (s.rx s.me f.xa)

/-- SEM_WAIT (R198, R199): a bank woken from a park finds its condition holding. -/
def execSemWait (c : Ctl) (f : FSm) (s : State) : Out :=
  perform s 8 do
    let s' ← ccStart s c
    let (w, k) ← semOperand s f
    let v := s.rx s.me f.xa
    need ((s.bank s.me).granted || condHolds s (.semGe w v)) (.wait (.semGe w v))
    return s'.acquire (keyCore s.me) k

/-- BUMP (R200): the sum is taken without wrap. -/
def execBump (c : Ctl) (f : FSm) (s : State) : Out :=
  perform s 8 do
    let s' ← ccStart s c
    let (w, k) ← semOperand s f
    let ag := s.agent s.me
    let old := (s.semRead w).toNat
    let new := old + (s.rx s.me f.xa).toNat
    let fits := decide (new ≤ (s.rx s.me f.xb).toNat)
    let s' := s'.release ag k
    let s' := (if fits then s'.semWrite w (w64 new) else s').acquire ag.key k
    return (s'.usesSem f.xd).wx s.me f.xd (if fits then w64 old else ~~~0#64)

/-! ### Timeline counters (R201) -/

/-- A bank acquires every operation numbered `n` or less on a counter (R188, R201): those engine writes no longer hold
back a release. -/
def State.acquireTl (s : State) (bk k n : Nat) : State :=
  { s with dir := s.dir.map fun e =>
      (e.1, { e.2 with pend := e.2.pend.filter fun p => !(p.1 == bk && p.2.1 == k && decide (p.2.2 ≤ n)) }) }

/-- The stopped command of the engine that a counter belongs to (R194). -/
def stoppedOn (c : Core) (k uid : Nat) : Option (Nat × Word × Nat) :=
  if k < 4 then trapC c k uid
  else if k = 4 then trapV c uid
  else if k = 5 then none
  else trapK c (k - 6) uid

/-- The first stopped input stream whose stopped entry an issued command of the counter's engine, numbered `v` or less, took
(R219). -/
def stoppedStreamOn (c : Core) (b : Bank) (k uid v : Nat) : Option (Nat × Stream) :=
  b.streams.find? fun e => e.2.stop != 0 && e.2.dir == 0 &&
    ((k == 4 && c.vq.any fun m =>
        m.uid == uid && decide (m.tl ≤ v) && (m.va == .stream e.1 e.2.next || m.vb == .stream e.1 e.2.next))
     || (k == 5 && c.mq.any fun m =>
        m.uid == uid && m.usesStream && decide (m.tl ≤ v) && m.sn == e.1 && decide (m.entry ≤ e.2.next) && decide (e.2.next < m.entry + m.entries)))

/-- A wait on a counter that a stopped command or stream ends by its trap (R194, R219). -/
def waitStopped (c : Core) (b : Bank) (uid : Nat) : WaitCond → Bool
  | .tlGe _ k v =>
    (stoppedOn c k uid).any (fun x => decide (x.2.2 ≤ v.toNat)) || (stoppedStreamOn c b k uid v.toNat).isSome
  | _ => false

/-- WAITTL (R201): a stopped command numbered at or below the value traps (R194). -/
def execWaittl (c : Ctl) (f : FTl) (s : State) : Out :=
  perform s 8 do
    let s' ← ccStart s c
    let bk := s.me
    let k := f.tln.toNat
    let v := s.rx bk f.xa
    match stoppedOn (s.core (keyCore bk)) k ((s.bank bk).uid.getD 0) with
    | some (cause, tval, n) => need (decide (v.toNat < n)) (.trap cause tval)
    | none => pure ()
    match stoppedStreamOn (s.core (keyCore bk)) (s.bank bk) k ((s.bank bk).uid.getD 0) v.toNat with
    | some (n, st) => throw (.streamStop n st.stopCause st.stopAddr)
    | none => pure ()
    need (condHolds s (.tlGe bk k v)) (.wait (.tlGe bk k v))
    let s' := (s'.acquireTl bk k v.toNat).acquire (keyCore bk) 4
    return s'.wx bk f.xd (w64 ((s.bank bk).timeline k).val)

/-- TLREAD (R201). -/
def execTlread (c : Ctl) (f : FTl) (s : State) : Out :=
  perform s 8 do
    let s' ← ccStart s c
    return s'.wx s.me f.xd (w64 ((s.bank s.me).timeline f.tln.toNat).val)

end Sys2Proof.Machine
end

