-- ==== Sys2Proof/Machine/Streams.lean ====
section
/-!
DEFINITION. Machine/Streams.lean: binding streams (R209 to R214), the stream instructions (R215 to R218), pointer tests
and casts (R245, R246), and the traffic of the transfer units for streams (R219).
-/

namespace Sys2Proof.Machine

/-! ### Descriptors (R209, R210) -/

/-- The stream that a descriptor describes, bound (R209, R212). -/
def Stream.ofWords (d : List Word) : Stream :=
  let w (i : Nat) : Word := d.getD i 0
  { base := w 0
    str2 := BitVec.ofNat 32 (bits (w 1) 63 32)
    str1 := BitVec.ofNat 32 (bits (w 1) 31 0)
    cnt2 := BitVec.ofNat 16 (bits (w 2) 63 48)
    cnt1 := BitVec.ofNat 16 (bits (w 2) 47 32)
    str3 := BitVec.ofNat 32 (bits (w 2) 31 0)
    pos := bits (w 3) 63 32
    bpe := BitVec.ofNat 4 (bits (w 3) 31 28)
    fmt := BitVec.ofNat 4 (bits (w 3) 27 24)
    elenm1 := BitVec.ofNat 8 (bits (w 3) 23 16)
    cnt3 := BitVec.ofNat 16 (bits (w 3) 15 0)
    scb := w 4
    tu := BitVec.ofNat 2 (bits (w 5) 34 33)
    dir := BitVec.ofNat 1 (bits (w 5) 32 32)
    scstr := BitVec.ofNat 32 (bits (w 5) 31 0)
    tag := w 6
    mm := BitVec.ofNat 32 (bits (w 7) 63 32)
    wcnt := BitVec.ofNat 32 (bits (w 7) 31 0)
    issue := bits (w 3) 63 32
    next := bits (w 3) 63 32
    buf := []
    skips := []
    stop := 0
    stopCause := 0
    stopAddr := 0
    hold := false
    parked := none }

/-- The descriptor that sunbind stores: POS is the issue position (R214). -/
def Stream.words (st : Stream) : List Word :=
  [st.base,
   w64 (st.str2.toNat * 2 ^ 32 + st.str1.toNat),
   w64 (st.cnt2.toNat * 2 ^ 48 + st.cnt1.toNat * 2 ^ 32 + st.str3.toNat),
   w64 (st.issue % 2 ^ 32 * 2 ^ 32 + st.bpe.toNat * 2 ^ 28 + st.fmt.toNat * 2 ^ 24 + st.elenm1.toNat * 2 ^ 16
     + st.cnt3.toNat),
   st.scb,
   w64 (st.tu.toNat * 2 ^ 33 + st.dir.toNat * 2 ^ 32 + st.scstr.toNat),
   st.tag,
   w64 (st.mm.toNat * 2 ^ 32 + st.wcnt.toNat)]

/-- Address of entry `e`, and of its scales (R210). -/
def Stream.addr (st : Stream) (e : Nat) : Word :=
  let c1 := st.cnt1.toNat
  let c2 := st.cnt2.toNat
  st.base + w64 (e % c1) * sx64 st.str1 + w64 (e / c1 % c2) * sx64 st.str2 + w64 (e / (c1 * c2)) * sx64 st.str3
def Stream.scaleAddr (st : Stream) (e : Nat) : Word := st.scb + w64 e * sx64 st.scstr

/-- The checks of R213 on a descriptor: 0, or the reason. -/
def streamCheck (d : List Word) (st : Stream) : Nat :=
  let f := st.fmt.toNat
  let mx := decide (8 ≤ f) && decide (f ≤ 13)
  let b := st.bpe.toNat
  if bits (d.getD 5 0) 63 35 != 0 || st.cnt1 == 0 || st.cnt2 == 0 || st.cnt3 == 0 || decide (2 ^ 32 ≤ st.total)
      || decide (st.total < st.pos) then 0x19
  else if f == 7 || f == 15 || (f == 14 && st.dir == 1) || (b != 0 && !mx) || (mx && (b == 0 || decide (8 < b)))
      || (decide (0 < b) && decide (248 < st.elen)) then 0x15
  else 0

/-! ### Control-core loads and stores of doublewords -/

/-- Plain 8-byte loads of `n` doublewords, in ascending order. -/
def loadWords (s : State) (ag : Agent) : Nat → Word → Except Stop (List Word × State)
  | 0, _ => .ok ([], s)
  | n + 1, va =>
    match access s ag .read false 4 va 8 with
    | .error e => .error e
    | .ok (p, s') =>
      match loadWords (s'.fill ag.key p) ag n (va + 8) with
      | .error e => .error e
      | .ok (ws, s'') => .ok (w64 (s'.readLoc p.loc 8) :: ws, s'')

/-- Plain 8-byte stores, in ascending order. -/
def storeWords (s : State) (ag : Agent) : List Word → Word → Except Stop State
  | [], _ => .ok s
  | w :: ws, va =>
    match access s ag .write false 6 va 8 with
    | .error e => .error e
    | .ok (p, s') => storeWords (s'.storeL1 ag p (leBytes 8 w.toNat) none) ag ws (va + 8)

/-! ### Binding (R212 to R214) -/

/-- The bound stream that SR names, or reason 0x13 (R29). -/
def boundStream (s : State) (sr : BitVec 5) : Except Stop Stream :=
  match (s.bank s.me).stream sr.toNat with
  | some st => .ok st
  | none => .error (badOp 0x13 59)

/-- The fault of a stopped stream (R219). -/
def notStopped (n : Nat) (st : Stream) : Except Stop Unit :=
  need (st.stop == 0) (.streamStop n st.stopCause st.stopAddr)

/-- SBIND (R212, R213). -/
def execSbind (c : Ctl) (f : FSb) (s : State) : Out :=
  perform s 8 do
    let s' ← ccStart s c
    let n := f.sr.toNat
    need ((s.bank s.me).stream n).isNone (badOp 0x19 59)
    let ag := s.agent s.me
    let a := s.rx s.me f.xa
    need (a.toNat % 64 == 0) (.trap 4 a)
    let (d, s') ← loadWords s' ag 8 a
    let st := Stream.ofWords d
    let r := streamCheck d st
    need (r == 0) (badOp r 49)
    return (s'.release ag 1).modBank s.me fun b => b.setStream n st

/-- The fresh number under which an unbound input stream serves the commands that took its entries (R214). -/
def Bank.orphanKey (b : Bank) : Nat := b.streams.foldl (fun n e => max n (e.1 + 1)) 32

def VLoc.rename (n k : Nat) : VLoc → VLoc
  | .stream m e => if m = n then .stream k e else .stream m e
  | l => l

/-- Queued commands of a task follow a stream to its fresh number. -/
def Core.renameStream (c : Core) (uid n k : Nat) : Core :=
  { c with
    vq := c.vq.map fun v => if v.uid = uid then { v with va := v.va.rename n k, vb := v.vb.rename n k } else v
    mq := c.mq.map fun m => if m.uid = uid && m.sn = n then { m with sn := k } else m }

def Bank.renameExposed (b : Bank) (n k : Nat) : Bank :=
  { b with exposed := b.exposed.map fun e =>
      { e with cmd := { e.cmd with va := e.cmd.va.rename n k, vb := e.cmd.vb.rename n k } } }

/-- The entries of an input stream from its issue position onwards are discarded (R214, R215). -/
def Stream.refetch (st : Stream) : Stream :=
  { st with buf := st.buf.filter fun e => decide (e.1 < st.issue), next := min st.next st.issue }

/-- The end of a binding (R214): commands that took entries of an input stream keep them. -/
def State.unbind (s : State) (bk uid n : Nat) : State :=
  let b := s.bank bk
  match b.stream n with
  | none => s
  | some st =>
    if st.dir = 0 && st.pos != st.issue then
      let k := b.orphanKey
      let b := { b with streams := SMap.put (SMap.del b.streams n) k st.refetch }
      (s.setBank bk (b.renameExposed n k)).modCore (keyCore bk) fun c => c.renameStream uid n k
    else s.setBank bk { b with streams := SMap.del b.streams n }

/-- Stream writes of a bank are acquired (R215, R219): key 8 + n stands for the drains of stream n. -/
def State.acquireDrains (s : State) (bk n issue : Nat) : State :=
  (s.acquireTl bk (8 + n) issue).acquire (keyCore bk) 4

/-- The wait of sflush and sunbind for an output stream (R214, R215). -/
def drained (s : State) (n : Nat) : Except Stop Unit :=
  need (condHolds s (.streamIdle s.me n)) (.wait (.streamIdle s.me n))

/-- SUNBIND (R214). An x[xa] that is no multiple of 64 raises store-address-misaligned, with tval x[xa]: R214 names no exception
(DESIGN CHOICE: log 56). -/
def execSunbind (c : Ctl) (f : FSb) (s : State) : Out :=
  perform s 8 do
    let s' ← ccStart s c
    let n := f.sr.toNat
    let st ← boundStream s f.sr
    notStopped n st
    if st.dir = 1 then drained s n
    let a := s.rx s.me f.xa
    need (f.xa == 0 || a.toNat % 64 == 0) (.trap 6 a)
    let s' := if st.dir = 1 then s'.acquireDrains s.me n st.issue else s'
    let s' ← if f.xa = 0 then .ok s' else storeWords s' (s.agent s.me) st.words a
    return s'.unbind s.me ((s.bank s.me).uid.getD 0) n

/-! ### Stream instructions (R215 to R218) -/

/-- SFLUSH (R215). -/
def execSflush (c : Ctl) (f : FSb) (s : State) : Out :=
  perform s 8 do
    let s' ← ccStart s c
    let n := f.sr.toNat
    let st ← boundStream s f.sr
    notStopped n st
    if st.dir = 1 then
      drained s n
      return s'.acquireDrains s.me n st.issue
    else return (s'.release (s.agent s.me) 1).modBank s.me fun b => b.modStream n Stream.refetch

/-- Skipping `n` positions (R216): entries of an input stream already fetched for them are dropped. -/
def Stream.skip (st : Stream) (n : Nat) : Stream :=
  let gone (e : Nat) : Bool := st.dir == 0 && decide (st.issue ≤ e) && decide (e < st.issue + n)
  let st := { st with skips := st.skips ++ [(st.issue, n)], issue := st.issue + n, buf := SMap.erase st.buf gone }
  if st.dir = 0 then Stream.passInput (st.issue - st.pos) st else Stream.passOutput (st.issue - st.pos) st

/-- SSKIP (R216). -/
def execSskip (c : Ctl) (f : FSb) (s : State) : Out :=
  perform s 8 do
    let s' ← ccStart s c
    let st ← boundStream s f.sr
    let n := (s.rx s.me f.xa).toNat
    need (decide (st.issue + n ≤ st.total)) (.trap 32 0)
    return if n = 0 then s' else s'.modBank s.me fun b => b.modStream f.sr.toNat fun st => st.skip n

/-- The output stream that smaxr and smaxc read, once every entry taken has been enqueued (R217). -/
def maxStream (s : State) (sr : BitVec 5) : Except Stop Stream := do
  let st ← boundStream s sr
  need (st.dir == 1) (badOp 0x12 59)
  notStopped sr.toNat st
  need (st.pos == st.issue) .stall
  return st

/-- SMAXR (R217). -/
def execSmaxr (c : Ctl) (f : FSb) (s : State) : Out :=
  perform s 8 do
    let s' ← ccStart s c
    let st ← maxStream s f.sr
    return s'.wx s.me f.xd (st.mm.setWidth 64)

/-- SMAXC (R217). -/
def execSmaxc (c : Ctl) (f : FSb) (s : State) : Out :=
  perform s 8 do
    let s' ← ccStart s c
    let st ← maxStream s f.sr
    let s' := s'.modBank s.me fun b => b.modStream f.sr.toNat fun st => { st with mm := 0 }
    return s'.wx s.me f.xd (st.mm.setWidth 64)

/-- The status word of R218. -/
def Stream.status (st : Stream) : Word :=
  let ready := if st.dir = 0 then (st.buf.filter fun e => decide (st.issue ≤ e.1)).length else st.buf.length
  w64 (2 ^ 63 + st.dir.toNat * 2 ^ 62 + st.tu.toNat * 2 ^ 60 + st.stop.toNat * 2 ^ 56 + ready % 16 * 2 ^ 52
    + st.pos % 2 ^ 32)

/-- SSTAT (R218). -/
def execSstat (c : Ctl) (f : FSb) (s : State) : Out :=
  perform s 8 do
    let s' ← ccStart s c
    let st ← boundStream s f.sr
    return s'.wx s.me f.xd st.status

/-! ### Pointers (R245, R246) -/

/-- SPTEST (R245). -/
def execSptest (c : Ctl) (f : FSb) (s : State) : Out :=
  perform s 8 do
    let s' ← ccStart s c
    let ag := s.agent s.me
    let p := s.rx s.me f.xa
    return s'.wx s.me f.xd (match parseWindow s ag p with
      | none => 7
      | some (w, .glob _) => w64 (2 ^ 16 + w)
      | some (w, .spad key _) =>
        let own := if w = 2 && key != ag.key then 0 else 1
        w64 (own * 2 ^ 16 + keyL key * 2 ^ 8 + w))

/-- The pointer in window `win` to the byte that `p` addresses (R246); none is the address-window fault. -/
def castPointer (s : State) (ag : Agent) (p : Word) (win : Nat) : Option Word :=
  match parseWindow s ag p with
  | none => none
  | some (w, t) =>
    if w = win then some p
    else match t, win with
      | .glob _, 3 =>
        if (p - ag.frame).toNat < ag.framesz then some (w64 (0xE * 2 ^ 60 + (p - ag.frame).toNat)) else none
      | .glob a, 0 => some (w64 a)
      | .spad key off, 2 => some (w64 (0xD * 2 ^ 60 + keyL key * 2 ^ 54 + off))
      | .spad key off, 1 =>
        if keyL key / 16 = keyL ag.key / 16 then some (w64 (0xC * 2 ^ 60 + keyL key % 16 * 2 ^ 53 + off)) else none
      | _, _ => none

/-- SPCAST (R246). -/
def execSpcast (c : Ctl) (f : FSb) (s : State) : Out :=
  perform s 8 do
    let s' ← ccStart s c
    need (decide (f.win.toNat < 4)) (badOp 0x18 46)
    let p := s.rx s.me f.xa
    match castPointer s (s.agent s.me) p f.win.toNat with
    | some q => return s'.wx s.me f.xd q
    | none => throw (.trap 25 p)

/-! ### Traffic of the transfer units (R211, R219) -/

/-- The naturally aligned pieces, of at most 8 bytes, of `n` bytes at an address (R179, R219). -/
def pieces : Nat → Word → Nat → List (Word × Nat)
  | 0, _, _ => []
  | fuel + 1, a, n =>
    if n = 0 then []
    else
      let k := if a.toNat % 8 = 0 && decide (8 ≤ n) then 8
        else if a.toNat % 4 = 0 && decide (4 ≤ n) then 4
        else if a.toNat % 2 = 0 && decide (2 ≤ n) then 2
        else 1
      (a, k) :: pieces fuel (a + w64 k) (n - k)

/-- Reading pieces at the home, in ascending order: the bytes read, and what stopped the first piece that failed. -/
def readPieces (s : State) (ag : Agent) : List (Word × Nat) → List Byte × State × Option Stop
  | [] => ([], s, none)
  | (a, k) :: ps =>
    match access s ag .read false 4 a k with
    | .error e => ([], s, some e)
    | .ok (p, s') =>
      let r := readPieces s' ag ps
      (Memory.readList s'.mem p.loc k ++ r.1, r.2)

/-- Writing pieces at the home, in ascending order, as far as there are bytes: how many bytes are written, and what
stopped the first piece that failed. -/
def writePieces (s : State) (ag : Agent) (eng : Nat × Nat × Nat) : List (Word × Nat) → List Byte → Nat × State × Option Stop
  | [], _ => (0, s, none)
  | (a, k) :: ps, bs =>
    if bs.length < k then (0, s, none)
    else
      match access s ag .write false 6 a k with
      | .error e => (0, s, some e)
      | .ok (p, s') =>
        let r := writePieces (s'.storeHome ag p (bs.take k) eng) ag eng ps (bs.drop k)
        (k + r.1, r.2)

/-- The STOP code of a fault (R218). -/
def stopCode : Nat → BitVec 4
  | 25 => 1
  | 26 => 2
  | 30 => 3
  | 4 => 4
  | 6 => 4
  | _ => 5

/-- A stream stops (R219), its entry parks, or the transfer unit tries again later. -/
def stopStream (s : State) (bk uid n : Nat) : Stop → Option State
  | .trap cause v => some (s.modHome bk uid fun b => b.modStream n fun st =>
      { st with stop := stopCode cause, stopCause := cause, stopAddr := v })
  | .page f =>
    let tu := (((s.home bk uid).bind (·.stream n)).map (·.tu.toNat)).getD 0
    let r := s.postFault (s.agentFor bk uid true) .stream n tu 0 f
    some (r.1.modHome bk uid fun b => b.modStream n fun st => { st with parked := some r.2 })
  | e => s.askWake e

/-- The tasks whose streams a bank's transfer units serve: the one it holds, then those that retire there. -/
def streamOwners (s : State) (bk : Nat) : List Nat :=
  (s.bank bk).uid.toList ++ ((s.core (keyCore bk)).tracker.filter fun t => t.bank == bk).map (·.uid)

/-- The next position an input stream fetches, skipped ones passed over (R216). -/
def Stream.nextFetch : Nat → Stream → Stream
  | 0, st => st
  | n + 1, st => if st.skipped st.next then Stream.nextFetch n { st with next := st.next + 1 } else st

/-- An input stream may fetch: moving, within its pattern, at most 8 entries held and ahead (R35, R211). -/
def Stream.mayFetch (st : Stream) (n : Nat) : Bool :=
  st.dir == 0 && st.stop == 0 && !st.hold && st.parked.isNone && decide (st.next < st.total)
  && decide (st.next < if n < 32 then st.issue + 8 else st.issue) && decide (st.buf.length < 8)

/-- The bits of an input entry (R210). -/
def entryBits (bs scales : List Byte) : VReg := BitVec.ofNat 2048 (leVal bs + leVal scales * 2 ^ (8 * 248))

/-- Fetching the next entry of an input stream of a task. -/
def fetchEntry (s : State) (bk n uid : Nat) : Option State := do
  let b ← s.home bk uid
  let st ← b.stream n
  let st := Stream.nextFetch (st.issue + 8 - st.next) st
  if !st.mayFetch n then none
  let s := s.modHome bk uid fun b => b.setStream n st
  let ag := s.agentFor bk uid true
  let ps := pieces 256 (st.addr st.next) st.elen ++ pieces 8 (st.scaleAddr st.next) st.bpe.toNat
  let r := readPieces s ag ps
  match r.2.2 with
  | some e => stopStream s bk uid n e
  | none =>
    return r.2.1.modHome bk uid fun b => b.modStream n fun _ =>
      { st with buf := SMap.put st.buf st.next (entryBits (r.1.take st.elen) (r.1.drop st.elen)), next := st.next + 1 }

/-- The first task of a list for which a step is enabled. -/
def firstOwner (f : Nat → Option State) : List Nat → Option State
  | [] => none
  | u :: us => match f u with
    | some s => some s
    | none => firstOwner f us

/-- ENTRY_ARRIVAL (R35, R211): the transfer unit fetches the next entry of an input stream. -/
def tryEntryArrival (core bank sn : Nat) (s : State) : Option State :=
  let bk := bankKey core bank
  if (s.core core).awake then firstOwner (fetchEntry s bk sn) (streamOwners s bk) else none

/-- ENTRY_ARRIVAL (R35). -/
def execEntryArrival (core bank sn : Nat) (s : State) : Out := eventOn s core (tryEntryArrival core bank sn s)

/-- Writing the next buffered entry of an output stream of a task. -/
def drainEntry (s : State) (bk n uid : Nat) : Option State := do
  let b ← s.home bk uid
  let st ← b.stream n
  if st.dir != 1 || st.stop != 0 || st.hold || st.parked.isSome then none
  let (e, v) ← st.buf.head?
  let ag := s.agentFor bk uid true
  let bs := leBytes 256 v.toNat
  let data := bs.take st.elen ++ (bs.drop 248).take st.bpe.toNat
  let ps := pieces 256 (st.addr e) st.elen ++ pieces 8 (st.scaleAddr e) st.bpe.toNat
  let r := writePieces s ag (bk, 8 + n, e + 1) ps data
  match r.2.2 with
  | some x => stopStream r.2.1 bk uid n x
  | none => return r.2.1.modHome bk uid fun b => b.modStream n fun st => { st with buf := SMap.del st.buf e, next := e + 1 }

/-- OUTPUT_DRAIN (R211): the transfer unit writes the next entry of an output stream. -/
def tryOutputDrain (core bank sn : Nat) (s : State) : Option State :=
  let bk := bankKey core bank
  if (s.core core).awake then firstOwner (drainEntry s bk sn) (streamOwners s bk) else none

/-- OUTPUT_DRAIN (R211). -/
def execOutputDrain (core bank sn : Nat) (s : State) : Out := eventOn s core (tryOutputDrain core bank sn s)

end Sys2Proof.Machine
end

