-- ==== Sys2Proof/Machine/Task.lean ====
section
/-!
DEFINITION. Machine/Task.lean: the task rows of class 000 (R247 to R283) but for tail: crews, launches, spawns and
joins, edge queues, work identifiers, budgets, drawn bits, allowances and slips.
-/

namespace Sys2Proof.Machine

/-! ### Crews (R278 to R280) -/

/-- HOLD (R280): it only counts as an issue of cc. -/
def execHold (c : Ctl) (s : State) : Out := perform s 8 (ccStart s c)

/-- CATCH (R278): waits until the named queues have issued every earlier word and every exposed result is written. -/
def execCatchCrew (c : Ctl) (f : FCr) (s : State) : Out :=
  perform s 8 do
    let s' ← ccStart s c
    let b := s.bank s.me
    need (f.mask != 0 && b.crew.isNone) (badOp 0x19 56)
    need (!maskBusy (s.core (keyCore s.me)) ((s.bank s.me).uid.getD 0) f.mask && b.exposed.isEmpty) .stall
    return s'.modBank s.me fun b => { b with crew := some ⟨f.mask, 0, [], false, 0⟩ }

/-- EASY (R279): ends an active crew once its members have issued every earlier word. -/
def execEasy (c : Ctl) (s : State) : Out :=
  perform s 8 do
    let s' ← ccStart s c
    match (s.bank s.me).crew with
    | none => return s'
    | some w =>
      if w.suspended then return s'
      need (!maskBusy (s.core (keyCore s.me)) ((s.bank s.me).uid.getD 0) w.mask) .stall
      return s'.modBank s.me fun b => { b with crew := none }

/-! ### Launches (R247 to R250) -/

/-- A launch header (R247), as its sixteen doublewords. -/
abbrev Header := List Word

def Header.dw (h : Header) (i : Nat) : Word := h.getD i 0

/-- Width of work-identifier field f, and its first bit (R247). -/
def widthOf (w : Nat) (f : Nat) : Nat := (w >>> (7 * f)) % 128
def offsetOf (w : Nat) (f : Nat) : Nat := (List.range f).foldl (fun s g => s + widthOf w g) 0

def Header.ext (h : Header) (f : Nat) : Nat :=
  let d := h.dw (5 + f / 2)
  let e := if f % 2 = 0 then bits d 31 0 else bits d 63 32
  if e = 0 then 1 else e

def Header.eq (h : Header) (k : Nat) : BitVec 32 :=
  BitVec.ofNat 32 (let d := h.dw (11 + k / 2); if k % 2 = 0 then bits d 31 0 else bits d 63 32)

def Header.total (h : Header) : Nat := (List.range 6).foldl (fun p f => p * h.ext f) 1

/-- The checks of R248 in the table's order: 0 where the header is accepted, or the LERR code. `prio` is the launching
task's base priority; none for a host post. -/
def launchCheck (s : State) (ctx : Nat) (h : Header) (prio : Option Nat) : Nat :=
  let c := s.ctx ctx
  let d1 := h.dw 1
  let ws := bits (h.dw 4) 41 0
  let p := bits d1 43 41
  let inUse := (List.range 8).filter fun k => (bits (h.dw 10) 15 8).testBit k
  let ctrl : BitVec 32 := d1.setWidth 32
  let jd : BitVec 32 := BitVec.ofNat 32 (bits (h.dw 10) 63 32)
  if bits d1 63 56 != 1 || bits d1 55 45 != 0 || bits (h.dw 4) 63 42 != 0 || bits (h.dw 10) 31 16 != 0
      || h.dw 15 != 0 then 1
  else if 256 < bits d1 40 32 then 2
  else if ((List.range 6).any fun f => decide (64 < widthOf ws f)) || decide (64 < offsetOf ws 6) then 3
  else if ((List.range 6).any fun f => decide (widthOf ws f < 32) && decide (2 ^ widthOf ws f < h.ext f))
      || decide (2 ^ 48 ≤ h.total) then 4
  else if (h.dw 0).toNat % 4 != 0 || decide (0x40000 ≤ (h.dw 0).toNat) then 5
  else if h.dw 3 = 0 || (h.dw 3 &&& ~~~c.cgrant) != 0 then 6
  else if bits (h.dw 9) 31 0 % 64 != 0 || (h.dw 8).toNat % 64 != 0 || bits (h.dw 8) 63 57 != 0 then 7
  else if decide (c.ceil.toNat < p) || (prio.any fun q => decide (q < p)) then 8
  else if !semOk s ctx ctrl || !semOk s ctx jd || inUse.any fun k => !semOk s ctx (h.eq k) then 9
  else if inUse.any fun k => ((semKey s ctx (h.eq k)).join.map fun w => s.semRead w == 0).getD true then 10
  else 0

/-- The launch that a header describes (R247). -/
def Header.launch (h : Header) (now first : Nat) : Launch where
  ctrl := (h.dw 1).setWidth 32
  entry := h.dw 0
  det := bitAt (h.dw 1) 44
  prio := bits (h.dw 1) 43 41
  vreg := (bits (h.dw 1) 40 32 + 15) / 16 * 16
  seed := h.dw 2
  lcmask := h.dw 3
  widths := (h.dw 4).setWidth 42
  exts := (List.range 6).map h.ext
  framebase := h.dw 8
  framesz := bits (h.dw 9) 31 0
  budget := if bits (h.dw 9) 63 32 = 0 then none else some (bits (h.dw 9) 63 32)
  jdone := BitVec.ofNat 32 (bits (h.dw 10) 63 32)
  equse := BitVec.ofNat 8 (bits (h.dw 10) 15 8)
  eqdir := BitVec.ofNat 8 (bits (h.dw 10) 7 0)
  eqs := (List.range 8).map h.eq
  total := h.total
  made := 0
  spent := []
  posted := now
  first := first
  ended := false
  killed := false

/-- An accepted launch takes the lowest free slot, and the word at CTRL becomes its status word (R249). -/
def State.acceptLaunch (s : State) (ctx : Nat) (h : Header) : State :=
  match (s.ctx ctx).freeSlot, (semKey s ctx ((h.dw 1).setWidth 32)).join with
  | some i, some k =>
    let s := s.semWrite k (w64 h.total)
    s.modCtx ctx fun c => { c with launches := SMap.put c.launches i (h.launch s.cycle s.fresh) }
  | _, _ => s

/-- Doublewords read by plain loads at the home (R248, R212): `n` of them from `va` upwards. -/
def readWords (s : State) (ag : Agent) : Nat → Word → Except Stop (List Word × State)
  | 0, _ => .ok ([], s)
  | n + 1, va =>
    match access s ag .read false 4 va 8 with
    | .error e => .error e
    | .ok (p, s') =>
      match readWords s' ag n (va + 8) with
      | .error e => .error e
      | .ok (ws, s'') => .ok (w64 (s'.readLoc p.loc 8) :: ws, s'')

/-- LAUNCH (R248). -/
def execLaunch (c : Ctl) (f : FTk) (s : State) : Out :=
  perform s 8 do
    let s' ← ccStart s c
    let ag := s.agent s.me
    let a := s.rx s.me f.xa
    need (a.toNat % 128 == 0) (.trap 4 a)
    need (condHolds s (.launchFree ag.ctx)) (.wait (.launchFree ag.ctx))
    let (h, s') ← readWords s' ag 16 a
    let s' := s'.release ag 4
    let code := launchCheck s' ag.ctx h ((s.myTask s.me).map (·.prio))
    if code = 0 then
      return (s'.acceptLaunch ag.ctx h).wx s.me f.xd (w64 (bits (Header.dw h 1) 31 0))
    else return s'.wx s.me f.xd (w64 (2 ^ 63 + code))

/-- LERR (R250): sem.ld at package scope of the status word. -/
def execLerr (c : Ctl) (f : FTk) (s : State) : Out :=
  perform s 8 do
    let s' ← ccStart s c
    let ag := s.agent s.me
    let k ← semWord s ag.ctx ((s.rx s.me f.xa).setWidth 32) 54
    return ((s'.acquire ag.key 4).usesSem f.xd).wx s.me f.xd (s'.semRead k)

/-! ### Spawn and join (R254, R255) -/

/-- The number of the core's last cut (R357): the greater EPOCH of its slots' headers. -/
def State.cutEpoch (s : State) (ck : Nat) : Nat :=
  max (SMap.get Slot.cleared s.slots (2 * ck)).epoch.toNat (SMap.get Slot.cleared s.slots (2 * ck + 1)).epoch.toNat

/-- The lowest free place of a context's record queue. -/
def State.recqIndex (s : State) (ctx : Nat) : Nat :=
  let used := s.tasks.filterMap fun e => if e.2.ctx = ctx then e.2.recq else none
  ((List.range (used.length + 1)).find? fun i => !used.contains i).getD 0

/-- The 32 bytes of a continuation record (R253). -/
def Task.recordBytes (t : Task) : List Byte :=
  leBytes 8 t.wid.toNat ++ leBytes 8 t.frame.toNat
  ++ leBytes 8 (t.gen.toNat * 2 ^ 48 + t.lslot % 64 * 2 ^ 42 + t.prio % 8 * 2 ^ 39 + t.gated.toNat * 2 ^ 38 + t.stage.toNat * 2 ^ 37
    + t.code.toNat)
  ++ leBytes 8 t.jh.toNat

/-- A record with the fields that its four doublewords hold (R253). -/
def Task.fromRecord (t : Task) (d : List Nat) : Task :=
  let w := w64 (d.getD 2 0)
  { t with
    wid := w64 (d.getD 0 0)
    frame := w64 (d.getD 1 0)
    gen := BitVec.ofNat 16 (bits w 63 48)
    lslot := bits w 47 42
    prio := bits w 41 39
    gated := bitAt w 38
    stage := bitAt w 37
    code := w.setWidth 18
    jh := BitVec.ofNat 32 (d.getD 3 0) }

/-- A spawned record stands at its place in the record queue at RECQ (R253, R323). -/
def State.queueRecord (s : State) (t : Task) : State :=
  match t.recq with
  | some i => s.vxWrite t.ctx ((s.ctx t.ctx).recq.toNat + 32 * i) t.recordBytes
  | none => s

/-- SPAWN (R254): the child sees the parent's writes; the record is Eligible, Gated by its join counter, or Retired at
once where the launch's budget has ended (R276). -/
def execSpawn (c : Ctl) (f : FTk) (s : State) : Out :=
  perform s 8 do
    let s' ← ccStart s c
    let ag := s.agent s.me
    let w := s.rx s.me f.xd
    let jh : BitVec 32 := w.setWidth 32
    need (bits w 63 34 == 0) (badOp 0x19 59)
    let k ← semWord s ag.ctx jh 59
    need (f.imm.toNat % 4 == 0 && decide (f.imm.toNat < 0x40000)) (badOp 0x19 28)
    let some t := s.myTask s.me | return s'
    need (condHolds s (.recqFree ag.ctx t.lslot)) (.wait (.recqFree ag.ctx t.lslot))
    let s' := s'.release ag 4
    let ended := ((s.myLaunch s.me).map (·.ended)).getD false
    let gated := bitAt w 32 && s'.semRead k != 0
    let child : Task :=
      { ctx := t.ctx, lslot := t.lslot, wid := s.rx s.me f.xb, frame := s.rx s.me f.xa, code := f.imm.setWidth 18,
        jh := jh, gated := bitAt w 32, stage := bitAt w 33, prio := t.spawnPrio, gen := 0,
        st := if ended then .retired else if gated then .gated else .eligible,
        since := s.cycle, aged := 0, reached := s.cycle, spawnPrio := t.spawnPrio, recq := if ended then none else some (s.recqIndex ag.ctx),
        fresh := true, home := none,
        image := none, errs := [], unverifiable := false, phys := [], vouch := 0, vouchAt := [], lastVouch := 0, vouchedAt := 0, provisional := false, lcore := 0,
        popEpoch := 0, parent := some (ag.key, s.cutEpoch ag.key), rerun := false, again := none }
    let s' := { s' with tasks := SMap.put s'.tasks s'.fresh child, fresh := s'.fresh + 1 }
    return if ended then s' else (s'.queueRecord child).liveUp t.ctx t.lslot

/-- Lowering a join counter (R255), its value known not to be 0. -/
def State.joinDown (s : State) (k : Nat) : State := s.semWrite k (s.semRead k - 1)

/-- JOIN (R255). -/
def execJoin (c : Ctl) (f : FTk) (s : State) : Out :=
  perform s 8 do
    let s' ← ccStart s c
    let ag := s.agent s.me
    let k ← semWord s ag.ctx ((s.rx s.me f.xa).setWidth 32) 54
    need (s.semRead k != 0) (.trap 34 0)
    let s' := (s'.release ag 4).joinDown k
    return (s'.usesSem f.xd).wx s.me f.xd (s.semRead k - 1)

/-- SETPRI (R268): the priority of later spawns; the previous one to x[xd]. -/
def execSetpri (c : Ctl) (f : FTk) (s : State) : Out :=
  perform s 8 do
    let s' ← ccStart s c
    let p := s.rx s.me f.xa
    need (decide (p.toNat ≤ ((s.myLaunch s.me).map (·.prio)).getD 7)) (badOp 0x19 54)
    let old := ((s.myTask s.me).map (·.spawnPrio)).getD 0
    let s' := s'.modTask ((s.bank s.me).uid.getD 0) fun t => { t with spawnPrio := p.toNat }
    return s'.wx s.me f.xd (w64 old)

/-! ### Edge queues (R260, R261) -/

/-- The words of a run of handles (R198): every one must pass. -/
def semRun (s : State) (ctx : Nat) (h : BitVec 32) (field : Nat) : Nat → Nat → Except Stop (List Nat)
  | 0, _ => .ok []
  | n + 1, i =>
    match semWord s ctx (h + BitVec.ofNat 32 i) field with
    | .error e => .error e
    | .ok k => match semRun s ctx h field n (i + 1) with
      | .error e => .error e
      | .ok ks => .ok (k :: ks)

/-- The six words of the edge that IMM names (R260), each within the context's allocation (R40): the index is in use and its
direction the instruction's. -/
def edgeWords (s : State) (f : FTk) (produce : Bool) : Except Stop (List Nat) := do
  let k := bits f.imm 2 0
  let some l := s.myLaunch s.me | throw (badOp 0x19 28)
  need (bitAt l.equse k && bitAt l.eqdir k == produce) (badOp 0x19 28)
  semRun s (s.ctxOf s.me) (l.eqs.getD k 0) 28 6 0

/-- A wait of an edge instruction (R199, R261). -/
def edgeWait (s : State) (op : Nat) (w : List Nat) (slot : Word) : Except Stop Unit :=
  need (condHolds s (.edge op w slot)) (.wait (.edge op w slot))

/-- EQSEND_RESERVE_NEXT (R261): OP 0 of eqsend. -/
def execEqsendReserveNext (c : Ctl) (f : FTk) (s : State) : Out :=
  perform s 8 do
    let s' ← ccStart s c
    let w ← edgeWords s f true
    edgeWait s 0 w 0
    let e := s.edge w
    need (!e.closed) (.trap 35 0)
    let s' := (s'.semWrite (w.getD 1 0) (w64 (e.wpos + 1))).acquire (keyCore s.me) 4
    return (s'.usesSem f.xd).wx s.me f.xd (w64 e.wpos)

/-- EQSEND_RESERVE (R261): OP 1 of eqsend. -/
def execEqsendReserve (c : Ctl) (f : FTk) (s : State) : Out :=
  perform s 8 do
    let s' ← ccStart s c
    let w ← edgeWords s f true
    let n := s.rx s.me f.xa
    edgeWait s 1 w n
    need (!(s.edge w).closed) (.trap 35 0)
    let s' := (s'.semWrite (w.getD 1 0) (n + 1)).acquire (keyCore s.me) 4
    return (s'.usesSem f.xd).wx s.me f.xd n

/-- EQSEND_PUBLISH (R261): OP 2 of eqsend. -/
def execEqsendPublish (c : Ctl) (f : FTk) (s : State) : Out :=
  perform s 8 do
    let s' ← ccStart s c
    let w ← edgeWords s f true
    let n := s.rx s.me f.xa
    let e := s.edge w
    need (decide (n.toNat < e.wpos) && decide (e.pubd ≤ n.toNat)) (.trap 35 0)
    edgeWait s 2 w n
    return (s'.release (s.agent s.me) 4).semWrite (w.getD 2 0) (n + 1)

/-- EQSEND_CLOSE (R261): OP 3 of eqsend. -/
def execEqsendClose (c : Ctl) (f : FTk) (s : State) : Out :=
  perform s 8 do
    let s' ← ccStart s c
    let w ← edgeWords s f true
    edgeWait s 3 w 0
    return (s'.release (s.agent s.me) 4).semWrite (w.getD 5 0) 1

/-- EQRECV_TAKE_NEXT (R261): OP 0 of eqrecv; all ones where the queue is closed and empty. -/
def execEqrecvTakeNext (c : Ctl) (f : FTk) (s : State) : Out :=
  perform s 8 do
    let s' ← ccStart s c
    let w ← edgeWords s f false
    edgeWait s 4 w 0
    let e := s.edge w
    let got := decide (e.rpos < e.pubd)
    let s' := (if got then s'.semWrite (w.getD 3 0) (w64 (e.rpos + 1)) else s').acquire (keyCore s.me) 4
    return (s'.usesSem f.xd).wx s.me f.xd (if got then w64 e.rpos else ~~~0#64)

/-- EQRECV_TAKE (R261): OP 1 of eqrecv. -/
def execEqrecvTake (c : Ctl) (f : FTk) (s : State) : Out :=
  perform s 8 do
    let s' ← ccStart s c
    let w ← edgeWords s f false
    let n := s.rx s.me f.xa
    edgeWait s 5 w n
    let e := s.edge w
    let got := decide (n.toNat < e.pubd)
    let s' := (if got then s'.semWrite (w.getD 3 0) (n + 1) else s').acquire (keyCore s.me) 4
    return (s'.usesSem f.xd).wx s.me f.xd (if got then n else ~~~0#64)

/-- EQFREE (R261): OP 0 of eqfree. -/
def execEqfree (c : Ctl) (f : FTk) (s : State) : Out :=
  perform s 8 do
    let s' ← ccStart s c
    let w ← edgeWords s f false
    let n := s.rx s.me f.xa
    let e := s.edge w
    need (decide (n.toNat < e.rpos) && decide (e.freed ≤ n.toNat)) (.trap 35 0)
    edgeWait s 6 w n
    return (s'.release (s.agent s.me) 4).semWrite (w.getD 4 0) (n + 1)

/-- EQINIT (R261): one sem.st at package scope per word, in ascending order. -/
def execEqinit (c : Ctl) (f : FTk) (s : State) : Out :=
  perform s 8 do
    let s' ← ccStart s c
    let ag := s.agent s.me
    let ks ← semRun s ag.ctx ((s.rx s.me f.xa).setWidth 32) 54 6 0
    let cap := s.rx s.me f.xb
    need (cap != 0 && decide (cap.toNat ≤ 2 ^ 24)) (badOp 0x19 49)
    let s' := s'.release ag 4
    let s' := s'.semWrite (ks.headD 0) cap
    return (ks.drop 1).foldl (fun s k => s.semWrite k 0) s'

/-! ### Work identifiers, drawn bits, budgets, allowances (R251, R252, R270, R275, R277, R283) -/

/-- The work-identifier widths of the running task's launch. -/
def State.widths (s : State) : Nat := ((s.myLaunch s.me).map fun l => l.widths.toNat).getD 0

/-- WIDF (R251). -/
def execWidf (c : Ctl) (f : FTk) (s : State) : Out :=
  perform s 8 do
    let s' ← ccStart s c
    need (decide (f.imm.toNat ≤ 5)) (badOp 0x19 28)
    let w := widthOf s.widths f.imm.toNat
    let o := offsetOf s.widths f.imm.toNat
    return s'.wx s.me f.xd (w64 ((s.rx s.me f.xa).toNat >>> o % 2 ^ w))

/-- WIDINS (R252). -/
def execWidins (c : Ctl) (f : FTk) (s : State) : Out :=
  perform s 8 do
    let s' ← ccStart s c
    need (decide (f.imm.toNat ≤ 5)) (badOp 0x19 28)
    let w := widthOf s.widths f.imm.toNat
    let o := offsetOf s.widths f.imm.toNat
    let v := (s.rx s.me f.xb).toNat
    need (decide (v < 2 ^ w)) (badOp 0x19 49)
    let x := (s.rx s.me f.xa).toNat
    let field := (x >>> o % 2 ^ w) * 2 ^ o
    return s'.wx s.me f.xd (w64 (x - field + v * 2 ^ o))

/-- BUDGET (R275). -/
def execBudget (c : Ctl) (f : FTk) (s : State) : Out :=
  perform s 8 do
    let s' ← ccStart s c
    return s'.wx s.me f.xd (match (s.myLaunch s.me).bind (·.budget) with
      | some n => w64 n
      | none => ~~~0#64)

/-- DRAW (R270). -/
def execDraw (c : Ctl) (f : FTk) (s : State) : Out :=
  perform s 8 do
    let s' ← ccStart s c
    let seed := ((s.myLaunch s.me).map (·.seed)).getD 0
    return s'.wx s.me f.xd ((srgen (seed ^^^ s.rx s.me f.xa) (s.rx s.me f.xb) (f.imm.setWidth 32)).setWidth 64)

/-- THALLOW (R283). -/
def execThallow (c : Ctl) (f : FTk) (s : State) : Out :=
  perform s 8 do
    let s' ← ccStart s c
    let n := (s.rx s.me f.xa).toNat
    let part := keyPart (keyCore s.me)
    let hbm := 12 / s.parts
    match f.imm.toNat with
    | 0 =>
      need (decide (n ≤ 63)) (badOp 0x19 54)
      return s'.wx s.me f.xd (s.core (64 * part + n)).allow
    | 1 =>
      need (decide (n < hbm)) (badOp 0x19 54)
      return s'.wx s.me f.xd (SMap.get StackSt.reset s.hbm (part * hbm + n)).allow
    | _ => throw (badOp 0x19 28)

/-- SLIP (R277): with IMM = 1 the counter is cleared in the same step. -/
def execSlip (c : Ctl) (f : FTk) (s : State) : Out :=
  perform s 8 do
    let s' ← ccStart s c
    need (decide (f.imm.toNat ≤ 1)) (badOp 0x19 28)
    let ctx := s.ctxOf s.me
    let v := (s.ctx ctx).slip
    let s' := if f.imm = 1 then s'.modCtx ctx fun x => { x with slip := 0 } else s'
    return s'.wx s.me f.xd v

end Sys2Proof.Machine
end

