-- ==== Sys2Proof/Machine/Copy.lean ====
section
/-!
DEFINITION. Machine/Copy.lean: the copy queues: issue (R225, R239, R241), the transfer units (R224, R226 to R233), bin
scatter (R235 to R240), page moves (R241 to R243) and engine reset (R232).
-/

namespace Sys2Proof.Machine

/-! ### Queues -/

def Core.unit (c : Core) (tu : Nat) : List CCmd := SMap.get [] c.cq tu

/-- Replacing a command of a transfer unit. -/
def State.setCCmd (s : State) (tu : Nat) (k : CCmd) : State :=
  s.modCore (keyCore k.bank) fun c =>
    { c with cq := SMap.put c.cq tu ((c.unit tu).map fun v => if v.uid == k.uid && v.tl == k.tl then k else v) }

/-- Removing one. -/
def State.dropCCmd (s : State) (tu : Nat) (k : CCmd) : State :=
  s.modCore (keyCore k.bank) fun c =>
    { c with cq := SMap.put c.cq tu ((c.unit tu).filter fun v => !(v.uid == k.uid && v.tl == k.tl)) }

/-- The opcode of a command. -/
def CKind.opc : CKind → Nat
  | .copy => 0x100
  | .binscat => 0x101
  | .migrate => 0x102
  | .cresume => 0x103

/-- Partly performed or stopped (R231, R233): from its start on, before its first mark too (DESIGN CHOICE: log 46). -/
def CCmd.partly (k : CCmd) : Bool := k.kind != .cresume && (k.stop.isSome || (k.started && !k.finished))

/-- C_UPC and C_LI show the bank's oldest incomplete command on a unit, whichever task issued it (R231); with none they are cleared
(DESIGN CHOICE: log 46). -/
def State.markCopy (s : State) (tu bk : Nat) : State :=
  let s := s.stampMark (keyCore bk) 3
  match ((s.core (keyCore bk)).unit tu).find? fun k => k.bank == bk && k.kind != .cresume with
  | none => s.modBank bk fun b =>
      { b with cupc := SMap.set 0 b.cupc tu 0, cli := SMap.erase b.cli fun i => i / 8 == tu }
  | some k => s.modBank bk fun b =>
      { b with
        cupc := SMap.set 0 b.cupc tu (BitVec.ofNat 16 ((if k.partly then 2 ^ 15 else 0) + k.kind.opc))
        cli := (List.range 6).foldl (fun m i => SMap.set 0 m (8 * tu + i) (BitVec.ofNat 32 (k.li.getD i 0))) b.cli }

/-! ### Issue -/

/-- Entering the queue of a transfer unit: stopped work traps (R194); a full queue stalls (R33); the command takes its
number, which goes to x[xd] (R225). `rel` is the release of R202. -/
def enterCopy (s : State) (c : Ctl) (f : FCp) (k : CCmd) (rel : Bool) : Except Stop State := do
  let bk := s.me
  let tu := f.tu.toNat
  let core := s.core (keyCore bk)
  let b := s.bank bk
  let uid := b.uid.getD 0
  if k.kind != .cresume then trapStopped (trapC core tu uid)
  need (decide ((core.unit tu).length < 128)) .stall
  let k := { k with
    bank := bk, uid := uid, ctx := s.ctxOf bk, det := ((s.myLaunch bk).map (·.det)).getD false, ctl := c,
    tl := b.tlNext tu, seq := b.seq, at0 := s.tick }
  let s := if rel then s.release (s.agent bk) 1 else s
  let s := s.setBank bk (b.tlGive tu).nextSeq
  return s.modCore (keyCore bk) fun c => { c with cq := SMap.put c.cq tu (c.unit tu ++ [k]) }

/-- A command with no operand. -/
def CCmd.blank (kind : CKind) (xa xb : Word) (flg : BitVec 4) : CCmd where
  kind := kind
  bank := 0
  uid := 0
  ctx := 0
  det := false
  ctl := ⟨0, 0⟩
  tl := 0
  xa := xa
  xb := xb
  flg := flg
  at0 := 0
  seq := 0
  issued := false
  started := false
  desc := []
  li := [0, 0, 0, 0, 0, 0]
  part := 0
  buf := []
  origins := []
  stop := none
  fault := none
  finished := false

/-- The queue of a transfer unit, as R47 names it. -/
def copyQueue (f : FCp) : Queue := unitQueue f.tu.toNat

/-- COPY (R225). -/
def execCopy (c : Ctl) (f : FCp) (s : State) : Out :=
  perform s 8 do
    checkCrew s c (copyQueue f)
    let a := s.rx s.me f.xa
    need (a.toNat % 32 == 0) (badOp 0x19 57)
    need (f.flg.toNat < 4) (badOp 0x19 43)
    let s' ← enterCopy s c f (CCmd.blank .copy a (s.rx s.me f.xb) f.flg) true
    return s'.wx s.me f.xd (w64 ((s.bank s.me).tlNext f.tu.toNat))

/-- BINSCAT (R239). -/
def execBinscat (c : Ctl) (f : FCp) (s : State) : Out :=
  perform s 8 do
    checkCrew s c (copyQueue f)
    let a := s.rx s.me f.xa
    need (a.toNat % 64 == 0) (badOp 0x19 57)
    let s' ← enterCopy s c f (CCmd.blank .binscat a 0 0) true
    return s'.wx s.me f.xd (w64 ((s.bank s.me).tlNext f.tu.toNat))

/-- The parameters of a migrate are legal (R241). -/
def migrateOk (w : Word) : Bool :=
  bits w 31 9 == 0 && decide (bits w 3 0 ≤ 1) && (bits w 3 0 == 1 || bits w 8 4 == 0)

/-- MIGRATE (R241). -/
def execMigrate (c : Ctl) (f : FCp) (s : State) : Out :=
  perform s 8 do
    checkCrew s c (copyQueue f)
    let a := s.rx s.me f.xa
    need ((parseWindow s (s.agent s.me) a).any fun w => w.1 == 0) (.trap 25 a)
    need (migrateOk (s.rx s.me f.xb)) (badOp 0x19 52)
    let s' ← enterCopy s c f (CCmd.blank .migrate a (s.rx s.me f.xb) 0) false
    return s'.wx s.me f.xd (w64 ((s.bank s.me).tlNext f.tu.toNat))

/-- Counts of a copy descriptor, from level 0 (R223). -/
def halves (d : List Word) (first : Nat) : List Nat :=
  (List.range 6).map fun l => let w := d.getD (first + l / 2) 0; if l % 2 = 0 then bits w 31 0 else bits w 63 32
def copyCnts (d : List Word) : List Nat := halves d 3
def copyLen (d : List Word) : Nat := bits (d.getD 2 0) 31 0
def copyKind (d : List Word) : Nat := bits (d.getD 2 0) 33 32

/-- The indices of a cresume fit its command (R233); of one that has not started, every index is 0. -/
def CCmd.indicesOk (k : CCmd) (li : List Nat) : Bool :=
  if !k.started then li.all (· == 0)
  else match k.kind with
    | .copy => (li.zip (copyCnts k.desc)).all fun p => decide (p.1 < p.2)
    | .binscat => decide (li.getD 0 0 < bits (k.desc.getD 6 0) 31 0) && decide (li.getD 1 0 ≤ 1)
    | _ => true

/-- CRESUME (R233): checked at issue against the bank's oldest stopped or partly performed command, whichever task issued it; once it
leaves the queue, the stop is cleared and the command goes on from the indices it has read. It completes with that command, or at
once where ACTIVE is 0. It holds the task of that command in `xa` and its number in `xb`. -/
def execCresume (c : Ctl) (f : FCp) (s : State) : Out :=
  perform s 8 do
    checkCrew s c (copyQueue f)
    let bk := s.me
    let tu := f.tu.toNat
    let b := s.bank bk
    let upc := SMap.get 0 b.cupc tu
    let li := (List.range 6).map fun i => (SMap.get 0 b.cli (8 * tu + i)).toNat
    let new := { CCmd.blank .cresume 0 0 0 with started := true }
    if bitAt upc 15 then
      match ((s.core (keyCore bk)).unit tu).find? fun k => k.bank == bk && k.partly with
      | none => throw (badOp 0x19 62)
      | some k =>
        need (bits upc 8 0 == k.kind.opc && k.indicesOk li) (badOp 0x19 62)
        enterCopy s c f { new with xa := w64 k.uid, xb := w64 k.tl, li := li } false
    else enterCopy s c f { new with finished := true } false

/-- The controller of a transfer unit performs a cstat at issue, ahead of the queued commands but by its own V and IDLE (R48,
R234). -/
def startStat (s : State) (c : Ctl) (q : Queue) : Except Stop State := do
  checkCrew s c q
  let uid := (s.bank s.me).uid.getD 0
  need (mayIssue s s.me uid q c) .stall
  return stampIssue s s.me uid q c

/-- CSTAT_TL (R234). -/
def execCstatTl (c : Ctl) (f : FCp) (s : State) : Out :=
  perform s 8 do
    let s' ← startStat s c (copyQueue f)
    return s'.wx s.me f.xd (w64 ((s.bank s.me).timeline f.tu.toNat).val)

/-- The key of a bank's skip count for a unit. -/
def skipKey (bk tu : Nat) : Nat := 4 * keyBank bk + tu

/-- The status word of R234: of the commands of a bank, whichever task issued them. -/
def copyStatus (c : Core) (bk tu : Nat) : Word :=
  let mine := (c.unit tu).filter fun k => k.bank == bk
  let stop := match mine.findSome? (·.stop) with
    | some (cause, _) => 2 ^ 63 + cause % 128 * 2 ^ 56
    | none => 0
  w64 (stop + mine.length % 256 * 2 ^ 48 + (SMap.get 0 c.skip (skipKey bk tu)).toNat * 2 ^ 40
    + ((mine.head?.map (·.tl)).getD 0) % 2 ^ 32)

/-- CSTAT_STATUS (R234): reading clears SKIP. -/
def execCstatStatus (c : Ctl) (f : FCp) (s : State) : Out :=
  perform s 8 do
    let s' ← startStat s c (copyQueue f)
    let bk := s.me
    let tu := f.tu.toNat
    let s' := s'.modCore (keyCore bk) fun k => { k with skip := SMap.set 0 k.skip (skipKey bk tu) 0 }
    return s'.wx bk f.xd (copyStatus (s.core (keyCore bk)) bk tu)

/-! ### Bin groups (R235, R240) -/

/-- BINSET (R235). -/
def execBinset (c : Ctl) (f : FCp) (s : State) : Out :=
  perform s 8 do
    let s' ← ccStart s c
    let ag := s.agent s.me
    let h : BitVec 32 := (s.rx s.me f.xa).setWidth 32
    let _ ← semWord s ag.ctx h 57
    let nb := s.rx s.me f.xb
    need (nb != 0 && decide (nb.toNat ≤ 4096)) (badOp 0x19 52)
    let ks ← semRun s ag.ctx h 57 (2 + 3 * nb.toNat) 0
    return ks.foldl (fun s k => s.semWrite k 0) (s'.release ag 4)

/-- BINDROP (R240). -/
def execBindrop (c : Ctl) (f : FCp) (s : State) : Out :=
  perform s 8 do
    let s' ← ccStart s c
    let ag := s.agent s.me
    let h : BitVec 32 := (s.rx s.me f.xa).setWidth 32
    let k0 ← semWord s ag.ctx h 57
    let b := s.rx s.me f.xb
    need (b == ~~~0#64 || decide (b.toNat ≤ 4095)) (badOp 0x19 52)
    let k ← if b = ~~~0#64 then .ok k0 else semWord s ag.ctx (h + BitVec.ofNat 32 (4 + 3 * b.toNat)) 57
    let s' := ((s'.release ag 4).semWrite k 0).acquire ag.key 4
    return (s'.usesSem f.xd).wx s.me f.xd (s.semRead k)

/-! ### Dequeueing (R31, R48) -/

/-- A cresume names a command by its task and its number (R233). -/
def CCmd.names (r v : CCmd) : Bool := v.uid == r.xa.toNat && v.tl == r.xb.toNat && v.kind != .cresume

/-- A cresume that leaves the queue continues the command it names (R233). -/
def State.continueCopy (s : State) (tu : Nat) (k : CCmd) : State :=
  if k.kind != .cresume || k.finished then s
  else s.modCore (keyCore k.bank) fun c => { c with cq := SMap.put c.cq tu ((c.unit tu).map fun v =>
    if k.names v then { v with stop := none, li := k.li, part := 0, buf := [] } else v) }

/-- The first of each bank's commands in a queue. -/
def firstOfBanks {α : Type} (bank : α → Nat) (same : α → α → Bool) (q : List α) : List α :=
  q.filter fun k => (q.find? fun e => bank e == bank k).any (same k)

/-- Each bank's next command of a transfer unit, past those that a suspended crew holds back (R281). -/
def State.copyHeads (s : State) (core tu : Nat) : List CCmd :=
  firstOfBanks (·.bank) (fun a b => a.uid == b.uid && a.tl == b.tl) (((s.core core).unit tu).filter fun k =>
    !k.issued && !heldByCrew ((s.home k.bank k.uid).getD Bank.reset) (unitQueue tu) k.seq)

/-- A command that is not yet due in its crew, or that the range checker holds back, lets the other bank's pass (R280, R407). -/
def copyHeld (s : State) (tu : Nat) (k : CCmd) : Bool :=
  let b := (s.home k.bank k.uid).getD Bank.reset
  ((crewOf b (unitQueue tu)).isSome && !mayIssue s k.bank k.uid (unitQueue tu) k.ctl)
  || (k.ctl.v == 0 && !rangeOk (s.core (keyCore k.bank)) k.bank k.uid k.seq (some none))

/-- Dequeueing from a transfer unit's queue, in queue order (R226): the first command that none holds back, after its gap. -/
def tryCopyIssue (core tu : Nat) (s : State) : Option State := do
  let k ← (s.copyHeads core tu).find? fun k => !copyHeld s tu k
  if !mayIssue s k.bank k.uid (unitQueue tu) k.ctl then none
  return ((stampIssue s k.bank k.uid (unitQueue tu) k.ctl).setCCmd tu { k with issued := true }).continueCopy tu k

/-! ### Start (R226, R202) -/

/-- The command a unit works on: the started one, or the first that may start; a task with a stopped command has none
(R194). -/
def Core.activeCopy (c : Core) (tu : Nat) : Option CCmd :=
  let ok (k : CCmd) : Bool :=
    k.kind != .cresume && k.issued && !k.finished && (stoppedC c tu k.uid).isNone && !(k.kind == .migrate && k.started)
  match (c.unit tu).find? fun k => ok k && k.started with
  | some k => some k
  | none => (c.unit tu).find? ok

/-- The agent of a command. -/
def CCmd.agent (k : CCmd) (s : State) : Agent := s.agentFor k.bank k.uid true

/-- A command's progress is kept in its queue. -/
def State.keepCCmd (s : State) (tu : Nat) (k : CCmd) : State := (s.setCCmd tu k).markCopy tu k.bank

/-- A command stops (R194), waits for an answered fault (R227), or tries again later, from where it came to (R344). -/
def stopCopy (s : State) (tu : Nat) (k : CCmd) : Stop → Option State
  | .trap cause v => some (s.keepCCmd tu { k with stop := some (cause, v) })
  | .bad cause _ _ => some (s.keepCCmd tu { k with stop := some (cause, 0) })
  | .page f =>
    let r := s.postFault (k.agent s) .copy tu tu k.tl f
    some (r.1.keepCCmd tu { k with fault := some r.2 })
  | e => match s.askWake e with
    | some t => some (t.keepCCmd tu k)
    | none => if ((s.core (keyCore k.bank)).unit tu).contains k then none else some (s.keepCCmd tu k)

/-- Doublewords read at the home. -/
def readDesc (s : State) (ag : Agent) (a : Word) (n : Nat) : List Word × State × Option Stop :=
  let r := readPieces s ag (pieces (8 * n) a (8 * n))
  ((List.range n).map fun i => w64 (leVal ((r.1.drop (8 * i)).take 8)), r.2)

/-- The span that a side of a copy covers (R226): its first address and its length; 0 for a copy that moves nothing. -/
def boundOf (base : Word) (strs cnts : List Nat) (len : Nat) : Word × Nat :=
  if len = 0 || cnts.any (· == 0) then (base, 0)
  else
    let ds := (strs.zip cnts).map fun p => ((p.2 : Int) - 1) * toSigned 32 p.1
    let lo := ds.foldl (fun a d => a + min 0 d) 0
    let hi := ds.foldl (fun a d => a + max 0 d) 0
    (base + BitVec.ofInt 64 lo, (hi - lo).toNat + len)

/-- The last address of the run of addresses that pass the window checks with `va`, itself checked. -/
def extentEnd (ag : Agent) (va : Word) : Nat :=
  match bits va 63 60 with
  | 0 => 2 ^ 57 - 1
  | 0xE => va.toNat - bits va 39 0 + ag.framesz - 1
  | _ => va.toNat - bits va 22 0 + 2 ^ 23 - 1

/-- The lowest offending address of a span, and its cause. -/
def rangeBad (s : State) (ag : Agent) (r : Word × Nat) : Option (Nat × Nat) :=
  if r.2 = 0 then none
  else match window s ag r.1 with
    | .error (.trap cause v) => some (v.toNat, cause)
    | .error _ => none
    | .ok _ =>
      let e := extentEnd ag r.1
      if r.1.toNat + r.2 - 1 ≤ e then none else some (e + 1, 25)

/-- Two spans reach a common byte, as their windows decode them (R226). -/
def rangesOverlap (s : State) (ag : Agent) (x y : Word × Nat) : Bool :=
  decide (0 < x.2) && decide (0 < y.2) &&
  match window s ag x.1, window s ag y.1 with
  | .ok (.glob a), .ok (.glob b) => decide (a < b + y.2) && decide (b < a + x.2)
  | .ok (.spad k a), .ok (.spad j b) => k == j && decide (a < b + y.2) && decide (b < a + x.2)
  | _, _ => false

/-- The sectors of a span of generic addresses, in 64 KiB granules: first and last (R202). -/
def spanSectors (s : State) (ag : Agent) (r : Word × Nat) : List (Nat × Nat) :=
  match window s ag r.1 with
  | .ok (.glob a) =>
    if r.2 = 0 then []
    else (range2 (a / 65536) ((a + r.2 - 1) / 65536 + 1 - a / 65536)).filterMap fun g =>
      let lo := max a (65536 * g)
      let hi := min (a + r.2 - 1) (65536 * g + 65535)
      match xlatCtx s ag.ctx (keyPart ag.key) .read (w64 lo) lo with
      | .ok p => if p.cached then some (sectorOf p.loc, sectorOf (p.loc + (hi - lo))) else none
      | .error _ => none
  | _ => []

def inSectors (rs : List (Nat × Nat)) (sec : Nat) : Bool := rs.any fun r => decide (r.1 ≤ sec) && decide (sec ≤ r.2)

/-- A core's L1 writes back the dirty sectors of some spans of sectors, and those of others leave it. -/
def State.writebackSectors (s : State) (ck : Nat) (rs rd : List (Nat × Nat)) : State :=
  s.modCore ck fun c =>
    { c with l1 := (c.l1.filter fun e => !(e.2 == .dirty && inSectors rd e.1)).map fun e =>
        if inSectors rs e.1 && e.2 == .dirty then (e.1, .clean) else e }

/-- The writeback of R202: the dirty sectors of both spans become clean, and those of the destination leave L1. -/
def State.copyWriteback (s : State) (ag : Agent) (src dst : Word × Nat) : State :=
  s.writebackSectors ag.key (spanSectors s ag src) (spanSectors s ag dst)

/-- Base addresses of source and destination, the offset added (R224). -/
def CCmd.bases (k : CCmd) (d : List Word) : Word × Word :=
  if bitAt k.flg 0 then (d.getD 0 0, d.getD 1 0 + k.xb) else (d.getD 0 0 + k.xb, d.getD 1 0)

def CCmd.fill (k : CCmd) : Bool := bitAt k.flg 1

/-- The size of a destination area (R223). -/
def areaSize : Nat → Nat
  | 1 => 256 * 1024
  | _ => 30 * 1024

/-- The spans of a copy: its source, none for a fill, and its destination. -/
def CCmd.spans (k : CCmd) (d : List Word) : (Word × Nat) × (Word × Nat) :=
  let b := k.bases d
  let src := boundOf b.1 (halves d 6) (copyCnts d) (copyLen d)
  (if k.fill then (src.1, 0) else src, boundOf b.2 (halves d 9) (copyCnts d) (copyLen d))

/-- The checks of R226: none, or the cause and tval of the stop. -/
def copyCheck (s : State) (ag : Agent) (k : CCmd) (d : List Word) : Option (Nat × Word) :=
  let dk := copyKind d
  let sp := k.spans d
  let dst := if dk = 0 then sp.2 else (sp.2.1, 0)
  -- a source that names no window; a fill reads none (R226)
  let unnamed := !k.fill && decide (0 < sp.1.2) && !([0, 0xC, 0xD, 0xE].contains (bits sp.1.1 63 60))
  let srcBad := rangeBad s ag sp.1
  let dstBad := rangeBad s ag dst
  if bits (d.getD 2 0) 63 34 != 0 || decide (2 ^ 20 < copyLen d) || dk == 3 then some (31, 0)
  else if dk != 0 && decide (0 < sp.2.2) && decide (areaSize dk < sp.2.1.toNat + sp.2.2) then some (31, 0)
  else if dk != 0 && unnamed then some (31, 0)
  else if srcBad.isNone && dstBad.isNone && rangesOverlap s ag sp.1 dst then some (31, 0)
  else match srcBad, dstBad with
    | some a, some b => if a.1 ≤ b.1 then some (a.2, w64 a.1) else some (b.2, w64 b.1)
    | some a, none => some (a.2, w64 a.1)
    | none, some b => some (b.2, w64 b.1)
    | none, none => none

/-- A copy that moves nothing (R224). -/
def copyEmpty (d : List Word) : Bool := copyLen d == 0 || (copyCnts d).any (· == 0)

/-- The checks of R236 on a descriptor, and its group (R198). -/
def binscatCheck (s : State) (ctx : Nat) (d : List Word) : Option (Nat × Word) :=
  let h : BitVec 32 := BitVec.ofNat 32 (bits (d.getD 5 0) 31 0)
  let nb := bits (d.getD 6 0) 59 48 + 1
  if bits (d.getD 6 0) 63 60 != 0 || d.getD 7 0 != 0 || bits (d.getD 6 0) 47 32 == 0 then some (31, 0)
  else match (List.range (2 + 3 * nb)).find? fun i => !semOk s ctx (h + BitVec.ofNat 32 i) with
    | some i => some (27, (h + BitVec.ofNat 32 i).setWidth 64)
    | none => none

/-- A bin parameter array of `n` bins at an address has its reserved doublewords at 0 (R236); how its reading ends. -/
def binParams (s : State) (ag : Agent) (a : Word) (n : Nat) : Bool × State × Option Stop :=
  let r := readDesc s ag a (4 * n)
  ((List.range n).all fun b => r.1.getD (4 * b + 3) 0 == 0, r.2)

/-- A copy whose descriptor has been read and checked begins: the writeback of R202 comes first. -/
def State.beginCopy (s : State) (tu : Nat) (ag : Agent) (k : CCmd) (d : List Word) : State :=
  let sp := k.spans d
  let dst := if copyKind d = 0 then sp.2 else (sp.2.1, 0)
  ((s.copyWriteback ag sp.1 dst).setCCmd tu { k with desc := d, finished := copyEmpty d, started := true }).markCopy tu k.bank

/-- The start of a command. -/
def startCopy (s : State) (tu : Nat) (k : CCmd) : Option State :=
  let ag := k.agent s
  let run (s : State) (k : CCmd) : State := (s.setCCmd tu { k with started := true }).markCopy tu k.bank
  match k.kind with
  | .copy =>
    let r := readDesc s ag k.xa 12
    match r.2.2 with
    | some e => stopCopy r.2.1 tu k e
    | none =>
      match copyCheck r.2.1 ag k r.1 with
      | some (cause, v) => stopCopy r.2.1 tu k (.trap cause v)
      | none => some (r.2.1.beginCopy tu ag k r.1)
  | .binscat =>
    let r := readDesc s ag k.xa 8
    match r.2.2 with
    | some e => stopCopy r.2.1 tu k e
    | none =>
      match binscatCheck r.2.1 k.ctx r.1 with
      | some (cause, v) => stopCopy r.2.1 tu k (.trap cause v)
      | none =>
        let p := binParams r.2.1 ag (r.1.getD 4 0) (bits (r.1.getD 6 0) 59 48 + 1)
        match p.2.2 with
        | some e => stopCopy p.2.1 tu k e
        | none => if p.1 then some (run p.2.1 { k with desc := r.1 }) else stopCopy p.2.1 tu k (.trap 31 0)
  | .migrate =>
    match heapPlace s k.ctx (keyPart ag.key) (bits k.xa 56 0), walkCtx s k.ctx (keyPart ag.key) .read k.xa (bits k.xa 56 0) with
    | none, .error f => stopCopy s tu k (.page f)
    | _, _ =>
      some { run s k with moves := s.moves ++ [⟨keyCore k.bank, keyBank k.bank, tu, k.ctx, k.tl, k.xa, k.xb, k.at0, false, false⟩] }
  | .cresume => none

/-- COPY_START (R226): the unit starts its next command. -/
def tryCopyStart (core tu : Nat) (s : State) : Option State := do
  let c := s.core core
  let k ← c.activeCopy tu
  if k.started || k.fault.isSome || !c.awake then none
  startCopy s tu k

/-- COPY_START (R226). -/
def execCopyStart (core tu : Nat) (s : State) : Out := eventOn s core (tryCopyStart core tu s)

/-! ### Iterations (R224, R227, R230, R231) -/

/-- Addresses of an iteration (R224). -/
def CCmd.iteration (k : CCmd) (li : List Nat) : Word × Word :=
  let off (first : Nat) : Word :=
    (li.zip (halves k.desc first)).foldl (fun a p => a + w64 p.1 * BitVec.ofInt 64 (toSigned 32 p.2)) 0
  let b := k.bases k.desc
  (if k.fill then b.1 else b.1 + off 6, b.2 + off 9)

/-- The next indices, level 0 fastest; none after the last iteration. -/
def nextIndices : List Nat → List Nat → Option (List Nat)
  | i :: is, c :: cs => if i + 1 < c then some ((i + 1) :: is) else (nextIndices is cs).map (0 :: ·)
  | _, _ => none

/-- Bytes of a fill (R224). -/
def fillBytes (src a : Word) (n : Nat) : List Byte :=
  let b := leBytes 8 src.toNat
  (List.range n).map fun j => b.getD ((a.toNat + j) % 8) 0

/-- Writing into the instruction memory or the micro-program area of the issuing core (R230). -/
def State.writeArea (s : State) (ck dk : Nat) (off : Nat) (bs : List Byte) : State :=
  s.writeLoc (if dk = 1 then imemLoc ck off else microLoc ck off) bs

/-- The origin of instruction-memory bytes copied from an address (R355), with VALID. -/
def originOf (s : State) (ag : Agent) (va : Word) : Word :=
  match parseWindow s ag va with
  | some (_, .glob a) => w64 (2 ^ 63 + a)
  | some (_, .spad key off) => w64 (0xD * 2 ^ 60 + keyL key * 2 ^ 54 + off)
  | none => 0

/-- The blocks of 4,096 bytes that an iteration writes, with their origins; it replaces an earlier iteration's (R355). -/
def iterOrigins (s : State) (ag : Agent) (k : CCmd) (m : SMap Word) : SMap Word :=
  let a := k.iteration k.li
  let d := a.2.toNat
  let n := copyLen k.desc
  (range2 (d / 4096) ((d + n - 1) / 4096 + 1 - d / 4096)).foldl (fun m b =>
    let whole := !k.fill && decide (d ≤ 4096 * b) && decide (4096 * (b + 1) ≤ d + n)
    SMap.put m b (if whole then originOf s ag (a.1 + w64 (4096 * b - d)) else 0)) m

/-- Progress of a copy after `m` more bytes of the iteration, of which `rest` are read and not yet written. -/
def CCmd.moved (k : CCmd) (m : Nat) (rest : List Byte) : CCmd :=
  if copyLen k.desc ≤ k.part + m then
    match nextIndices k.li (copyCnts k.desc) with
    | some li => { k with li := li, part := 0, buf := [] }
    | none => { k with part := 0, buf := [], finished := true }
  else { k with part := k.part + m, buf := rest }

/-- How the pieces of a source are read. -/
abbrev Reader := State → Agent → List (Word × Nat) → List Byte × State × Option Stop

/-- The rest of an iteration is read: the bytes of the iteration from `part` on, and how the reading ends. -/
def readIteration (read : Reader) (s : State) (ag : Agent) (k : CCmd) : List Byte × State × Option Stop :=
  let src := (k.iteration k.li).1 + w64 (k.part + k.buf.length)
  let n := copyLen k.desc - (k.part + k.buf.length)
  let r := if k.fill then (fillBytes (k.desc.getD 0 0) src n, s, none) else read s ag (pieces n src n)
  (k.buf ++ r.1, r.2)

/-- An iteration, or what is left of it: all its bytes are read before any is written, across a fault too (R224). -/
def runIterationBy (read : Reader) (s : State) (tu : Nat) (k : CCmd) : Option State :=
  let ag := k.agent s
  let r := readIteration read s ag k
  match r.2.2 with
  | some e => stopCopy r.2.1 tu { k with buf := r.1 } e
  | none =>
    let dst := (k.iteration k.li).2 + w64 k.part
    if copyKind k.desc = 0 then
      let w := writePieces r.2.1 ag (k.bank, tu, k.tl) (pieces r.1.length dst r.1.length) r.1
      let k' := k.moved w.1 (r.1.drop w.1)
      match w.2.2 with
      | some e => stopCopy w.2.1 tu k' e
      | none => some (w.2.1.keepCCmd tu k')
    else
      let o := if copyKind k.desc = 1 then iterOrigins s ag k k.origins else k.origins
      some ((r.2.1.writeArea ag.key (copyKind k.desc) dst.toNat r.1).keepCCmd tu ({ k with origins := o }.moved r.1.length []))

/-- An iteration of a copy that reads at the home. -/
def runIteration (s : State) (tu : Nat) (k : CCmd) : Option State := runIterationBy readPieces s tu k

/-- COPY_ITERATION (R224). -/
def tryCopyIteration (core tu : Nat) (s : State) : Option State := do
  let c := s.core core
  let k ← c.activeCopy tu
  if k.kind != .copy || !k.started || k.fault.isSome || !c.awake then none
  runIteration s tu k

/-- COPY_ITERATION (R224). -/
def execCopyIteration (core tu : Nat) (s : State) : Out := eventOn s core (tryCopyIteration core tu s)

/-! ### Completion (R228, R233, R355) -/

/-- A command completes: its number may pass, and IMORG takes the origins of the blocks it wrote (R355). -/
def finishCopy (s : State) (tu : Nat) (k : CCmd) : State :=
  let s := s.modCore (keyCore k.bank) fun c => { c with imorg := k.origins.foldl (fun m o => SMap.set 0 m o.1 o.2) c.imorg }
  ((s.dropCCmd tu k).tlDone k.bank tu k.tl).markCopy tu k.bank

/-- A command may complete: finished; a cresume once its command is gone. -/
def copyDone (q : List CCmd) (k : CCmd) : Bool :=
  if k.kind = .cresume then k.issued && (k.finished || q.all fun v => !k.names v) else k.finished

/-- The commands of a unit that a later one completes behind (R228): not a migrate, nor one of a task that is stopped (R194), nor one
still to leave the queue. -/
def ordersCompletion (c : Core) (tu : Nat) (e : CCmd) : Bool :=
  e.issued && (e.kind == .copy || e.kind == .binscat) && (stoppedC c tu e.uid).isNone

/-- COPY_COMPLETION (R228): in queue order, past migrates that move and commands of other tasks that are stopped. -/
def tryCopyCompletion (core tu : Nat) (s : State) : Option State := do
  let c := s.core core
  let q := c.unit tu
  let k ← q.find? fun k => k.kind != .migrate && copyDone q k
  if (q.takeWhile fun e => !(e.uid == k.uid && e.tl == k.tl)).any (ordersCompletion c tu) then none
  return finishCopy s tu k

/-- COPY_COMPLETION (R228). -/
def execCopyCompletion (core tu : Nat) (s : State) : Out := eventOn s core (tryCopyCompletion core tu s)

/-! ### Bin scatter (R236, R237) -/

/-- A semaphore operation of a binscat: repeated with the same tag, it returns the recorded result and does nothing
(R237). `op` gives the new word and the result. -/
def State.taggedSem (s : State) (core tu : Nat) (tag : List Nat) (k : Nat) (op : Nat → Nat × Nat) : State × Word :=
  let r := op (s.semRead k).toNat
  let t := if r.1 = (s.semRead k).toNat then s else s.semWrite k (w64 r.1)
  let fresh := (t.modCore core fun c => { c with semTag := SMap.put c.semTag tu (tag, w64 r.2) }, w64 r.2)
  match SMap.find (s.core core).semTag tu with
  | some (g, v) => if g = tag then (s, v) else fresh
  | none => fresh

/-- A release by an engine command at package scope: its own writes, and what its issue released at core scope (R184,
R202). -/
def State.releaseOwn (s : State) (ag : Agent) (eng : Nat × Nat × Nat) : State :=
  s.publishAll ag.key ((s.dir.filter fun e =>
    e.2.pend.all (· == eng) && (e.2.tag == .core ag.key || (e.2.tag == .task ag.uid && !e.2.pend.isEmpty))).map (·.1))

/-- Adding 1 to a word; bump by 1 below a limit (R198, R200). -/
def addOne (v : Nat) : Nat × Nat := ((v + 1) % 2 ^ 64, v)
def bumpOne (cap v : Nat) : Nat × Nat := if v + 1 ≤ cap then (v + 1, v) else (v, 2 ^ 64 - 1)

/-- The word of a handle known to be in range. -/
def groupWord (s : State) (ctx : Nat) (h : BitVec 32) (i : Nat) : Nat := ((semKey s ctx (h + BitVec.ofNat 32 i)).join).getD 0

/-- The steps of a token up to its offset: kind and offset, or a stop. -/
def bumpToken (s : State) (tu : Nat) (k : CCmd) (ag : Agent) (t : Nat) : Except Stop (State × Nat × Nat) :=
  let d := k.desc
  let h : BitVec 32 := BitVec.ofNat 32 (bits (d.getD 5 0) 31 0)
  let sem (s : State) (step i : Nat) (op : Nat → Nat × Nat) : State × Word :=
    let r := (s.releaseOwn ag (k.bank, tu, k.tl)).taggedSem ag.key tu [k.bank, k.tl, t, step] (groupWord s k.ctx h i) op
    (r.1.acquire ag.key 4, r.2)
  let e := readPieces s ag (pieces 2 (d.getD 2 0 + w64 (2 * t)) 2)
  match e.2.2 with
  | some x => .error x
  | none =>
    let b := leVal e.1
    if bits (d.getD 6 0) 59 48 < b then .ok ((sem e.2.1 0 0 addOne).1, 3, 0)
    else
      let p := readDesc e.2.1 ag (d.getD 4 0 + w64 (32 * b)) 4
      match p.2.2 with
      | some x => .error x
      | none =>
        if p.1.getD 3 0 != 0 then .error (.trap 31 0)
        else
          let o := sem p.2.1 1 (2 + 3 * b) (bumpOne (bits (p.1.getD 2 0) 31 0))
          if o.2 != ~~~0#64 then .ok (o.1, 0, o.2.toNat)
          else
            let v := sem o.1 2 (3 + 3 * b) (bumpOne (bits (p.1.getD 2 0) 63 32))
            if v.2 != ~~~0#64 then .ok (v.1, 1, v.2.toNat)
            else .ok ((sem v.1 3 (4 + 3 * b) addOne).1, 2, 0)

/-- Moving a token and writing its return slot: the state, and a stop. -/
def moveToken (s : State) (tu : Nat) (k : CCmd) (ag : Agent) (t kind off : Nat) : State × Option Stop :=
  let d := k.desc
  let tsz := bits (d.getD 6 0) 47 32
  let eng := (k.bank, tu, k.tl)
  let put (s : State) : State × Option Stop :=
    let a := d.getD 3 0 + w64 (8 * t)
    (writePieces s ag eng (pieces 8 a 8) (leBytes 8 (kind * 2 ^ 62 + off % 2 ^ 32))).2
  if 2 ≤ kind then put s
  else
    let e := readPieces s ag (pieces 2 (d.getD 2 0 + w64 (2 * t)) 2)
    match e.2.2 with
    | some x => (e.2.1, some x)
    | none =>
      let p := readDesc e.2.1 ag (d.getD 4 0 + w64 (32 * leVal e.1)) 4
      match p.2.2 with
      | some x => (p.2.1, some x)
      | none =>
        let r := readPieces p.2.1 ag (pieces tsz (d.getD 0 0 + w64 t * d.getD 1 0) tsz)
        let dst := p.1.getD (if kind = 0 then 0 else 1) 0 + w64 (off * tsz)
        let w := writePieces r.2.1 ag eng (pieces tsz dst tsz) r.1
        match w.2.2.orElse fun _ => r.2.2 with
        | some x => (w.2.1, some x)
        | none => put w.2.1

/-- The turn of a binscat in deterministic operation (R237, R238). -/
def hasTurn (s : State) (k : CCmd) : Bool :=
  let h : BitVec 32 := BitVec.ofNat 32 (bits (k.desc.getD 5 0) 31 0)
  !k.det || decide (bits (k.desc.getD 5 0) 63 32 ≤ (s.semRead (groupWord s k.ctx h 1)).toNat)

/-- One token of a binscat, or its end. In deterministic operation its first step is the turn's sem.wait, which acquires (`part` is
1 from then on); the closing sem.add acquires too (R198, R237). -/
def runToken (s : State) (tu : Nat) (k : CCmd) : Option State :=
  let ag := k.agent s
  let t := k.li.getD 0 0
  let h : BitVec 32 := BitVec.ofNat 32 (bits (k.desc.getD 5 0) 31 0)
  if !hasTurn s k then none
  else if bits (k.desc.getD 6 0) 31 0 ≤ t then
    let s := if k.det then
        (((s.releaseOwn ag (k.bank, tu, k.tl)).taggedSem ag.key tu [k.bank, k.tl, t, 4] (groupWord s k.ctx h 1) addOne).1).acquire ag.key 4
      else s
    some (s.keepCCmd tu { k with finished := true })
  else if k.det && k.part = 0 then some ((s.acquire ag.key 4).keepCCmd tu { k with part := 1 })
  else
    let s := s.modTask k.uid fun t => { t with unverifiable := true }
    let m : Except Stop (State × Nat × Nat) :=
      if k.li.getD 1 0 = 1 then .ok (s, k.li.getD 3 0, k.li.getD 2 0) else bumpToken s tu k ag t
    match m with
    | .error e => stopCopy s tu k e
    | .ok (s, kind, off) =>
      let k' := { k with li := [t, 1, off, kind, 0, 0] }
      let w := moveToken s tu k' ag t kind off
      match w.2 with
      | none => some (w.1.keepCCmd tu { k with li := [t + 1, 0, 0, 0, 0, 0] })
      | some e => stopCopy w.1 tu k' e

/-- BINSCAT_TOKEN (R237). -/
def tryBinscatToken (core tu : Nat) (s : State) : Option State := do
  let c := s.core core
  let k ← c.activeCopy tu
  if k.kind != .binscat || !k.started || k.fault.isSome || !c.awake then none
  runToken s tu k

/-- BINSCAT_TOKEN (R237). -/
def execBinscatToken (core tu : Nat) (s : State) : Out := eventOn s core (tryBinscatToken core tu s)

/-! ### Page moves (R241 to R243) -/

/-- The valid leaves below a table: the location of the entry, the entry and its level. -/
def leavesBelow (s : State) (part ctx : Nat) : List Nat → Nat → List (Nat × Word × Nat)
  | [], _ => []
  | l :: ls, table =>
    (List.range (if l = 0 then 32 else 512)).flatMap fun i =>
      let ea := memLoc part (table + 8 * i)
      let e := w64 (s.readLoc ea 8)
      if !([0, 3].contains (pteCause s ctx l e .read)) then []
      else if bitAt e 1 then [(ea, e, l)]
      else leavesBelow s part ctx ls (bits e 55 16 * 2 ^ 16)

/-- The valid leaves of a partition's contexts. -/
def State.leaves (s : State) (part : Nat) : List (Nat × Word × Nat) :=
  s.ctxs.flatMap fun c =>
    if c.2.part.toNat = part && c.2.ptbr != 0 && decide (c.2.ptbr.toNat < s.memSize) then
      leavesBelow s part c.1 [4, 3, 2, 1, 0] c.2.ptbr.toNat else []

/-- Two leaves of one level map one page in one home (R39): PA, SYS, HOME and HID are equal. -/
def samePage (e f : Word) : Bool :=
  bits e 55 16 == bits f 55 16 && bitAt e 7 == bitAt f 7 && bits e 6 5 == bits f 6 5 && bits e 13 8 == bits f 13 8

/-- Bytes of a partition's pages that are pinned to a slice, each page counted once. -/
def pinnedBytes (s : State) (part slice : Nat) : Nat :=
  let ps := (s.leaves part).filterMap fun x =>
    if bits x.2.1 6 5 = 2 && bits x.2.1 13 8 = slice then some (bits x.2.1 55 16 * 2 ^ 16, 2 ^ levelShift x.2.2) else none
  ps.eraseDups.foldl (fun n p => n + p.2) 0

/-- The entry of a page moved home (R241): its HOME and HID fields; the logical memory address stays (R242). -/
def movedEntry (e : Word) (target slice : Nat) : Word :=
  w64 (bits e 63 14 * 2 ^ 14 + (if target = 1 then slice else 0) * 2 ^ 8 + bits e 7 7 * 2 ^ 7
    + (if target = 1 then 2 else 0) * 2 ^ 5 + bits e 4 0)

/-- What a move does: 0 already at the target, 1 no move and SKIP, 2 moves. -/
def moveOutcome (s : State) (part : Nat) (e : Word) (level target slice : Nat) : Nat :=
  let home := bits e 6 5
  if (target = 0 && home = 0) || (target = 1 && home = 2 && bits e 13 8 = slice) then 0
  else if home = 3 || home = 1 || (target = 1 && level = 2) || (target = 1 && bitAt e 7) || (target = 1 && 32 / s.parts ≤ slice)
      || (target = 1 && 4 * 2 ^ 20 < pinnedBytes s part slice + 2 ^ levelShift level) then 1
  else 2

/-- The SKIP count of a bank and unit, saturating (R234). -/
def State.countSkip (s : State) (m : Move) : State :=
  s.modCore m.core fun c =>
    let i := skipKey m.bank m.tu
    let v := SMap.get 0 c.skip i
    { c with skip := SMap.put c.skip i (if v = 255 then 255 else v + 1) }

/-- Replacing the n-th move. -/
def State.setMove (s : State) (n : Nat) (m : Move) : State := { s with moves := s.moves.set n m }

/-- Every entry that maps a page takes the page's new home, in the page tables and in the TLBs of the partition: an access by any
mapping of the page reaches its one new home (R242). Mappings of the page within a page of another size keep theirs (DESIGN CHOICE: log 19). -/
def State.rehome (s : State) (part : Nat) (e : Word) (level target slice : Nat) : State :=
  let tlb (l : List TlbEntry) : List TlbEntry :=
    l.map fun t => if tlbLevel t = level && samePage t.pte e then { t with pte := movedEntry t.pte target slice } else t
  let s := ((s.leaves part).filter fun x => x.2.2 == level && samePage x.2.1 e).foldl
    (fun s x => s.writeLoc x.1 (leBytes 8 (movedEntry x.2.1 target slice).toNat)) s
  { s with
    cores := s.cores.map fun x => if keyPart x.1 = part then (x.1, { x.2 with tlb := tlb x.2.tlb }) else x
    tlb2 := s.tlb2.map fun x => if x.1 = part then (x.1, tlb x.2) else x }

/-- What a table of sectors says of one span, said of another of `n` sectors. -/
def moveKeys {α : Type} (m : SMap α) (src dst n : Nat) : SMap α :=
  ((m.filter fun e => decide (src ≤ e.1) && decide (e.1 < src + n)).map fun e => (e.1 - src + dst, e.2)).foldl
    (fun m e => SMap.put m e.1 e.2)
    (SMap.erase m fun k => (decide (src ≤ k) && decide (k < src + n)) || (decide (dst ≤ k) && decide (k < dst + n)))

/-- A move carries the bytes of a span, their narrow records, the holders with their stale marks, the uncorrectable errors and the
reservations to another (R242). -/
def State.moveSpan (s : State) (src dst n : Nat) : State :=
  let a := sectorOf src
  let b := sectorOf dst
  let move (x : Nat) : Nat := if a ≤ x && x < a + n / 32 then x - a + b else x
  { s with
    mem := Memory.copySpan s.mem src dst n
    dir := moveKeys s.dir a b (n / 32)
    cores := s.cores.map fun c => (c.1, { c.2 with
      l1 := moveKeys c.2.l1 a b (n / 32)
      preload := c.2.preload.map fun p => (p.1, { p.2 with sectors := moveKeys p.2.sectors a b (n / 32) }) })
    bad := s.bad.map move
    resv := s.resv.map fun r => (r.1, move r.2) }

/-- PAGE_MOVE (R242): the n-th move is performed in one step, or completes with no move (R241). -/
def tryPageMove (n : Nat) (s : State) : Option State := do
  let m ← s.moves[n]?
  if m.done then none
  let part := keyPart m.core
  let a := bits m.va 56 0
  let target := bits m.parms 3 0
  let slice := bits m.parms 8 4
  let skip := (s.setMove n { m with done := true }).countSkip m
  if (heapPlace s m.ctx part a).isSome then return skip
  match walkCtx s m.ctx part .read m.va a with
  | .error _ => return skip
  | .ok (e, level) =>
    match moveOutcome s part e level target slice with
    | 0 => return s.setMove n { m with done := true }
    | 1 => return skip
    | _ =>
      let s' := s.moveSpan (leafPlace part e level 0).loc (leafPlace part (movedEntry e target slice) level 0).loc (2 ^ levelShift level)
      return (s'.rehome part e level target slice).setMove n { m with moved := true, done := true }

/-- PAGE_MOVE (R242). -/
def execPageMove (n : Nat) (s : State) : Out := event s (tryPageMove n s)

/-- MIGRATE_COMPLETION (R241, R243): the command of the n-th move completes; a moving one that took longer than its
deadline raises the slip counter. -/
def tryMigrateCompletion (n : Nat) (s : State) : Option State := do
  let m ← s.moves[n]?
  if !m.done then none
  let bk := bankKey m.core m.bank
  let slip := m.moved && bits m.parms 63 32 != 0 && decide (m.at0 + bits m.parms 63 32 < s.tick)
  let s := { s with moves := s.moves.eraseIdx n }
  let s := if slip then s.modCtx m.ctx fun c => { c with slip := c.slip + 1 } else s
  match ((s.core m.core).unit m.tu).find? fun k => k.kind == .migrate && k.bank == bk && k.tl == m.tl with
  | some k => return finishCopy s m.tu k
  | none => return s.tlDone bk m.tu m.tl

/-- MIGRATE_COMPLETION (R241). -/
def execMigrateCompletion (n : Nat) (s : State) : Out := event s (tryMigrateCompletion n s)

/-! ### Reset (R222, R232) -/

/-- Every command goes back to its mark: a copy to the last multiple of 64 KiB of its iteration. Stream entries and
bindings stay. -/
def State.resetCopy (s : State) (core : Nat) : State :=
  s.modCore core fun c => { c with cq := c.cq.map fun e => (e.1, e.2.map CCmd.toMark) }

end Sys2Proof.Machine
end

