-- ==== Sys2Proof/Machine/Groups.lean ====
section
/-!
DEFINITION. Machine/Groups.lean: the collective queue and the group table: issue of every row of class 101 (R286, R291 to
R299, R309, R315, R319), the control forms at the head of the queue, ranks (R285, R323) and slack throttling (R318).
-/

namespace Sys2Proof.Machine

/-! ### Entries of the group table (R292) -/

/-- The words of an entry. -/
abbrev Entry := List Word

/-- The 24 words of entry g. -/
def Ctx.entry (c : Ctx) (g : Nat) : Entry := (List.range 24).map fun w => SMap.get 0 c.group (24 * g + w)

/-- Writing a word of an entry. -/
def State.setEntryWord (s : State) (ctx g w : Nat) (v : Word) : State :=
  s.modCtx ctx fun c => { c with group := SMap.set 0 c.group (24 * g + w) v }

def Entry.w16 (e : Entry) : Word := e.getD 16 0
def Entry.own (e : Entry) : Nat := bits e.w16 9 0
def Entry.k (e : Entry) : Nat := bits e.w16 20 10
def Entry.lag (e : Entry) : Nat := bits e.w16 24 21
def Entry.wrule (e : Entry) : Nat := bits e.w16 26 25
def Entry.wsh (e : Entry) : Nat := bits e.w16 30 27
def Entry.mode (e : Entry) : Nat := bits e.w16 32 31
def Entry.held (e : Entry) : Bool := bitAt e.w16 33
def Entry.thr (e : Entry) : Bool := bitAt e.w16 45
def Entry.gid (e : Entry) : Word := e.getD 22 0
def Entry.members (e : Entry) : BitVec 1024 := BitVec.ofNat 1024 (packN 64 ((e.take 16).map (·.toNat)))

/-- The ranks of a member set, ascending. -/
def ranksOf (m : BitVec 1024) : List Nat := (List.range 1024).filter fun r => bitAt m r

/-- The ordinal of a member (R292). -/
def ordinal (m : BitVec 1024) (r : Nat) : Nat := ((List.range r).filter fun i => bitAt m i).length

/-- The digest of R300: words 0 to 15 (MEMBERS), word 16 without OWN, THR, N and HELD, and word 22 (GID); for a broadcast also
the root's COUNT. -/
def groupDigest (members : BitVec 1024) (w16 gid : Word) (count : Option Nat) : BitVec 32 :=
  crc32c (leBytes 128 members.toNat ++ leBytes 8 (bits w16 32 10 * 2 ^ 10) ++ leBytes 8 gid.toNat
    ++ match count with
      | some n => leBytes 4 n
      | none => [])

/-- Raising a 16-bit field of STAT, saturating (R292). -/
def statUp (w : Word) (lo : Nat) : Word :=
  if bits w (lo + 15) lo = 0xFFFF then w else w64 (w.toNat + 2 ^ lo)

def State.raiseStat (s : State) (ctx g lo : Nat) : State :=
  s.setEntryWord ctx g 19 (statUp (SMap.get 0 (s.ctx ctx).group (24 * g + 19)) lo)

/-! ### Ranks (R285, R323) -/

/-- The rank-table entry of a rank, read in the context's own translation; none where the table does not hold it. -/
def State.rankEntry (s : State) (ctx r : Nat) : Option Word :=
  let c := s.ctx ctx
  if r < c.rankn.toNat then
    let a := c.rankt.toNat + 8 * r
    match xlatCtx s ctx c.part.toNat .read (w64 a) (a % 2 ^ 57) with
    | .ok p => some (w64 (s.readLoc p.loc 8))
    | .error _ => none
  else none

def rankModule (e : Word) : Nat := bits e 47 40
def rankCtx (e : Word) : Nat := bits e 37 32
def rankCore (e : Word) : Nat := bits e 5 0

/-- The context and entry, in a partition of this module, of a member of a group. -/
def State.memberEntry (s : State) (part : Nat) (gid : Word) (members : BitVec 1024) (rank : Nat) : Option (Nat × Nat) :=
  ((s.ctxs.filter fun c => c.2.part.toNat == part).flatMap fun c => (List.range 256).filterMap fun g =>
    let e := c.2.entry g
    if e.gid = gid && e.members == members && e.own = rank && members != 0 then some (c.1, g) else none).head?

/-- A member of a group, as a context's rank table names it, belongs to another module. -/
def State.remoteGroup (s : State) (ctx : Nat) (members : BitVec 1024) : Bool :=
  (ranksOf members).any fun r => (s.rankEntry ctx r).any fun e => rankModule e != 0

/-! ### Operations of a channel (R286, R314) -/

/-- A group operation (R298). -/
def KKind.isGroup : KKind → Bool
  | .allred | .redsc | .allgat | .bcast => true
  | _ => false

/-- The operations of a bank's channel, in queue order. -/
def Core.channel (c : Core) (bk ch : Nat) : List KCmd := c.kq.filter fun k => k.kind.isOp && k.bank == bk && k.ch == ch

/-- Partly performed or stopped (R314). -/
def KCmd.partly (k : KCmd) : Bool := k.kind.isOp && k.kind != .kresume && !k.finished && (k.stop.isSome || k.phase != 0)

/-- K_SEQ and K_STEP show the oldest incomplete operation of a channel (R314). -/
def State.markCol (s : State) (core bk ch uid : Nat) : State :=
  let s := s.stampMark core 4
  match ((s.core core).channel bk ch).find? fun k => k.uid == uid && k.kind != .kresume with
  | none => s.modHome bk uid fun b => { b with kseq := SMap.set 0 b.kseq ch 0, kstep := SMap.set 0 b.kstep ch 0 }
  | some k => s.modHome bk uid fun b =>
      { b with
        kseq := SMap.set 0 b.kseq ch (BitVec.ofNat 32 k.tag)
        kstep := SMap.set 0 b.kstep ch (BitVec.ofNat 16 ((if k.partly then 2 ^ 15 else 0) + k.phase % 8 * 2 ^ 12 + k.done / 4096 % 2 ^ 12)) }

/-- The finished operations at the head of a channel; a kresume that has issued completes with the operation before it (R286,
R315). -/
def finishedHead : List KCmd → List KCmd
  | [] => []
  | k :: ks => if k.finished || (k.kind == .kresume && k.issued) then k :: finishedHead ks else []

/-! ### Issue -/

/-- A command with no operand. -/
def KCmd.blank (kind : KKind) (f : FGr) : KCmd where
  kind := kind
  bank := 0
  uid := 0
  ctx := 0
  core := 0
  ctl := ⟨0, 0⟩
  tl := 0
  ch := f.ch.toNat
  ge := f.ge.toNat
  op := f.op.toNat
  et := f.et.toNat
  xd := f.xd
  xa := 0
  xb := 0
  tag := 0
  nrmRm := 0
  seed := 0
  desc := []
  seq := 0
  issued := false
  phase := 0
  done := 0
  entry := []
  stop := none
  fault := none
  performed := false
  finished := false

/-- A form that changes the entry or its hold. -/
def KKind.changes : KKind → Bool
  | .grpsetWrite | .grpsetClaim | .grpsetRelease | .qparm => true
  | _ => false

/-- Checks against an entry use what the bank's earlier forms on it leave (R62): they must have been performed. -/
def formsDone (s : State) (g : Nat) : Except Stop Unit :=
  let b := s.bank s.me
  need ((s.core (keyCore s.me)).kq.all fun k => !(k.uid == b.uid.getD 0 && k.ge == g && k.kind.changes && !k.issued)) .stall

/-- The entry that GE names. -/
def myEntry (s : State) (f : FGr) : Entry := (s.ctx (s.ctxOf s.me)).entry f.ge.toNat

/-- The bank holds the entry (R293). -/
def heldEntry (s : State) (f : FGr) : Except Stop Unit := need (bitAt (s.bank s.me).hold f.ge.toNat) (badOp 0x19 41)

/-- The number of a command: an operation takes the next of its channel. -/
def numberOf (k : KCmd) (b : Bank) : Nat := if k.kind.isOp then b.tlNext (6 + k.ch) else 0

/-- The bank after a command has entered. -/
def takeForm (k : KCmd) (b : Bank) : Bank :=
  if k.kind.isOp then (b.nextSeq.tlGive (6 + k.ch)).wx k.xd.toNat (w64 (b.tlNext (6 + k.ch)))
  else if k.xd = 0 then b.nextSeq else { b.nextSeq with pendX := b.pendX ++ [k.xd] }

/-- A stopped operation of the task on either channel: the channels are two of one engine, the collective engine (R194, R286). -/
def trapCol (c : Core) (uid : Nat) : Option (Nat × Word × Nat) := (trapK c 0 uid).or (trapK c 1 uid)

/-- Entering the collective queue (R33, R286): a stopped engine traps everything but kresume (R194); an operation takes a number of
its channel and x[xd] receives it; a control form leaves x[xd] pending. -/
def enterCol (s : State) (c : Ctl) (k : KCmd) : Except Stop State := do
  let bk := s.me
  let core := s.core (keyCore bk)
  let b := s.bank bk
  let uid := b.uid.getD 0
  if k.kind != .kresume then trapStopped (trapCol core uid)
  need (decide (core.kq.length < 64)) .stall
  let k := { k with
    bank := bk, uid := uid, ctx := s.ctxOf bk, core := keyCore bk, ctl := c, seq := b.seq,
    tl := numberOf k b, nrmRm := b.rm, seed := ((s.myLaunch bk).map (·.seed)).getD 0 }
  return (s.setBank bk (takeForm k b)).setCore (keyCore bk) { core with kq := core.kq ++ [k] }

/-- The issue of an operation: the release of R287, and the task's log entry is no longer verifiable (R373). -/
def State.beginOp (s : State) : State :=
  (s.release (s.agent s.me) 1).modTask ((s.bank s.me).uid.getD 0) fun t => { t with unverifiable := true }

/-- The limits of x[xb] (R298, R299). -/
def countOk (x : Word) : Bool := x != 0 && decide (x.toNat ≤ 2 ^ 24)

/-- A group operation (R298 to R300): it takes the round tag SEQ. -/
def issueGroup (kind : KKind) (c : Ctl) (f : FGr) (s : State) (xbOk opOk : Entry → Bool) (reduces : Bool) : Out :=
  perform s 8 do
    checkCrew s c .col
    formsDone s f.ge.toNat
    let e := myEntry s f
    let a := s.rx s.me f.xa
    let xb := s.rx s.me f.xb
    need (a.toNat % 64 == 0) (badOp 0x19 54)
    need (xbOk e) (badOp 0x19 49)
    heldEntry s f
    let det := ((s.myLaunch s.me).map (·.det)).getD false
    need (!(reduces && det && decide (e.k < bits e.w16 44 34) && e.mode == 0)) (badOp 0x19 41)
    need (opOk e) (badOp 0x19 36)
    need (decide (f.et.toNat ≤ 6)) (badOp 0x15 32)
    let ctx := s.ctxOf s.me
    let s' ← enterCol s.beginOp c { KCmd.blank kind f with xa := a, xb := xb, tag := (e.getD 17 0).toNat }
    return s'.setEntryWord ctx f.ge.toNat 17 (e.getD 17 0 + 1)

/-- The OP codes of a reduction: no mean of an integer type (R298, R299). -/
def redOp (f : FGr) (_ : Entry) : Bool := decide (f.op.toNat ≤ 4) && !(f.op.toNat == 1 && decide (5 ≤ f.et.toNat))

/-- ALLRED (R298). -/
def execAllred (c : Ctl) (f : FGr) (s : State) : Out :=
  issueGroup .allred c f s (fun _ => countOk (s.rx s.me f.xb)) (redOp f) true

/-- REDSC (R298). -/
def execRedsc (c : Ctl) (f : FGr) (s : State) : Out :=
  issueGroup .redsc c f s (fun _ => countOk (s.rx s.me f.xb)) (redOp f) true

/-- ALLGAT (R298). -/
def execAllgat (c : Ctl) (f : FGr) (s : State) : Out :=
  issueGroup .allgat c f s (fun _ => countOk (s.rx s.me f.xb)) (fun _ => f.op == 0) false

/-- BCAST (R298): the root is a member. -/
def execBcast (c : Ctl) (f : FGr) (s : State) : Out :=
  issueGroup .bcast c f s
    (fun e => decide ((s.rx s.me f.xb).toNat < 1024) && bitAt e.members (s.rx s.me f.xb).toNat) (fun _ => f.op == 0) false

/-- owrite and owred (R291). -/
def issueWork (kind : KKind) (c : Ctl) (f : FGr) (s : State) : Out :=
  perform s 8 do
    checkCrew s c .col
    formsDone s f.ge.toNat
    let a := s.rx s.me f.xa
    need (a.toNat % 64 == 0) (badOp 0x19 54)
    heldEntry s f
    enterCol s.beginOp c { KCmd.blank kind f with xa := a }

/-- OWRITE (R291). -/
def execOwrite (c : Ctl) (f : FGr) (s : State) : Out := issueWork .owrite c f s

/-- OWRED (R291). -/
def execOwred (c : Ctl) (f : FGr) (s : State) : Out := issueWork .owred c f s

/-- Going on from a written point (R315): a group operation from PHASE and DONE, a work entry that is not all written from
DONE; an entry fires once (R290). -/
def KCmd.goOn (k : KCmd) (phase units : Nat) : KCmd :=
  let done := if units < k.done / 4096 then 4096 * units else k.done
  if k.kind == .owrite || k.kind == .owred then (if k.phase == 0 || k.performed then { k with done := done } else k)
  else { k with phase := phase, done := done }

/-- KRESUME (R315): it is checked at issue and takes a number; at the head of the queue the stop is cleared and the operation goes
on; it is issued as an operation is, with the release of R287. The command holds the number of that operation in `tag`, its PHASE in `phase` and DONE in `done`; number 0 is none. -/
def execKresume (c : Ctl) (f : FGr) (s : State) : Out :=
  perform s 8 do
    checkCrew s c .col
    let bk := s.me
    let b := s.bank bk
    let ch := f.ch.toNat
    let step := SMap.get 0 b.kstep ch
    let tag := SMap.get 0 b.kseq ch
    if bitAt step 15 then
      match (s.core (keyCore bk)).kq.find? fun k => k.uid == b.uid.getD 0 && k.ch == ch && k.partly with
      | none => throw (badOp 0x19 40)
      | some k =>
        need (tag.toNat == k.tag % 2 ^ 32 && decide (bits step 14 12 ≤ k.phase) && decide (bits step 11 0 ≤ k.done / 4096)) (badOp 0x19 40)
        enterCol (s.release (s.agent bk) 1) c { KCmd.blank .kresume f with tag := k.tl, phase := bits step 14 12, done := bits step 11 0 }
    else enterCol s c (KCmd.blank .kresume f)

/-! ### Control forms: issue (R286, R294 to R296, R309, R319) -/

/-- An entry as the bank's earlier grpset leaves it (R62, R294): the image of one not yet performed, else the entry. -/
def entryLeft (s : State) (ctx g : Nat) : Entry :=
  let b := s.bank s.me
  match ((s.core (keyCore s.me)).kq.filter fun k =>
      k.kind == .grpsetWrite && k.uid == b.uid.getD 0 && k.ge == g && !k.finished).getLast? with
  | some k => k.desc
  | none => (s.ctx ctx).entry g

/-- An image of an entry is within the limits of R292 and R294. -/
def imageOk (s : State) (ck ctx g : Nat) (e : Entry) : Bool :=
  let ms := ranksOf e.members
  let n := ms.length
  let local' (r : Nat) : Bool := (s.rankEntry ctx r).any fun w =>
    rankModule w == 0 && rankCtx w == ctx && rankCore w == keyL ck
  bits e.w16 63 46 == 0 && e.mode != 3 && e.wrule != 3 && decide (1 ≤ e.k) && decide (e.k ≤ n)
  && bitAt e.members e.own && local' e.own
  && (e.getD 20 0).toNat % 64 == 0 && (e.mode != 0 || e.getD 20 0 == 0)
  && bits (e.getD 21 0) 63 32 == 0 && (e.mode == 0 || bits (e.getD 21 0) 31 0 != 0)
  && (ms.all fun r => (s.rankEntry ctx r).isSome)
  && ((List.range 256).all fun h =>
      let o := entryLeft s ctx h
      h == g || !(o.gid == e.gid && o.members == e.members && o.own == e.own))

/-- GRPSET_WRITE (R294): the image is read and checked at issue. -/
def execGrpsetWrite (c : Ctl) (f : FGr) (s : State) : Out :=
  perform s 8 do
    checkCrew s c .col
    let ag := s.agent s.me
    let a := s.rx s.me f.xa
    need (a.toNat % 64 == 0) (badOp 0x19 54)
    let (e, s') ← readWords s ag 24 a
    need (imageOk s ag.key ag.ctx f.ge.toNat e) (badOp 0x19 54)
    enterCol s' c { KCmd.blank .grpsetWrite f with desc := e }

/-- GRPSET_CLAIM (R294). -/
def execGrpsetClaim (c : Ctl) (f : FGr) (s : State) : Out :=
  perform s 8 do
    checkCrew s c .col
    enterCol s c (KCmd.blank .grpsetClaim f)

/-- GRPSET_RELEASE (R294). -/
def execGrpsetRelease (c : Ctl) (f : FGr) (s : State) : Out :=
  perform s 8 do
    checkCrew s c .col
    enterCol s c (KCmd.blank .grpsetRelease f)

/-- QPARM (R296): the limits are those of the entry as earlier forms leave it. -/
def qparmOk (e : Entry) (op : Nat) (v : Word) : Bool :=
  match op with
  | 0 => v != 0 && decide (v.toNat ≤ bits e.w16 44 34)
  | 1 => decide (v.toNat ≤ 15)
  | 2 => bits v 1 0 != 3 && bits v 63 6 == 0
  | 3 => true
  | 4 => v == 0 || (decide (v.toNat ≤ 2) && (e.getD 20 0).toNat % 64 == 0 && bits (e.getD 21 0) 31 0 != 0)
  | 5 => decide (v.toNat ≤ 1)
  | _ => true

/-- QPARM (R296). -/
def execQparm (c : Ctl) (f : FGr) (s : State) : Out :=
  perform s 8 do
    checkCrew s c .col
    formsDone s f.ge.toNat
    let v := s.rx s.me f.xa
    need (qparmOk (myEntry s f) f.op.toNat v) (badOp 0x19 54)
    heldEntry s f
    need (decide (f.op.toNat ≤ 5)) (badOp 0x19 36)
    enterCol s c { KCmd.blank .qparm f with xa := v }

/-- RNDWAIT (R309). -/
def execRndwait (c : Ctl) (f : FGr) (s : State) : Out :=
  perform s 8 do
    checkCrew s c .col
    enterCol s c { KCmd.blank .rndwait f with xa := s.rx s.me f.xa }

/-- SLACKR (R319). -/
def execSlackr (c : Ctl) (f : FGr) (s : State) : Out :=
  perform s 8 do
    checkCrew s c .col
    let v := s.rx s.me f.xa
    formsDone s f.ge.toNat
    need (f.op != 1 || bitAt (myEntry s f).members (bits v 9 0)) (badOp 0x19 54)
    need (decide (f.op.toNat ≤ 1)) (badOp 0x19 36)
    enterCol s c { KCmd.blank .slackr f with xa := v }

/-- The bank's grpget that has been performed. -/
def readyGet (s : State) (kind : KKind) : Option KCmd :=
  (s.core (keyCore s.me)).kq.find? fun k => k.uid == (s.bank s.me).uid.getD 0 && k.kind == kind && k.performed

/-- The bank's grpget that is still in the queue. -/
def queuedGet (s : State) (kind : KKind) : Bool :=
  (s.core (keyCore s.me)).kq.any fun k => k.uid == (s.bank s.me).uid.getD 0 && k.kind == kind

def State.dropGet (s : State) (kind : KKind) : State :=
  s.modCore (keyCore s.me) fun c => { c with kq := c.kq.filter fun k => !(k.uid == (s.bank s.me).uid.getD 0 && k.kind == kind) }

/-- A grpget (R295): queued, it holds the bank by R199; performed, its words are there. The form takes no number, and the
queue leaves x[xd] to the control core. -/
def grpget (s : State) (c : Ctl) (kind : KKind) (f : FGr) : Except Stop (List Word) :=
  let w : WaitCond := .formDone (keyCore s.me) ((s.bank s.me).uid.getD 0)
  match readyGet s kind with
  | some k => .ok k.desc
  | none =>
    if queuedGet s kind then .error (.wait w)
    else match enterCol s c { KCmd.blank kind f with xd := 0 } with
      | .ok s' => .error (.block s' w)
      | .error e => .error e

/-- GRPGET_STORE (R295): the control core makes the 24 stores itself. -/
def execGrpgetStore (c : Ctl) (f : FGr) (s : State) : Out :=
  let r : Except Stop State := do
    checkCrew s c .col
    let a := s.rx s.me f.xa
    need (a.toNat % 64 == 0) (badOp 0x19 54)
    let e ← grpget s c .grpgetStore f
    let s' ← storeWords (s.dropGet .grpgetStore) (s.agent s.me) e a
    return s'.wx s.me f.xd (e.getD 17 0)
  match r with
  | .error (.trap cause v) => perform (s.dropGet .grpgetStore) 8 (.error (.trap cause v))
  | r => perform s 8 r

/-- GRPGET_WORD (R295). -/
def execGrpgetWord (c : Ctl) (f : FGr) (s : State) : Out :=
  perform s 8 do
    checkCrew s c .col
    let v := s.rx s.me f.xa
    need (decide (v.toNat ≤ 23)) (badOp 0x19 54)
    let e ← grpget s c .grpgetWord f
    return (s.dropGet .grpgetWord).wx s.me f.xd (e.getD v.toNat 0)

/-! ### The head of the queue (R48, R286) -/

/-- A stopped operation of either channel holds the task's later commands to the collective engine, but for a kresume (R194). -/
def Core.heldCol (c : Core) (k : KCmd) : Bool :=
  k.kind != .kresume && c.kq.any fun o => o.uid == k.uid && o.stop.isSome && decide (o.seq < k.seq)

/-- Replacing a command. -/
def State.setKCmd (s : State) (k : KCmd) : State :=
  s.modCore k.core fun c => { c with kq := c.kq.map fun v => if v.uid == k.uid && v.seq == k.seq then k else v }

/-- Removing a command. -/
def State.dropKCmd (s : State) (k : KCmd) : State :=
  s.modCore k.core fun c => { c with kq := c.kq.filter fun v => !(v.uid == k.uid && v.seq == k.seq) }

/-- A command that is not yet due in its crew, or that the range checker holds back, lets the other bank's pass (R280, R407). -/
def colHeld (s : State) (core : Nat) (k : KCmd) : Bool :=
  ((crewOf ((s.home k.bank k.uid).getD Bank.reset) .col).isSome && !mayIssue s k.bank k.uid .col k.ctl)
  || (k.ctl.v == 0 && k.kind.isOp && !rangeOk (s.core core) k.bank k.uid k.seq (some none))

/-- The head of a core's queue (R286): the first command that no stop, crew or range holds, after its gap (R48). -/
def State.colHead (s : State) (core : Nat) : Option KCmd :=
  let c := s.core core
  let waiting := c.kq.filter fun k =>
    !k.issued && !c.heldCol k && !heldByCrew ((s.home k.bank k.uid).getD Bank.reset) .col k.seq
  ((firstOfBanks (·.bank) (fun a b => a.uid == b.uid && a.seq == b.seq) waiting).find? fun k => !colHeld s core k).filter fun k =>
    mayIssue s k.bank k.uid .col k.ctl

/-- Operations complete in queue order (R286). -/
def State.completeChannel (s : State) (k : KCmd) : State :=
  let done := finishedHead ((s.core k.core).channel k.bank k.ch)
  let s := done.foldl (fun s d => (s.dropKCmd d).tlDone d.bank (6 + d.ch) d.tl) s
  s.markCol k.core k.bank k.ch k.uid

/-- A kresume at the head of the queue: the operation it names goes on (R315). -/
def State.continueCol (s : State) (r : KCmd) : State :=
  s.modCore r.core fun c => { c with kq := c.kq.map fun v =>
    if v.uid = r.uid && v.ch = r.ch && v.tl = r.tag && v.kind != .kresume then { v.goOn r.phase r.done with stop := none } else v }

/-- An operation leaves the head of the queue, with its entry as it stands. -/
def tryColIssue (core : Nat) (s : State) : Option State := do
  let k ← s.colHead core
  if !k.kind.isOp then none
  let t := (stampIssue s k.bank k.uid .col k.ctl).setKCmd { k with issued := true, entry := (s.ctx k.ctx).entry k.ge }
  return if k.kind = .kresume then (t.continueCol k).completeChannel k else t

/-! ### Control forms: performance -/

/-- A form writes its result and leaves the queue. -/
def State.finishForm (s : State) (k : KCmd) (v : Word) : State :=
  (s.modHome k.bank k.uid fun b => { b.wx k.xd.toNat v with pendX := b.pendX.erase k.xd }).dropKCmd k

/-- An operation of a context on an entry is in flight (R294). -/
def opInFlight (s : State) (ctx g : Nat) : Bool :=
  s.cores.any fun c => c.2.kq.any fun k => k.kind.isOp && k.kind != .kresume && k.ctx == ctx && k.ge == g && !k.finished

/-- Holding and releasing an entry (R293, R294). -/
def State.hold (s : State) (k : KCmd) (v : Bool) : State :=
  let w := SMap.get 0 (s.ctx k.ctx).group (24 * k.ge + 16)
  (s.setEntryWord k.ctx k.ge 16 (setBit w 33 v)).modHome k.bank k.uid fun b => { b with hold := setBit b.hold k.ge v }

/-- The entry is free or held by the form's bank. -/
def entryFree (s : State) (k : KCmd) : Bool :=
  !((s.ctx k.ctx).entry k.ge).held || bitAt ((s.home k.bank k.uid).getD Bank.reset).hold k.ge

/-- The entry that grpset OP 0 writes: words 0 to 22 of the image, STAT cleared, N computed, HELD set, SEED (R294). -/
def newEntry (e : Entry) (seed : Word) : Entry :=
  let w := w64 (bits e.w16 63 45 * 2 ^ 45 + (ranksOf e.members).length * 2 ^ 34 + 2 ^ 33 + bits e.w16 32 0)
  e.take 16 ++ [w] ++ (e.drop 17).take 2 ++ [0] ++ (e.drop 20).take 3 ++ [seed]

/-- The field that qparm changes: its old value and the new words 16 and 19 (R296). -/
def qparmSet (e : Entry) (op : Nat) (v : Word) : Word × Word × Word :=
  let w := e.w16
  let field (hi lo : Nat) (x : Nat) : Word := w64 (w.toNat - bits w hi lo * 2 ^ lo + x * 2 ^ lo)
  let stat := e.getD 19 0
  match op with
  | 0 => (w64 e.k, field 20 10 v.toNat, stat)
  | 1 => (w64 e.lag, field 24 21 v.toNat, stat)
  | 2 => (w64 (e.wrule + 4 * e.wsh), field 30 25 (bits v 1 0 + 4 * bits v 5 2), stat)
  | 3 => (stat, w, 0)
  | 4 => (w64 e.mode, field 32 31 v.toNat, stat)
  | _ => (if e.thr then 1 else 0, field 45 45 v.toNat, stat)

/-- The group of an entry. -/
def State.groupIx (s : State) (part : Nat) (gid : Word) (members : BitVec 1024) : Option (Nat × Group) :=
  s.groups.find? fun e => e.2.part == part && e.2.gid == gid && e.2.members == members

/-- A contribution of the member for a tag is still to be sent, on its way, or pending at the arbiter (R309). -/
def contributes (s : State) (part : Nat) (e : Entry) (tag : Nat) : Bool :=
  (s.cores.any fun c => keyPart c.1 == part && c.2.kq.any fun k =>
    let x := if k.issued then k.entry else (s.ctx k.ctx).entry k.ge
    k.kind.isGroup && k.tag == tag && Entry.gid x == e.gid && Entry.members x == e.members && Entry.own x == e.own
    && k.phase == 0 && k.stop.isNone && !k.finished)
  || (s.flights.any fun c => c.part == part && c.gid == e.gid && c.members == e.members && c.rank == e.own && c.tag == tag)
  || (s.groupIx part e.gid e.members).any fun g => g.2.pending.any fun c => c.rank == e.own && c.tag == tag

/-- What rndwait returns for a tag, once it is known (R309). -/
def rndResult (s : State) (part : Nat) (e : Entry) (tag : Nat) : Option Word :=
  if (e.getD 18 0).toNat ≤ tag then none
  else
    let g := (s.groupIx part e.gid e.members).map (·.2)
    let r := g.bind fun g => SMap.find g.rounds tag
    let non := (r.map fun r => r.ontime.length).getD 0
    let nfold := (r.map fun r => r.folds.length).getD 0
    let out (own d : Nat) : Option Word := some (w64 (2 ^ 63 + own * 2 ^ 60 + d * 2 ^ 56 + non * 2 ^ 45 + nfold * 2 ^ 34))
    if r.any fun r => r.ontime.any fun c => c.rank == e.own then out 0 0
    else if r.any fun r => r.refused.contains e.own then out 3 0
    else match (g.map (·.fates)).getD [] |>.find? fun f => f.1 == e.own && f.2.1 == tag with
      | some (_, _, some d) => out 1 d
      | some (_, _, none) => out 2 0
      | none => if contributes s part e tag then none else out 4 0

/-- The other members' published values: the smallest STEP; a member's own step where no other publishes (R318). -/
def throttleTarget (s : State) (part : Nat) (e : Entry) (own : Nat) : Nat :=
  let steps := (s.ctxs.filter fun c => c.2.part.toNat == part).flatMap fun c => c.2.thr.filterMap fun t =>
    let o := c.2.entry t.1
    if o.gid = e.gid && o.members == e.members && o.own != e.own && o.thr then some t.2.step.toNat else none
  match steps with
  | [] => own
  | x :: xs => xs.foldl min x

/-- The throttle state word (R319). -/
def slackWord (s : State) (ctx g op : Nat) (v : Word) : Word :=
  let e := (s.ctx ctx).entry g
  let part := (s.ctx ctx).part.toNat
  if op = 0 then
    let t := SMap.get Slack.reset (s.ctx ctx).thr g
    w64 (t.slack.toNat * 2 ^ 32 + t.sigma * 2 ^ 16 + throttleTarget s part e t.sigma * 2 ^ 8 + (if e.thr then 1 else 0))
  else match s.memberEntry part e.gid e.members (bits v 9 0) with
    | some (c, h) =>
      let t := SMap.get Slack.reset (s.ctx c).thr h
      w64 (t.slack.toNat * 2 ^ 32 + t.step.toNat * 2 ^ 16 + (if ((s.ctx c).entry h).thr then 1 else 0))
    | none => 0

/-- The step σ of a core: the smallest of the groups whose ranks with THR = 1 it serves (R318). -/
def State.sigmaOf (s : State) (ck : Nat) : Nat :=
  s.ctxs.foldl (fun m c =>
    if c.2.part.toNat != keyPart ck then m
    else c.2.thr.foldl (fun m t =>
      let e := c.2.entry t.1
      if e.thr && e.members != 0 && ((s.rankEntry c.1 e.own).map rankCore) == some (keyL ck) then min m t.2.sigma else m) m) 16

/-- Every core takes the step of its groups as they stand. -/
def State.retune (s : State) : State :=
  s.cores.foldl (fun s e =>
    let x := s.sigmaOf e.1
    if x = (s.core e.1).sigma then s else s.setSigma e.1 x) s

/-- A control form at the head is performed, where its condition holds. -/
def performForm (s : State) (k : KCmd) : Option State :=
  let e := (s.ctx k.ctx).entry k.ge
  match k.kind with
  | .grpsetWrite =>
    if entryFree s k && !opInFlight s k.ctx k.ge then
      let e := newEntry k.desc k.seed
      let s := e.zipIdx.foldl (fun s x => s.setEntryWord k.ctx k.ge x.2 x.1) s
      some ((s.hold k true).retune.finishForm k (e.getD 17 0))
    else none
  | .grpsetClaim => if entryFree s k then some ((s.hold k true).finishForm k (e.getD 17 0)) else none
  | .grpsetRelease =>
    some ((if bitAt ((s.home k.bank k.uid).getD Bank.reset).hold k.ge then s.hold k false else s).finishForm k (e.getD 17 0))
  | .qparm =>
    let q := qparmSet e k.op k.xa
    some (((s.setEntryWord k.ctx k.ge 16 q.2.1).setEntryWord k.ctx k.ge 19 q.2.2).retune.finishForm k q.1)
  | .slackr => some (s.finishForm k (slackWord s k.ctx k.ge k.op k.xa))
  | .grpgetStore => some (s.setKCmd { k with issued := true, performed := true, desc := e })
  | .grpgetWord => some (s.setKCmd { k with issued := true, performed := true, desc := e })
  | .rndwait => some (s.setKCmd { k with issued := true, performed := true })
  | _ => none

/-- CONTROL_FORM_PERFORMED (R286): the form at the head, or else a rndwait whose condition holds. -/
def tryControlFormPerformed (core : Nat) (s : State) : Option State :=
  let head : Option State := do
    let k ← s.colHead core
    if k.kind.isOp then none
    performForm (stampIssue s k.bank k.uid .col k.ctl) k
  match head with
  | some t => some t
  | none =>
    (s.core core).kq.findSome? fun k =>
      if k.kind == .rndwait && k.performed then
        (rndResult s (keyPart core) ((s.ctx k.ctx).entry k.ge) k.xa.toNat).map fun v => s.finishForm k v
      else none

/-- CONTROL_FORM_PERFORMED (R286). -/
def execControlFormPerformed (core : Nat) (s : State) : Out := eventOn s core (tryControlFormPerformed core s)

/-! ### Slack throttling (R318) -/

/-- What a member publishes: the mean lead over the last 256 microseconds and its effective clock. -/
def publishSlack (s : State) (ctx g : Nat) (t : Slack) : Slack :=
  let e := (s.ctx ctx).entry g
  let recent := t.samples.filter fun x => decide (s.tick < x.1 + 250)
  let mean := if recent.isEmpty then 0 else (recent.foldl (fun n x => n + x.2) 0) / recent.length
  let slack := BitVec.ofNat 16 (min mean 65535)
  let l := ((s.rankEntry ctx e.own).map rankCore).getD 0
  let q := s.quad (s.quadOf (64 * (s.ctx ctx).part.toNat + l))
  let step := if q.droop || q.thermal then t.sigma / 2 else t.sigma
  { t with samples := recent, slack := slack, step := BitVec.ofNat 5 step }

/-- A member's new step (R318): it moves where a condition has held for 256 µs, at each of the last four publications. -/
def stepSigma (t : Slack) (tau : Nat) : Slack :=
  let r := ((t.slack, decide (tau + 3 ≤ t.sigma), decide (t.sigma + 3 ≤ tau)) :: t.recent).take 4
  let t := { t with recent := r }
  if r.length = 4 && r.all (fun x => x.2.1 && x.1 != 0) then { t with sigma := max 8 (t.sigma - 1) }
  else if r.length = 4 && (r.all (·.2.2) || r.all fun x => x.1 == 0) then { t with sigma := min 16 (t.sigma + 1) }
  else t

/-- A change of the throttle state of every member with THR = 1. -/
def State.mapThr (s : State) (f : Nat → Nat → Slack → Slack) : State :=
  { s with ctxs := s.ctxs.map fun c =>
      (c.1, { c.2 with thr := (List.range 256).foldl (fun m g =>
        if (c.2.entry g).thr then SMap.put m g (f c.1 g (SMap.get Slack.reset m g)) else m) c.2.thr }) }

/-- SLACK_PUBLICATION (R318): every 64 µs every member publishes, then sets its step. -/
def trySlackPublication (s : State) : Option State :=
  if !s.running || s.cycle < SMap.get 0 s.modl.last 1 + 64000 then none
  else
    let t := s.mapThr (publishSlack s)
    let t := t.mapThr fun c g x => stepSigma x (throttleTarget t (t.ctx c).part.toNat ((t.ctx c).entry g) x.sigma)
    some ({ t with modl := { t.modl with last := SMap.put t.modl.last 1 s.cycle } } : State).retune

/-- SLACK_PUBLICATION (R318). -/
def execSlackPublication (s : State) : Out := event s (trySlackPublication s)

end Sys2Proof.Machine
end

