-- ==== Sys2Proof/Machine/Rounds.lean ====
section
/-!
DEFINITION. Machine/Rounds.lean: collective operations behind the program: contributions and rounds (R300, R304 to R308),
the canonical tree (R301, R302), recording and replay (R310, R311), withdrawal (R317), work entries (R289 to R291) and
the reset of a port processor (R316).
-/

namespace Sys2Proof.Machine

/-! ### How an operation ends -/

/-- An operation is done. -/
def State.finishOp (s : State) (k : KCmd) : State := (s.setKCmd { k with finished := true }).completeChannel k

/-- An operation stops (R194) with a cause. -/
def State.stopOp (s : State) (k : KCmd) (cause : Nat) (v : Word) : State :=
  (s.setKCmd { k with stop := some (cause, v) }).markCol k.core k.bank k.ch k.uid

/-- How an access of an operation ends it: a stop, a fault to be answered, or a later try. -/
def stopCol (s : State) (k : KCmd) : Stop → Option State
  | .trap cause v => some (s.stopOp k cause v)
  | .page f =>
    let r := s.postFault (s.agentFor k.bank k.uid true) .coll 0 0 k.tl f
    some ((r.1.setKCmd { k with fault := some r.2 }).markCol k.core k.bank k.ch k.uid)
  | e => match s.askWake e with
    | some t => some (t.setKCmd k)
    | none => if (s.core k.core).kq.contains k then none else some (s.setKCmd k)

/-- Some port processor of a partition runs schedule firmware (R288, R320, R348); traffic that leaves the module also needs a port that
is not down (R399). -/
def portReady (s : State) (part : Nat) (remote : Bool) : Bool :=
  s.ports.any fun p => p.2.firmware && p.1 / (16 / s.parts) == part && (!remote || p.2.lanes != 0)

/-- The next operation of a channel that has not sent its contribution or written its entry: every earlier one has, and no stop of
the engine holds it (R194). -/
def nextOp (s : State) (core bk ch : Nat) : Option KCmd := do
  let ops := ((s.core core).channel bk ch).filter fun k => k.kind != .kresume && !k.finished
  let k ← ops.find? fun k => k.phase == 0 || k.performed
  if !k.issued || k.stop.isSome || k.fault.isSome || (s.core core).heldCol k then none
  return k

/-! ### Descriptors (R297 to R299) -/

/-- Result elements that the member's DST can receive, and their format's bytes (R298). -/
def resultBytes (k : KCmd) (d : List Word) : Nat :=
  let w := etWidth (bits (d.getD 2 0) 39 36) / 8
  let n := (ranksOf (Entry.members k.entry)).length
  match k.kind with
  | .allred => k.xb.toNat * w
  | .redsc =>
    let seg := (k.xb.toNat + n - 1) / n
    let j := ordinal (Entry.members k.entry) (Entry.own k.entry)
    (min ((j + 1) * seg) k.xb.toNat - j * seg) * w
  | .allgat => n * k.xb.toNat * w
  | _ => bits (d.getD 2 0) 31 0 * w

/-- Bytes of SRC that the member contributes: none from a bcast member that is not the root (R297, R298). -/
def sourceBytes (k : KCmd) (d : List Word) : Nat :=
  if k.kind = .bcast && k.xb.toNat != Entry.own k.entry then 0 else bits (d.getD 2 0) 31 0 * (etWidth k.et / 8)

/-- The start checks of R299. -/
def groupDescOk (s : State) (ag : Agent) (k : KCmd) (d : List Word) : Bool :=
  let w := d.getD 2 0
  let rm := bits w 46 44
  let outf := bits w 39 36
  let accf := bits w 35 32
  let count := bits w 31 0
  let src := (d.getD 0 0, sourceBytes k d)
  let dst := (d.getD 1 0, resultBytes k d)
  let red := k.kind == .allred || k.kind == .redsc
  bits w 63 47 == 0 && (d.drop 4).all (· == 0)
  && decide (rm ≤ 5) && (rm != 5 || decide (k.nrmRm < 5)) && decide (bits w 43 40 ≤ 11)
  && (if red then (if k.et ≤ 4 then decide (outf ≤ 4) && accf == 0 else (outf == 5 || outf == 6) && accf == 5)
      else outf == k.et && accf == 0 && bits w 43 40 == 0 && rm == 0)
  && (k.kind == .bcast || decide (count ≤ k.xb.toNat))
  && decide (dst.2 ≤ 2 ^ 24)
  && ((k.kind == .allred && src.1 == dst.1) || !rangesOverlap s ag src dst)
  && !((Entry.wrule k.entry) == 1 && (Entry.wsh k.entry) != 0 && decide (5 ≤ k.et))
  && (rangeBad s ag src).isNone && (rangeBad s ag dst).isNone

/-- The elements of a byte string. -/
def elemsOf (w : Nat) (bs : List Byte) : List Nat := (List.range (bs.length / w)).map fun i => leVal ((bs.drop (w * i)).take w)

/-! ### Contributions (R300, R304) -/

/-- A smaller tag of the same entry has still to be sent (R304). -/
def earlierUnsent (s : State) (k : KCmd) : Bool :=
  s.cores.any fun c => c.2.kq.any fun o =>
    o.kind.isGroup && o.ctx == k.ctx && o.ge == k.ge && o.phase == 0 && !o.finished && decide (o.tag < k.tag)

/-- The contribution of an operation whose descriptor is `d`. -/
def KCmd.contribution (k : KCmd) (d : List Word) (elems : List Nat) (now : Nat) : Contribution :=
  let w := d.getD 2 0
  { part := keyPart k.core, gid := (Entry.gid k.entry), members := (Entry.members k.entry), rank := (Entry.own k.entry), tag := k.tag, ctx := k.ctx, ge := k.ge,
    core := k.core, kind := k.kind, op := k.op, et := k.et, nmax := k.xb.toNat, outf := bits w 39 36, accf := bits w 35 32,
    wlvl := bits w 43 40, rm := if bits w 46 44 = 5 then k.nrmRm else bits w 46 44, par := (Entry.w16 k.entry),
    digest :=
      if k.kind = .bcast && k.xb.toNat = Entry.own k.entry then
        groupDigest (Entry.members k.entry) (Entry.w16 k.entry) (Entry.gid k.entry) (some (bits w 31 0))
      else groupDigest (Entry.members k.entry) (Entry.w16 k.entry) (Entry.gid k.entry) none
    count := bits w 31 0, tensor := d.getD 3 0, elems := elems, at0 := now }

/-- CONTRIBUTION_SEND (R304): the next operation of a channel reads its descriptor and its contribution and sends it,
unless its tag is four or more above ROUND or an earlier tag is unsent. -/
def tryContributionSend (core bank ch : Nat) (s : State) : Option State := do
  let k ← nextOp s core (bankKey core bank) ch
  if !k.kind.isGroup || !portReady s (keyPart core) (s.remoteGroup k.ctx (Entry.members k.entry)) || earlierUnsent s k then none
  if (s.groupIx (keyPart core) (Entry.gid k.entry) (Entry.members k.entry)).any fun g => g.2.dead.any fun d => decide (d ≤ k.tag) then
    return s.stopOp k 39 0
  if (((s.ctx k.ctx).entry k.ge).getD 18 0).toNat + 4 ≤ k.tag then none
  let ag := s.agentFor k.bank k.uid true
  let r := readDesc s ag k.xa 8
  match r.2.2 with
  | some e => stopCol r.2.1 k e
  | none =>
    if !groupDescOk r.2.1 ag k r.1 then return r.2.1.stopOp k 36 0
    let n := sourceBytes k r.1
    let t := r.2.1.copyWriteback ag (r.1.getD 0 0, n) (r.1.getD 1 0, resultBytes k r.1)
    let e := readPieces t ag (pieces n (r.1.getD 0 0) n)
    match e.2.2 with
    | some x => stopCol e.2.1 k x
    | none =>
      let c := k.contribution r.1 (elemsOf (etWidth k.et / 8) e.1) s.tick
      let t := { e.2.1 with flights := e.2.1.flights ++ [c] }
      return (t.setKCmd { k with phase := 1, desc := r.1 }).markCol core k.bank ch k.uid

/-- CONTRIBUTION_SEND (R304). -/
def execContributionSend (core bank ch : Nat) (s : State) : Out := eventOn s core (tryContributionSend core bank ch s)

/-! ### The arbiter (R305 to R307) -/

/-- The operation of a member for a tag, once it has left the head of the queue. -/
def State.memberOp (s : State) (part : Nat) (gid : Word) (members : BitVec 1024) (rank tag : Nat) : Option KCmd :=
  ((s.cores.filter fun c => keyPart c.1 == part).flatMap fun c => c.2.kq.filter fun k =>
    k.kind.isGroup && k.issued && k.tag == tag && (Entry.gid k.entry) == gid && (Entry.members k.entry) == members
    && (Entry.own k.entry) == rank && !k.finished).head?

/-- The same, once it has sent its contribution. -/
def State.memberSent (s : State) (part : Nat) (gid : Word) (members : BitVec 1024) (rank tag : Nat) : Option KCmd :=
  (s.memberOp part gid members rank tag).filter fun k => k.phase != 0

/-- The same, as soon as the control core has issued it: one that waits in the queue is known by its entry's number. -/
def State.memberIssued (s : State) (part : Nat) (gid : Word) (members : BitVec 1024) (rank tag : Nat) : Bool :=
  (s.memberOp part gid members rank tag).isSome
  || s.cores.any fun c => keyPart c.1 == part && c.2.kq.any fun k =>
    let e := (s.ctx k.ctx).entry k.ge
    k.kind.isGroup && !k.issued && k.tag == tag && e.gid == gid && e.members == members && e.own == rank

/-- Replacing a group. -/
def State.setGroup (s : State) (i : Nat) (g : Group) : State := { s with groups := SMap.put s.groups i g }

def Round.fresh : Round := ⟨.waiting, none, [], [], none, [], [], [], [], [], 0⟩

def Group.round (g : Group) (t : Nat) : Round := SMap.get Round.fresh g.rounds t
def Group.setRound (g : Group) (t : Nat) (r : Round) : Group := { g with rounds := SMap.put g.rounds t r }

/-- The arbiter: the member of lowest rank (R292). -/
def Group.arbiter (g : Group) : Nat := (ranksOf g.members).headD 0

/-- Parameters carried in word 16. -/
def parK (c : Contribution) (members : BitVec 1024) : Nat :=
  if c.kind = .allgat || c.kind = .bcast then (ranksOf members).length else bits c.par 20 10
def parLag (c : Contribution) : Nat := bits c.par 24 21
def parWrule (c : Contribution) : Nat := bits c.par 26 25
def parWsh (c : Contribution) : Nat := bits c.par 30 27
def parMode (c : Contribution) : Nat := bits c.par 32 31

/-- The digest of a contribution, over a root's COUNT too where one is given (R300). -/
def Contribution.digestWith (c : Contribution) (count : Option Nat) : BitVec 32 := groupDigest c.members c.par c.gid count

/-- The COUNT of the root, where one of two contributions to a broadcast is the root's. -/
def rootCount (a b : Contribution) : Option Nat :=
  if a.kind != .bcast then none
  else if a.rank = a.nmax then some a.count else if b.rank = b.nmax then some b.count else none

/-- The carried values of R300 agree. Where one of the two is a broadcast's root, the digest covers its COUNT, which only the root
knows: the other's is formed with it. -/
def carriedEq (a b : Contribution) : Bool :=
  a.kind == b.kind && a.op == b.op && a.et == b.et && a.nmax == b.nmax && a.outf == b.outf && a.accf == b.accf
  && a.wlvl == b.wlvl && a.rm == b.rm && a.digestWith (rootCount a b) == b.digestWith (rootCount a b)

/-- Every member's operation for a tag stops. -/
def stopRound (s : State) (g : Group) (tag cause : Nat) : State :=
  (ranksOf g.members).foldl (fun s m =>
    match s.memberOp g.part g.gid g.members m tag with
    | some k => s.stopOp k cause 0
    | none => s) s

/-- Close notices to every member (R305); one reaches a member that has an entry in this module. -/
def sendNotices (s : State) (g : Group) (tag : Nat) : State :=
  { s with notices := s.notices ++ (ranksOf g.members).map fun m => ⟨g.part, g.gid, g.members, m, tag⟩ }

/-- A member's STAT field rises. -/
def State.memberStat (s : State) (g : Group) (rank lo : Nat) : State :=
  match s.memberEntry g.part g.gid g.members rank with
  | some (c, e) => s.raiseStat c e lo
  | none => s

/-- The oldest pending contribution of a member that a round can fold (R306). -/
def foldOf (g : Group) (first : Contribution) (t rank : Nat) : Option Contribution :=
  (g.pending.filter fun c => c.rank == rank && decide (c.tag < t) && decide (t ≤ c.tag + parLag first)).foldl
    (fun best c => match best with
      | none => some c
      | some b => if c.tag < b.tag then some c else some b) none

/-- The arbiter's agent: its context, no task. -/
def arbiterAgent (s : State) (ctx rank : Nat) : Agent :=
  let l := ((s.rankEntry ctx rank).map rankCore).getD 0
  let ck := 64 * (s.ctx ctx).part.toNat + l
  ⟨bankKey ck 0, ck, 2 ^ 64, ctx, 0, 0, true⟩

/-- The address of a round's record (R310). -/
def recordAddr (e : Entry) (tag : Nat) : Word := e.getD 20 0 + w64 (320 * (tag % max 1 (bits (e.getD 21 0) 31 0)))

/-- A bitmap of ranks, as 128 bytes. -/
def rankMap (rs : List Nat) : List Byte := leBytes 128 (rs.eraseDups.foldl (fun n r => n + 2 ^ r) 0)

/-- The 320 bytes of a record (R310). -/
def recordBytes (tag : Nat) (on folds : List Nat) : List Byte :=
  leBytes 8 tag ++ leBytes 8 (on.length + folds.length * 2 ^ 16) ++ leBytes 16 0 ++ rankMap on ++ rankMap folds ++ leBytes 32 0

/-- How an access to the round log ends (R310): done, parked, a later try (R191, R344), or a failure that ends the round. -/
inductive LogEnd
  | ok (s : State) (bs : List Byte)
  | parked (s : State) (tag : Nat)
  | wait
  | failed
deriving Repr

/-- An access to the round log: its pieces are written, or read where `bs` is empty. -/
def accessLog (s : State) (gi ctx rank : Nat) (a : Word) (bs : List Byte) : LogEnd :=
  let ag := arbiterAgent s ctx rank
  if bits a 63 57 != 0 then .failed
  else
    let r : List Byte × State × Option Stop :=
      if bs.isEmpty then readPieces s ag (pieces 320 a 320)
      else
        let w := writePieces s ag (ag.bk, 16, 0) (pieces 320 a 320) bs
        ([], w.2)
    match r.2.2 with
    | none =>
      let t := if bs.isEmpty then r.2.1 else
        r.2.1.publishAll ag.key ((r.2.1.dir.filter fun e => e.2.tag == .task ag.uid).map (·.1))
      .ok t r.1
    | some (.page f) =>
      let p := s.postFault ag .coll (gi + 1) 0 0 f
      .parked p.1 p.2
    | some .stall => .wait
    | some (.wait _) => .wait
    | some _ => .failed

/-- Ending a round without a result (R310, R311): its operations stop, and later rounds proceed. -/
def endRound (s : State) (gi : Nat) (g : Group) (t cause : Nat) : State × Group :=
  let g' := { g.setRound t { g.round t with st := .ended, cause := cause } with openTag := t + 1 }
  (sendNotices (stopRound (s.setGroup gi g') g t cause) g t, g')

/-- Late contributions whose window has passed are discarded (R306). -/
def discardOld (s : State) (g : Group) (t lag : Nat) : State × Group :=
  let gone := g.pending.filter fun c => decide (c.tag + lag ≤ t)
  (gone.foldl (fun s c => s.memberStat g c.rank 16) s,
   { g with
     pending := g.pending.filter fun c => !decide (c.tag + lag ≤ t)
     fates := g.fates ++ gone.map fun c => (c.rank, c.tag, none) })

/-- Samples for SLACK: the ticks by which on-time contributions preceded the close (R318). -/
def sampleSlack (s : State) (cs : List Contribution) : State :=
  cs.foldl (fun s c =>
    if ((s.ctx c.ctx).entry c.ge).thr then
      s.modCtx c.ctx fun x =>
        let t := SMap.get Slack.reset x.thr c.ge
        { x with thr := SMap.put x.thr c.ge { t with samples := t.samples ++ [(s.tick, s.tick - c.at0)] } }
    else s) s

/-- A round has Ended when round tag + LAG + 1 closes (R305). Its result goes to no member that comes later (R308); the one copy kept
is for those whose contribution it had, should a resumption send it again (R363). -/
def Group.expire (g : Group) (t lag : Nat) : Group :=
  { g with rounds := g.rounds.map fun r =>
      if r.2.st = .retained && decide (r.1 + lag + 1 ≤ t) then (r.1, { r.2 with st := .ended }) else r }

/-- A late contribution (R306): pending, or discarded on arrival. -/
def takeLate (s : State) (g : Group) (first c : Contribution) : State × Group :=
  if parWrule first = 2 || parLag first = 0 || decide (c.tag + parLag first < g.openTag) then
    (s.memberStat g c.rank 16, { g with fates := g.fates ++ [(c.rank, c.tag, none)] })
  else (s, { g with pending := g.pending ++ [c] })

/-- Closing round `t` with its on-time set and folds (R305, R306, R310). -/
def closeRound (s : State) (gi : Nat) (g : Group) (t : Nat) (first : Contribution) (on late : List Contribution)
    (folds : List Contribution) : Option (State × Group) :=
  let e := match s.memberEntry g.part g.gid g.members g.arbiter with
    | some (c, h) => (c, (s.ctx c).entry h)
    | none => (64, [])
  let log : LogEnd :=
    if parMode first = 1 then
      accessLog s gi e.1 g.arbiter (recordAddr e.2 t) (recordBytes t (on.map (·.rank)) (folds.map (·.rank)))
    else .ok s []
  match log with
  | .failed => some (endRound s gi g t 36)
  | .wait => none
  | .parked s' tag => some (s', { g with fault := some tag })
  | .ok s _ =>
    let s := folds.foldl (fun s c => s.memberStat g c.rank 0) s
    let r := { g.round t with st := .closed, ontime := on, folds := folds.map fun c => (c, t - c.tag) }
    let g := { g.setRound t r with
      openTag := t + 1
      pending := g.pending.filter fun c => !folds.any fun f => f.rank == c.rank && f.tag == c.tag
      fates := g.fates ++ folds.map fun c => (c.rank, c.tag, some (t - c.tag)) }
    let d := discardOld s g t (parLag first)
    let s := sampleSlack (sendNotices d.1 d.2 t) on
    let g := d.2.expire t (parLag first)
    some (late.foldl (fun x c => takeLate x.1 x.2 first c) (s, g))

/-- The round can still reach its quorum from the members not withdrawn; what a withdrawn member has sent counts (R317). -/
def reachable317 (s : State) (g : Group) (k : Nat) (r : Round) : Bool :=
  let on := r.ontime.map (·.rank)
    ++ (s.flights.filter fun c => c.part == g.part && c.gid == g.gid && c.members == g.members && c.tag == g.openTag).map (·.rank)
  match r.record with
  | some (o, _) => (ranksOf o).all fun m => on.contains m || !g.gone.contains m
  | none => decide (k ≤ ((ranksOf g.members).filter fun m => on.contains m || !g.gone.contains m).length)

/-- From a tag on, no round of the group has a result (R317). -/
def killGroup (s : State) (gi : Nat) (g : Group) (t : Nat) : State × Group :=
  let tags := ((s.cores.filter fun c => keyPart c.1 == g.part).flatMap fun c => c.2.kq.filterMap fun k =>
    if k.kind.isGroup && decide (t ≤ k.tag) && (Entry.gid k.entry) == g.gid && (Entry.members k.entry) == g.members then some k.tag else none).eraseDups
  let g' := { g with dead := some t }
  (tags.foldl (fun s tag => stopRound s g tag 39) (s.setGroup gi g'), g')

/-- Reading the record of a round that opens in replay (R311). -/
def openReplay (s : State) (gi : Nat) (g : Group) (t : Nat) (first : Contribution) : Option (State × Group) :=
  match s.memberEntry g.part g.gid g.members g.arbiter with
  | none => none
  | some (c, h) =>
    match accessLog s gi c g.arbiter (recordAddr ((s.ctx c).entry h) t) [] with
    | .failed => some (endRound s gi g t 36)
    | .wait => none
    | .parked s' tag => some (s', { g with fault := some tag })
    | .ok s bs =>
      if leVal (bs.take 8) != t then some (endRound s gi g t 37)
      else
        let o : BitVec 1024 := BitVec.ofNat 1024 (leVal ((bs.drop 32).take 128))
        let f : BitVec 1024 := BitVec.ofNat 1024 (leVal ((bs.drop 160).take 128))
        let r := g.round t
        let on := r.ontime.filter fun c => bitAt o c.rank
        let out := r.ontime.filter fun c => !bitAt o c.rank
        let g := g.setRound t { r with st := .opened, ontime := on, record := some (o, f) }
        some (out.foldl (fun x c => takeLate x.1 x.2 first c) (s, g))

/-- What the open round of a group does next (R305, R311): it opens a replay record, closes, ends, or waits. -/
def stepGroup (s : State) (gi : Nat) (g : Group) : Option (State × Group) :=
  let t := g.openTag
  let r := g.round t
  match r.first with
  | none => if !g.gone.isEmpty && g.gone.length == (ranksOf g.members).length then some (killGroup s gi g t) else none
  | some first =>
    if g.fault.isSome || g.dead.isSome then none
    else if !reachable317 s g (parK first g.members) r then some (killGroup s gi g t)
    else if parMode first = 2 && r.record.isNone then openReplay s gi g t first
    else match r.record with
      | some (o, f) =>
        let folds := (ranksOf f).map (foldOf g first t)
        if (ranksOf o).all (fun m => r.ontime.any fun c => c.rank == m) && folds.all Option.isSome then
          closeRound s gi g t first r.ontime [] (folds.filterMap id)
        else none
      | none =>
        let k := parK first g.members
        if r.ontime.length < k then none
        else
          let folds := if first.kind = .allred || first.kind = .redsc then (ranksOf g.members).filterMap (foldOf g first t) else []
          closeRound s gi g t first (r.ontime.take k) (r.ontime.drop k) folds

/-- Delivered to every member whose operation has been issued, the result is Retained (R305), or Ended where its time has
passed. -/
def Group.retain (s : State) (g : Group) (tag : Nat) (first : Contribution) : Group :=
  let r := g.round tag
  if r.st = .reduced && (ranksOf g.members).all fun m =>
      r.delivered.contains m || r.refused.contains m || !s.memberIssued g.part g.gid g.members m tag then
    if tag + parLag first + 1 < g.openTag then g.setRound tag { r with st := .ended }
    else g.setRound tag { r with st := .retained }
  else g

/-- Every round of a group that has a result for no further member. -/
def Group.retainAll (s : State) (g : Group) : Group :=
  g.rounds.foldl (fun g e => match e.2.first with
    | some first => g.retain s e.1 first
    | none => g) g

/-- The arbiter goes on until its open round waits. -/
def settleGroup (gi : Nat) : Nat → State → Group → State
  | 0, s, g => s.setGroup gi (g.retainAll s)
  | n + 1, s, g =>
    match stepGroup s gi g with
    | none => s.setGroup gi (g.retainAll s)
    | some (s, g) => settleGroup gi n s g

/-- Every group goes on (after a fault of its log is answered, or a withdrawal). -/
def State.settleGroups (s : State) : State :=
  s.groups.foldl (fun s e => match SMap.find s.groups e.1 with
    | some g => settleGroup e.1 (g.rounds.length + 2) s g
    | none => s) s

/-- The group of a contribution, made with its first arrival: its oldest unclosed round is the arbiter's ROUND. -/
def State.findGroup (s : State) (c : Contribution) : Option (Nat × Group) :=
  match s.groupIx c.part c.gid c.members with
  | some e => some e
  | none =>
    match s.memberEntry c.part c.gid c.members ((ranksOf c.members).headD 0) with
    | none => none
    | some (x, h) =>
      some (s.groups.foldl (fun n e => max n (e.1 + 1)) 0,
        { part := c.part, gid := c.gid, members := c.members, openTag := (((s.ctx x).entry h).getD 18 0).toNat, rounds := [], pending := [],
          fates := [], gone := (s.withdrawn.filter fun w => w.1 == c.part && w.2.1 == c.gid && w.2.2.1 == c.members).map (·.2.2.2), dead := none,
          fault := none })

/-- Refusing a contribution (R300). -/
def refuse (s : State) (g : Group) (c : Contribution) : State × Group :=
  let s := (match s.memberOp g.part g.gid g.members c.rank c.tag with
    | some k => s.stopOp k 37 0
    | none => s).memberStat g c.rank 48
  let r := g.round c.tag
  (s, g.setRound c.tag { r with refused := r.refused ++ [c.rank], ontime := r.ontime.filter fun x => x.rank != c.rank })

/-- A duplicate of a contribution the arbiter has (R316). -/
def knownContribution (g : Group) (c : Contribution) : Bool :=
  let r := g.round c.tag
  (r.ontime.any fun x => x.rank == c.rank) || r.refused.contains c.rank
  || (g.pending.any fun x => x.rank == c.rank && x.tag == c.tag) || (g.fates.any fun f => f.1 == c.rank && f.2.1 == c.tag)

/-- The members of a broadcast whose capacity lies below the root's (R300). -/
def tooSmall (r : Round) (c : Contribution) : List Contribution :=
  if c.kind = .bcast then
    if c.rank = c.nmax then r.ontime.filter fun x => decide (x.count < c.count)
    else if r.ontime.any fun x => x.rank == x.nmax && decide (c.count < x.count) then [c] else []
  else []

/-- A contribution reaches the arbiter (R300, R305, R306, R308). -/
def arrive (s : State) (gi : Nat) (g : Group) (c : Contribution) : State :=
  let r := g.round c.tag
  if knownContribution g c then s.setGroup gi g
  else if g.dead.any fun d => decide (d ≤ c.tag) then
    (match s.memberOp g.part g.gid g.members c.rank c.tag with
      | some k => s.stopOp k 39 0
      | none => s).setGroup gi g
  else
    let known := c.tag < g.openTag
    if known && (r.st == .ended || r.first.isNone) then
      let s := match s.memberOp g.part g.gid g.members c.rank c.tag with
        | some k => s.stopOp k (if r.cause = 0 then 38 else r.cause) 0
        | none => s
      (s.memberStat g c.rank 16).setGroup gi
        { g.setRound c.tag { r with missed := r.missed ++ [c.rank] } with fates := g.fates ++ [(c.rank, c.tag, none)] }
    else
      let first := r.first.getD c
      let g := g.setRound c.tag { r with first := some first, st := if r.st = .waiting && c.tag = g.openTag then .opened else r.st }
      if !carriedEq first c then
        let x := refuse s g c
        settleGroup gi (g.rounds.length + 2) x.1 x.2
      else if known then
        let x := takeLate s g first c
        settleGroup gi (g.rounds.length + 2) x.1 x.2
      else if (r.record.any fun x => !bitAt x.1 c.rank) then
        let x := takeLate s g first c
        settleGroup gi (g.rounds.length + 2) x.1 x.2
      else
        let g := g.setRound c.tag { g.round c.tag with ontime := r.ontime ++ [c] }
        let x := (tooSmall (g.round c.tag) c).foldl (fun x d => refuse x.1 x.2 d) (s, g)
        settleGroup gi (g.rounds.length + 2) x.1 x.2

/-- CONTRIBUTION_ARRIVAL (R305): the n-th contribution on its way, unless an earlier tag of its rank is (R304). -/
def tryContributionArrival (n : Nat) (s : State) : Option State := do
  let c ← s.flights[n]?
  if (s.flights.take n).any fun d => d.part == c.part && d.gid == c.gid && d.members == c.members && d.rank == c.rank then none
  let (gi, g) ← s.findGroup c
  return arrive { s with flights := s.flights.eraseIdx n } gi g c

/-- CONTRIBUTION_ARRIVAL (R305). -/
def execContributionArrival (n : Nat) (s : State) : Out := event s (tryContributionArrival n s)

/-- CLOSE_NOTICE (R305): the member's ROUND advances; its operation has its notice (R314). -/
def tryCloseNotice (n : Nat) (s : State) : Option State := do
  let m ← s.notices[n]?
  let x ← s.memberEntry m.part m.gid m.members m.rank
  let e := (s.ctx x.1).entry x.2
  let s := { s with notices := s.notices.eraseIdx n }
  let s := if (e.getD 18 0).toNat ≤ m.tag then s.setEntryWord x.1 x.2 18 (w64 (m.tag + 1)) else s
  match s.memberSent m.part e.gid e.members e.own m.tag with
  | some k => return (s.setKCmd { k with phase := max k.phase 2 }).markCol k.core k.bank k.ch k.uid
  | none => return s

/-- CLOSE_NOTICE (R305). -/
def execCloseNotice (n : Nat) (s : State) : Out := event s (tryCloseNotice n s)

/-! ### The canonical tree (R301, R302) -/

/-- The weight of a folded contribution (R307). -/
def weightOf (first : Contribution) (d : Nat) : Nat × Nat := if parWrule first = 1 then (1, 2 ^ (parWsh first * d)) else (1, 1)

/-- A floating value brought into a format by rne, with the flags of its rounding (R86). -/
def intoFmtFl (f : Fmt) (v : Num × Fl) : Num × Fl :=
  let r := roundTo f v.1 0 false 0
  (decodeNum f r.1, v.2 ||| r.2)

/-- The value a member's element enters the list with: its value and whether it is in ACCF (R301, R302), and flags. -/
def floatEntry (first : Contribution) (on : Option Contribution) (fold : Option (Contribution × Nat)) (i : Nat) :
    Option (Num × Bool) × Fl :=
  let ab (v : Num) : Num := if first.op = 4 then v.abs else v
  let e : Option (Num × Bool) := match on with
    | some c => (c.elems[i]?).map fun x => (ab (elemNum c.et x), decide (first.wlvl ≤ 1))
    | none => none
  match fold with
  | some (c, d) =>
    match c.elems[i]? with
    | none => (e, 0)
    | some x =>
      let w := weightOf first d
      let y := intoFmtFl .fp32 (Num.mul (.fin false w.1 w.2) (ab (elemNum c.et x)))
      match e with
      | none => (some (y.1, true), y.2)
      | some (v, _) =>
        let z := intoFmtFl .fp32 (Num.add false v y.1)
        (some (z.1, true), y.2 ||| z.2)
  | none => (e, 0)

/-- A node at a level (R302). -/
def floatNode (first : Contribution) (level : Nat) (a b : Num × Bool) : (Num × Bool) × Fl :=
  let acc := decide (first.wlvl ≤ level) || a.2 || b.2
  let f := if acc then Fmt.fp32 else (fmtOf first.et).getD .fp32
  let v : Num × Fl := match first.op with
    | 2 => (Num.max a.1 b.1, 0)
    | 3 => (Num.min a.1 b.1, 0)
    | 4 => (Num.max a.1 b.1, 0)
    | _ => intoFmtFl f (Num.add false a.1 b.1)
  ((v.1, acc), v.2)

/-- The present inputs of an element (R103). -/
def presentOf (on : List Contribution) (folds : List (Contribution × Nat)) (i : Nat) : List (Option Num) :=
  (on ++ folds.map (·.1)).map fun c => (c.elems[i]?).map (elemNum c.et)

/-- WT of a round (R307), as a fraction over 2^300. -/
def weightSum (first : Contribution) (on : List Contribution) (folds : List (Contribution × Nat)) : Nat × Nat :=
  (on.length * 2 ^ 300 + folds.foldl (fun n f => n + 2 ^ 300 / (weightOf first f.2).2) 0, 2 ^ 300)

/-- The TAG that keys the random bits of a round's requantisation (R302). Where the members' descriptors hold different ones, R300 lets
them: the model takes that of the on-time member of lowest rank, which no arrival order changes (DESIGN CHOICE: log 35). -/
def Round.tensor (r : Round) (members : List Nat) : Word :=
  ((members.findSome? fun m => r.ontime.find? fun c => c.rank == m).map (·.tensor)).getD 0

/-- One element of a floating reduction: its bits in OUTF, or absent, and the flags it raises (R86). -/
def floatResult (members : List Nat) (first : Contribution) (r : Round) (seed : Word) (tag i : Nat) : Option (Nat × Fl) :=
  let es := members.map fun m =>
    floatEntry first (r.ontime.find? fun c => c.rank == m) (r.folds.find? fun f => f.1.rank == m) i
  let t := pairTree (floatNode first) es.length 1 (es.map (·.1))
  let fl := es.foldl (fun x e => x ||| e.2) t.2
  let f := (fmtOf first.outf).getD .fp32
  let u := if first.rm = 4 then (srgen (seed ^^^ r.tensor members) (w64 i) (BitVec.ofNat 32 tag)).toNat else 0
  t.1.map fun v =>
    if nanRule (presentOf r.ontime r.folds i) then (f.cnan, fl)
    else
      let w := weightSum first r.ontime r.folds
      let x := if first.op = 1 then (Num.div v.1 (.fin false w.1 w.2)).1 else v.1
      let z := roundTo f x first.rm false u
      (z.1, fl ||| z.2)

/-- One element of an integer reduction (R301, R302): a fold clamps to INT32, nodes wrap. -/
def intResult (members : List Nat) (first : Contribution) (r : Round) (seed : Word) (tag i : Nat) : Option (Nat × Fl) :=
  let ab (v : Int) : Int := if first.op = 4 then (v.natAbs : Int) else v
  let wrap (v : Int) : Int := toSigned 32 (wrapN 32 v)
  let val (c : Contribution) : Option Int := (c.elems[i]?).map fun x => ab (toSigned (etWidth c.et) x)
  let es := members.map fun m =>
    let e := (r.ontime.find? fun c => c.rank == m).bind val
    match (r.folds.find? fun f => f.1.rank == m).bind fun f => val f.1 with
    | none => (e, (0 : Fl))
    | some y => match e with
      | none => (some y, 0)
      | some v =>
        let z := roundToInt 32 (.ofInt (v + y)) 0 false 0
        (some (toSigned 32 z.1), z.2)
  let node (_ : Nat) (a b : Int) : Int × Fl :=
    (match first.op with
      | 2 => if a < b then b else a
      | 3 => if b < a then b else a
      | 4 => if a < b then b else a
      | _ => wrap (a + b), 0)
  let u := if first.rm = 4 then (srgen (seed ^^^ r.tensor members) (w64 i) (BitVec.ofNat 32 tag)).toNat else 0
  (pairTree node es.length 1 (es.map (·.1))).1.map fun v =>
    let z := roundToInt (etWidth first.outf) (.ofInt v) first.rm true u
    (z.1, es.foldl (fun x e => x ||| e.2) z.2)

/-- The result elements of a round, by their position (R298), with the flags they raise. -/
def roundResult (s : State) (g : Group) (tag : Nat) (r : Round) (first : Contribution) : SMap (Nat × Fl) :=
  let ms := ranksOf g.members
  let seed := match s.memberEntry g.part g.gid g.members g.arbiter with
    | some (c, h) => ((s.ctx c).entry h).getD 23 0
    | none => 0
  match first.kind with
  | .allgat =>
    ms.zipIdx.flatMap fun m => match r.ontime.find? fun c => c.rank == m.1 with
      | some c => c.elems.zipIdx.map fun x => (m.2 * first.nmax + x.2, x.1, 0)
      | none => []
  | .bcast =>
    match r.ontime.find? fun c => c.rank == c.nmax with
    | some c => c.elems.zipIdx.map fun x => (x.2, x.1, 0)
    | none => []
  | _ =>
    (List.range first.nmax).filterMap fun i =>
      ((if first.et ≤ 4 then floatResult ms first r seed tag i else intResult ms first r seed tag i).map fun v => (i, v))

/-- ROUND_REDUCTION (R301): a closed round is reduced; the round that is open, and whose record could not be written or read
before, closes (R310). -/
def tryRoundReduction (gi tag : Nat) (s : State) : Option State := do
  let g ← SMap.find s.groups gi
  let r ← SMap.find g.rounds tag
  let first ← r.first
  if !portReady s g.part (s.remoteGroup first.ctx g.members) then none
  if tag = g.openTag then
    let x ← stepGroup s gi g
    return settleGroup gi (g.rounds.length + 2) x.1 x.2
  if r.st != .closed then none
  let res := roundResult s g tag r first
  let g := g.setRound tag
    { r with st := .reduced, result := res.map fun x => (x.1, x.2.1), flags := (res.filter fun x => x.2.2 != 0).map fun x => (x.1, x.2.2) }
  return s.setGroup gi (g.retain s tag first)

/-- ROUND_REDUCTION (R301). -/
def execRoundReduction (group tag : Nat) (s : State) : Out := event s (tryRoundReduction group tag s)

/-! ### Delivery (R298, R308) -/

/-- The positions of a member's DST and the elements they receive. -/
def deliveryOf (first : Contribution) (n ord : Nat) (res : SMap Nat) : List (Nat × Nat) :=
  if first.kind = .redsc then
    let seg := (first.nmax + n - 1) / n
    (res.filter fun e => decide (ord * seg ≤ e.1) && decide (e.1 < (ord + 1) * seg)).map fun e => (e.1 - ord * seg, e.2)
  else res

/-- The elements of DST that an operation has still to write: those from its written point on (R314, R315). -/
def toDeliver (k : KCmd) (first : Contribution) (g : Group) (r : Round) (rank : Nat) : List (Nat × Nat) :=
  (deliveryOf first (ranksOf g.members).length (ordinal g.members rank) r.result).filter fun e =>
    decide (k.done ≤ e.1 * (etWidth first.outf / 8))

/-- Writing result elements, in ascending order: where it ends, the offset of the first element not written. -/
def writeElems (s : State) (ag : Agent) (eng : Nat × Nat × Nat) (dst : Word) (w : Nat) :
    List (Nat × Nat) → State × Option (Nat × Stop)
  | [] => (s, none)
  | (i, v) :: es =>
    let r := writePieces s ag eng (pieces w (dst + w64 (i * w)) w) (leBytes w v)
    match r.2.2 with
    | some e => (r.2.1, some (i * w, e))
    | none => writeElems r.2.1 ag eng dst w es

/-- The cause with which an operation of a round without a result for it stops, again where a kresume has cleared the stop or a
resumption has sent its contribution again (R300, R308, R317, R363). -/
def noResult (g : Group) (r : Round) (tag rank : Nat) : Option Nat :=
  if r.refused.contains rank then some 37
  else if g.dead.any fun d => decide (d ≤ tag) then some 39
  else if r.st = .ended && r.cause != 0 then some r.cause
  else if r.missed.contains rank then some 38
  else none

/-- A round's result is there for a member: reduced or retained; Ended, where the arbiter had the member's contribution (R308, R363). -/
def resultFor (g : Group) (r : Round) (tag rank : Nat) : Bool :=
  match r.st with
  | .reduced => true
  | .retained => true
  | .ended => (r.ontime.any fun c => c.rank == rank) || (g.pending.any fun c => c.rank == rank && c.tag == tag)
      || g.fates.any fun f => f.1 == rank && f.2.1 == tag
  | _ => false

/-- The flags of the elements that a member receives (R86). -/
def flagsOf (first : Contribution) (n ord : Nat) (fl : SMap (BitVec 8)) : Fl :=
  let seg := (first.nmax + n - 1) / n
  fl.foldl (fun x e => if first.kind != .redsc || (decide (ord * seg ≤ e.1) && decide (e.1 < (ord + 1) * seg)) then x ||| e.2 else x) 0

/-- RESULT_DELIVERY (R308): a reduced or retained round's result is written to a member's DST, its flags to the bank's NRM (R86),
and its operation completes; an operation whose round has no result for it stops. -/
def tryResultDelivery (gi tag rank : Nat) (s : State) : Option State := do
  let g ← SMap.find s.groups gi
  let r ← SMap.find g.rounds tag
  let k ← s.memberSent g.part g.gid g.members rank tag
  if k.stop.isSome || k.fault.isSome || !s.works k.core || !portReady s g.part (s.remoteGroup k.ctx g.members) then none
  match noResult g r tag rank with
  | some cause => return s.stopOp k cause 0
  | none =>
  let first ← r.first
  if !resultFor g r tag rank then none
  let ag := s.agentFor k.bank k.uid true
  let w := etWidth first.outf / 8
  let t := writeElems s ag (k.bank, 6 + k.ch, k.tl) (k.desc.getD 1 0) w (toDeliver k first g r rank)
  let k := { k with phase := 3 }
  match t.2 with
  | some (n, e) => stopCol t.1 { k with done := n } e
  | none =>
    let late := !(r.ontime.any fun c => c.rank == rank) && !r.delivered.contains rank
    let s := if late then t.1.memberStat g rank 32 else t.1
    let fl := flagsOf first (ranksOf g.members).length (ordinal g.members rank) r.flags
    let s := (s.modHome k.bank k.uid fun b => b.addFlags fl).finishOp k
    return s.setGroup gi ((g.setRound tag { r with delivered := if r.delivered.contains rank then r.delivered else r.delivered ++ [rank] }).retain s tag first)

/-- RESULT_DELIVERY (R308). -/
def execResultDelivery (group tag rank : Nat) (s : State) : Out := event s (tryResultDelivery group tag rank s)

/-! ### Withdrawal (R317) -/

/-- The groups of which every member has withdrawn are no more. -/
def State.dropEmptyGroups (s : State) : State :=
  let gone (part : Nat) (gid : Word) (members : BitVec 1024) : Bool :=
    (ranksOf members).all fun m => s.withdrawn.contains (part, gid, members, m)
  { s with
    groups := s.groups.filter fun e => !gone e.2.part e.2.gid e.2.members
    flights := s.flights.filter fun c => !gone c.part c.gid c.members
    notices := s.notices.filter fun n => !gone n.part n.gid n.members
    withdrawn := s.withdrawn.filter fun w => !gone w.1 w.2.1 w.2.2.1 }

/-- The ranks of a context withdraw from every group of which they are members (R317), also where its arbiter has not yet
received a contribution. -/
def State.withdrawRanks (s : State) (ctx : Nat) : State :=
  let mine := (List.range 256).filterMap fun g =>
    let x := (s.ctx ctx).entry g
    if x.members = 0 then none else some ((s.ctx ctx).part.toNat, x.gid, x.members, x.own)
  let s : State := { s with
    withdrawn := s.withdrawn ++ mine.filter fun w => !s.withdrawn.contains w
    groups := s.groups.map fun e =>
      let out := (mine.filter fun w => w.1 == e.2.part && w.2.1 == e.2.gid && w.2.2.1 == e.2.members).map (·.2.2.2)
      (e.1, { e.2 with gone := e.2.gone ++ out.filter fun m => !e.2.gone.contains m }) }
  s.settleGroups.dropEmptyGroups

/-! ### Work entries (R289 to R291) -/

/-- Fields of a work entry (R289). -/
def weLen (d : List Word) : Nat := bits (d.getD 2 0) 23 0
def weRank (d : List Word) : Nat := bits (d.getD 2 0) 33 24
def weEt (d : List Word) : Nat := bits (d.getD 2 0) 41 38
def weRop (d : List Word) : Nat := bits (d.getD 2 0) 44 42
def weArmed (d : List Word) : Bool := bitAt (d.getD 2 0) 45

/-- The start checks of R291. A target in this module must lie in the task's own partition (R320; DEDUCED: log 35); the handle RCNT of a
target in another module is checked there. -/
def workOk (s : State) (k : KCmd) (d : List Word) : Bool :=
  let h (i : Nat) : BitVec 32 := (d.getD i 0).setWidth 32
  let e := (s.rankEntry k.ctx (weRank d)).getD 0
  let here := rankModule e == 0
  bits (d.getD 2 0) 63 46 == 0 && bits (d.getD 4 0) 63 33 == 0 && bits (d.getD 5 0) 63 33 == 0
  && d.getD 6 0 == 0 && d.getD 7 0 == 0
  && bits (d.getD 2 0) 37 34 == (if k.kind = .owred then 1 else 0)
  && (k.kind != .owred || ([0, 2, 3, 4].contains (weRop d) && (if weRop d = 0 then [0, 1, 2, 5].contains (weEt d) else decide (weEt d ≤ 6))
      && weLen d % (etWidth (weEt d) / 8) == 0))
  && weLen d != 0 && decide ((d.getD 1 0).toNat + weLen d ≤ 2 ^ 57) && bitAt (Entry.members k.entry) (weRank d)
  && (s.rankEntry k.ctx (weRank d)).isSome && (!here || (s.ctx (rankCtx e)).part.toNat == keyPart k.core)
  && (!weArmed d || semOk s k.ctx (h 3)) && (!bitAt (d.getD 4 0) 32 || !here || semOk s (rankCtx e) (h 4))
  && (!bitAt (d.getD 5 0) 32 || semOk s k.ctx (h 5))

/-- The arming condition (R290). -/
def workFires (s : State) (ctx : Nat) (d : List Word) : Bool :=
  !weArmed d || match (semKey s ctx ((d.getD 3 0).setWidth 32)).join with
    | some w => decide (bits (d.getD 3 0) 63 32 ≤ (s.semRead w).toNat)
    | none => false

/-- The reduction of one target element (R290), with the flags of its rounding (R86). -/
def workElem (d : List Word) (old v : Nat) : Nat × Fl :=
  let et := weEt d
  match fmtOf et with
  | some f =>
    let a := decodeNum f old
    let b := decodeNum f v
    let r : Num × Fl := match weRop d with
      | 0 => Num.add false a b
      | 2 => (Num.max a b, 0)
      | 3 => (Num.min a b, 0)
      | _ => (Num.magPick true a b, 0)
    let q := roundTo f r.1 0 false 0
    (q.1, r.2 ||| q.2)
  | none =>
    let w := etWidth et
    let a := toSigned w old
    let b := toSigned w v
    (match weRop d with
      | 0 => (old + v) % 2 ^ w
      | 2 => if a < b then v else old
      | 3 => if b < a then v else old
      | _ => if a.natAbs < b.natAbs || (a.natAbs == b.natAbs && decide (a < b)) then v else old, 0)

/-- One piece at the target, translated in the target rank's context `tg`, published (R290); the flags of a sum. It is a write of the
issuing task, made at the home (R191, R203): a copy in an L1, stale or not, does not stop it. -/
def writeTarget (s : State) (ag tg : Agent) (d : List Word) (a : Word) (n v : Nat) : State × Option Stop × Fl :=
  let red := decide (bits (d.getD 2 0) 37 34 = 1)
  if xlatRefreshed s tg.key tg.ctx (if red then .atomic else .write) (bits a 56 0) then (s, some .stall, 0) else
  match xlatCtx s tg.ctx (keyPart tg.key) (if red then .atomic else .write) a (bits a 56 0) with
  | .error f => (s, some (.page f), 0)
  | .ok p =>
    match reachable s p, if p.cached then narrowStop s ag (sectorOf p.loc) 30 a else .ok () with
    | .error e, _ => (s, some e, 0)
    | _, .error e => (s, some e, 0)
    | .ok _, .ok _ =>
      let r := if red then workElem d (s.readLoc p.loc n) v else (v, 0)
      (s.storePublished ag.key p (leBytes n r.1), none, r.2)

/-- The pieces of a target from an offset on: naturally aligned, or one per element for a reduction (R290). -/
def targetPieces (d : List Word) (off : Nat) : List (Word × Nat) :=
  let a := d.getD 1 0 + w64 off
  if bits (d.getD 2 0) 37 34 = 1 then
    let w := etWidth (weEt d) / 8
    (List.range ((weLen d - off) / w)).map fun i => (a + w64 (i * w), w)
  else pieces (weLen d - off) a (weLen d - off)

/-- How a fired entry ends: all written, or stopped at an offset by its source or by its target. -/
inductive WorkEnd
  | done (s : State)
  | source (s : State) (off : Nat) (e : Stop)
  | target (s : State) (off : Nat) (e : Stop)
deriving Repr

/-- The pieces of a fired entry, in ascending order: each is read at its source and written at its target; a target in
another module is written there (R290). -/
def firePieces (ag : Agent) (tg : Option Agent) (d : List Word) : State → Nat → List (Word × Nat) → WorkEnd
  | s, _, [] => .done s
  | s, off, (a, n) :: ps =>
    let r := readPieces s ag (pieces n (d.getD 0 0 + w64 off) n)
    match r.2.2 with
    | some e => .source r.2.1 off e
    | none =>
      match tg with
      | none => firePieces ag tg d r.2.1 (off + n) ps
      | some t =>
        let w := writeTarget r.2.1 ag t d a n (leVal r.1)
        match w.2.1 with
        | some e => .target w.1 off e
        | none => firePieces ag tg d (w.1.modHome ag.bk ag.uid fun b => b.addFlags w.2.2) (off + n) ps

/-- The task of an operation has ended by a kill (R345). -/
def State.ended (s : State) (uid : Nat) : Bool :=
  (s.task uid).all (fun t => t.st == .retired) || s.cores.any fun c => c.2.tracker.any fun t => t.uid == uid && t.killed

/-- A fired entry of a killed task that cannot go on is over: no handler answers for it (R345). -/
def State.dropWork (s : State) (k : KCmd) : State :=
  { s with work := s.work.filter fun x => !(x.core = k.core && x.bank = k.bank && x.ch = k.ch && x.tl = k.tl) }.finishOp k

/-- The fired entry goes on from its written point: no byte is written, and no element reduced, a second time. The core's L1 first
writes back its dirty sectors of the source and target ranges, and those of the target leave it (R287). -/
def fireWork (s : State) (k : KCmd) (d : List Word) : Option State :=
  let ag := s.agentFor k.bank k.uid true
  let e := (s.rankEntry k.ctx (weRank d)).getD 0
  let target : Agent := { ag with ctx := rankCtx e, key := 64 * (s.ctx (rankCtx e)).part.toNat + rankCore e }
  let k := { k with desc := d, phase := 3 }
  let s := s.writebackSectors ag.key (spanSectors s ag (d.getD 0 0, weLen d))
    (if rankModule e = 0 then spanSectors s target (d.getD 1 0, weLen d) else [])
  match firePieces ag (if rankModule e = 0 then some target else none) d s k.done (targetPieces d k.done) with
  | .done t =>
    let t : State := { t with work := t.work.map fun x =>
      if x.core = k.core && x.bank = k.bank && x.ch = k.ch && x.tl = k.tl then { x with fired := true } else x }
    some ((t.setKCmd { k with done := weLen d, performed := false }).markCol k.core k.bank k.ch k.uid)
  | .source t off e =>
    if s.ended k.uid && (match e with | .trap _ _ => true | .page _ => true | _ => false) then some (t.dropWork k)
    else stopCol t { k with done := off, performed := true } e
  | .target t off (.page f) =>
    if s.ended k.uid then some (t.dropWork k) else
    let p := t.postFault { target with bk := k.bank } .coll 0 0 k.tl f
    some ((p.1.setKCmd { k with done := off, performed := true, fault := some p.2 }).markCol k.core k.bank k.ch k.uid)
  | .target t off e =>
    if s.ended k.uid && (match e with | .trap _ _ => true | _ => false) then some (t.dropWork k)
    else stopCol t { k with done := off, performed := true } e

/-- There is a path to the target of a work entry (R399). -/
def State.workPath (s : State) (k : KCmd) (d : List Word) : Bool :=
  portReady s (keyPart k.core) ((s.rankEntry k.ctx (weRank d)).any fun e => rankModule e != 0)

/-- WORK_ENTRY_FIRE (R290): the next owrite or owred of a channel posts its entry, fires once it is armed, and
goes on after a fault or a stop. -/
def tryWorkEntryFire (core bank ch : Nat) (s : State) : Option State := do
  let k ← nextOp s core (bankKey core bank) ch
  if k.kind.isGroup || !portReady s (keyPart core) false then none
  if k.desc.isEmpty then
    let ag := s.agentFor k.bank k.uid true
    let r := readDesc s ag k.xa 8
    match r.2.2 with
    | some e => stopCol r.2.1 k e
    | none =>
      if !workOk r.2.1 k r.1 then return r.2.1.stopOp k 36 0
      let k' := { k with desc := r.1 }
      let t : State := { r.2.1 with work := r.2.1.work ++ [⟨core, k.bank, ch, k.ctx, k.tl, r.1, false⟩] }
      let t := t.setKCmd k'
      if workFires t k.ctx r.1 && t.workPath k' r.1 then some ((fireWork t k' r.1).getD t) else return t
  else if (k.performed || workFires s k.ctx k.desc) && s.workPath k k.desc then fireWork s k k.desc
  else none

/-- WORK_ENTRY_FIRE (R290). -/
def execWorkEntryFire (core bank ch : Nat) (s : State) : Out := eventOn s core (tryWorkEntryFire core bank ch s)

/-- Raising a counter by 1. -/
def State.semUp (s : State) (ctx : Nat) (h : BitVec 32) : State :=
  match (semKey s ctx h).join with
  | some w => s.semWrite w (s.semRead w + 1)
  | none => s

/-- WORK_ENTRY_COMPLETE (R290): the oldest fired entry raises its counters and completes. -/
def tryWorkEntryComplete (core bank ch : Nat) (s : State) : Option State := do
  let bk := bankKey core bank
  let w ← s.work.find? fun w => w.core == core && w.bank == bk && w.ch == ch && w.fired
  let e := s.rankEntry w.ctx (weRank w.ds)
  let s := { s with work := s.work.erase w }
  let s := if bitAt (w.ds.getD 4 0) 32 && (e.any fun e => rankModule e == 0) then
      s.semUp ((e.map rankCtx).getD 64) ((w.ds.getD 4 0).setWidth 32) else s
  let s := if bitAt (w.ds.getD 5 0) 32 then s.semUp w.ctx ((w.ds.getD 5 0).setWidth 32) else s
  match (s.core core).kq.find? fun k => k.bank == bk && k.ch == ch && k.tl == w.tl && k.kind.isOp with
  | some k => return s.finishOp k
  | none => return s.tlDone bk (6 + ch) w.tl

/-- WORK_ENTRY_COMPLETE (R290). -/
def execWorkEntryComplete (core bank ch : Nat) (s : State) : Out := eventOn s core (tryWorkEntryComplete core bank ch s)

/-! ### Reset of a port processor (R316) -/

/-- Contributions and work entries are resumed from their marks; the arbiter discards duplicates. Contributions on their
way are sent again, in their order. -/
def State.resetPort (s : State) (_port : Nat) : State := s

end Sys2Proof.Machine
end

