-- ==== Sys2Proof/Machine/Retire.lean ====
section
/-!
DEFINITION. Machine/Retire.lean: the end of a task: tail and the retirement tracker (R148, R162, R204, R214, R249, R258,
R259, R373).
-/

namespace Sys2Proof.Machine

/-! ### Tail (R258) -/

/-- A stopped command or stream of the bank traps at the tail (R194, R219). -/
def tailStopped (s : State) (bk uid : Nat) : Except Stop Unit := do
  let c := s.core (keyCore bk)
  trapStopped (trapV c uid)
  trapStopped (trapC c 0 uid)
  trapStopped (trapC c 1 uid)
  trapStopped (trapC c 2 uid)
  trapStopped (trapC c 3 uid)
  trapStopped (trapK c 0 uid)
  trapStopped (trapK c 1 uid)
  match (s.bank bk).streams.find? fun e => e.2.stop != 0 with
  | some (n, st) => throw (.streamStop n st.stopCause st.stopAddr)
  | none => return ()

/-- The control forms of the task have been performed; a rndwait whose round has not closed writes no register of a task
that has ended. -/
def formsPerformed (c : Core) (uid : Nat) : Bool :=
  c.kq.all fun k => k.uid != uid || k.kind.isOp || (k.kind == .rndwait && k.performed)

/-- The crew members have issued every word that precedes the tail (R279). -/
def crewDrained (s : State) (bk uid : Nat) : Bool :=
  match (s.bank bk).crew with
  | some w => w.suspended || !maskBusy (s.core (keyCore bk)) uid w.mask
  | none => true

/-- The end of the bindings of a bank's input streams (R214); entries that queued commands hold stay for them. -/
def State.unbindInputs (s : State) (bk uid : Nat) : State :=
  (((s.bank bk).streams.filter fun e => e.2.dir == 0 && decide (e.1 < 32)).map (·.1)).foldl (fun s n => s.unbind bk uid n) s

/-- What a tracker entry takes over from the bank (R258): its streams, its counters and the registers that queued commands
use. -/
def Bank.leave (b : Bank) : Bank := { b with crew := none, replay := [], exposed := [], due := [], wait := none, pendX := [] }

/-- A held slot goes free and an open tile closes, once no matrix command of the task names it (R148, R162). -/
def Core.tailMatrix (c : Core) (uid : Nat) : Core :=
  let c : Core := { c with
    kq := c.kq.filter fun k => k.uid != uid || k.kind.isOp
    rounds := c.rounds.map fun r => if r.2.uid = uid then (r.1, { r.2 with tailed := true }) else r }
  (c.closeTailed uid).releaseUnnamed uid

/-- The task leaves its bank with a tracker entry (R258): LERR_DATA for pending errors (R370), its claim mask and grant
given up, the bank Empty or Held; a record preloaded for it pops next (R274). -/
def State.leaveTask (s : State) (bk uid : Nat) (join : Option (BitVec 32)) : State :=
  match s.task uid with
  | none => s
  | some t =>
    let ck := keyCore bk
    let s := if t.errs.isEmpty then s else s.setErr t.ctx t.lslot 14 true
    let s := s.unbindInputs bk uid
    let b := s.bank bk
    let s := (s.freeBank bk t.ctx).modCore ck fun c =>
      { c with preload := c.preload.map fun p => (p.1, if p.1 = keyBank bk then { p.2 with next := true } else p.2) }
    let s := s.modCore ck fun c => { c.tailMatrix uid with tracker := c.tracker ++ [⟨uid, bk, join, b.pc, false, b.leave⟩] }
    s.modTask uid fun t => { t with st := .retiring, errs := [], lcore := ck }

/-- Every step of a tail up to the entry of the tracker (R258). -/
def tailReady (s : State) (c : Ctl) (f : FTk) : Except Stop State := do
  let s' ← ccStart s c
  let bk := s.me
  let uid := (s.bank bk).uid.getD 0
  let h : BitVec 32 := (s.rx bk f.xa).setWidth 32
  if f.xa ≠ 0 then
    let _ ← semWord s (s.ctxOf bk) h 54
  need (crewDrained s bk uid) .stall
  tailStopped s bk uid
  need (formsPerformed (s.core (keyCore bk)) uid) .stall
  need (condHolds s (.replay bk)) (.wait (.replay bk))
  let s' := if (s.bank bk).replay.isEmpty then s' else s'.releaseReplay bk uid (s.bank bk).replay
  need (s'.bank bk).replay.isEmpty (.block s' (.replay bk))
  match settleExposed s' bk uid (2 ^ 64) (s'.bank bk).exposed.length with
  | some s' => return s'.leaveTask bk uid (if f.xa = 0 then none else some h)
  | none => throw .stall

/-- TAIL (R258). -/
def execTail (c : Ctl) (f : FTk) (s : State) : Out :=
  match tailReady s c f with
  | .ok s' => .next s'
  | .error e => .next (settleStop s s.me e)

/-! ### Retirement (R258, R259) -/

/-- Everything an entry tracks has completed. -/
def Tracker.done (c : Core) (t : Tracker) : Bool :=
  !c.busy t.uid && (c.kq.all fun k => k.uid != t.uid)
  && t.left.streams.all fun e => e.2.dir == 0 || (e.2.buf.isEmpty && e.2.pos == e.2.issue)

/-- Every sector of the task passes from tag task to tag core (R204). -/
def State.retag (s : State) (uid ck : Nat) : State :=
  { s with dir := s.dir.map fun e => if e.2.tag = .task uid then (e.1, ⟨.core ck, []⟩) else e }

/-- What a tail with a join handle performs (R255, R258): a release at package scope, then the join, which is not performed on a
counter at 0 but reported (assumption log 45: R384). -/
def State.tailJoin (s : State) (ck : Nat) (t : Tracker) (k : Task) (h : BitVec 32) : State :=
  let s := s.release (s.agentFor t.bank t.uid false) 4
  match (semKey s k.ctx h).join with
  | none => s
  | some w =>
    if s.semRead w = 0 then
      (s.setErr k.ctx k.lslot 16 true).errorRecord k.ctx (s.ctrlOf k.ctx k.lslot) 3 (keyL ck) (keyBank t.bank) 34 t.pc 0 (w64 h.toNat)
    else s.joinDown w

/-- The entries of the provisional logs for a task that retires (R373). -/
def State.logTask (s : State) (uid : Nat) (k : Task) : State :=
  let e : LogEntry := ⟨uid, Config.signature uid, none, none, false, false, s.cycle⟩
  (k.phys.eraseDups.foldl (fun s p =>
    let x := SMap.get Phys.reset s.phys p
    { s with phys := SMap.put s.phys p { x with log := x.log ++ [e] } }) s).modTask uid fun t => { t with provisional := true }

/-- Held banks of a core become Empty as entries free (R257). -/
def State.freeHeld (s : State) (ck : Nat) : State :=
  if (s.bank (2 * ck)).st = .held then s.modBank (2 * ck) fun b => { b with st := .empty }
  else if (s.bank (2 * ck + 1)).st = .held then s.modBank (2 * ck + 1) fun b => { b with st := .empty }
  else s

/-- The record ends (R263); the fourth run of a log entry lowers no LIVE (R376). -/
def State.retireRecord (s : State) (uid : Nat) (k : Task) (killed : Bool) : State :=
  let s := s.modTask uid fun t => { t with st := .retired }
  let s := if k.again.isSome then s else s.liveDown k.ctx k.lslot 1
  if killed then s else s.logTask uid k

/-- RETIREMENT (R258, R259): the oldest entry of a core frees once everything it tracks has completed. -/
def tryRetirement (core : Nat) (s : State) : Option State := do
  let c := s.core core
  let t ← c.tracker.head?
  if !t.done c then none
  let s := s.retag t.uid core
  let s := s.modCore core fun c => { (c.closeTailed t.uid).releaseSlots t.uid with rounds := c.rounds.filter fun r => r.2.uid != t.uid }
  let s := match s.task t.uid with
    | none => s
    | some k =>
      let s := match t.join with
        | some h => if t.killed then s else s.tailJoin core t k h
        | none => s
      s.retireRecord t.uid k t.killed
  return (s.modCore core fun c => { c with tracker := c.tracker.tail }).freeHeld core

/-- RETIREMENT (R258). -/
def execRetirement (core : Nat) (s : State) : Out := event s (tryRetirement core s)

end Sys2Proof.Machine
end

