-- ==== Sys2Proof/Machine/Schedule.lean ====
section
/-!
DEFINITION. Machine/Schedule.lean: the scheduler: which record a bank takes (R249, R264, R265, R269, R284), pops (R256,
R257), preloads (R274), parking and waking (R199, R257, R262), images (R271, R272), pre-emption (R149, R266), aging and
budgets (R264, R276).
-/

namespace Sys2Proof.Machine

/-! ### Records that a bank may take (R249, R265, R269) -/

/-- The context that a core runs (R321, R324). -/
def State.ctxOfCore (s : State) (ck : Nat) : Option Nat :=
  (List.range 64).find? fun c => (s.ctx c).cstate == 2 && (s.ctx c).part.toNat == keyPart ck && s.granted c (keyL ck)

/-- AGE; 0 is stored as 1 (R325). -/
def Ctx.ageTicks (c : Ctx) : Nat := max 1 c.age.toNat

/-- AGE in base-die cycles. -/
def Ctx.ageCycles (c : Ctx) : Nat := 1024 * c.ageTicks

/-- The logical core of deterministic placement (R269). -/
def Launch.placed (l : Launch) (wid : Word) : Option Nat :=
  nthOne l.lcmask ((srgen l.seed wid 0xFFFFFFFF).toNat * popN 64 l.lcmask.toNat / 2 ^ 32)

/-- A record with this work identifier and first bank may run on a bank (R269). -/
def mayRun (l : Launch) (wid : Word) (home : Option Nat) (bk : Nat) : Bool :=
  match home with
  | some h => h == bk
  | none => bitAt l.lcmask (keyL (keyCore bk)) && (!l.det || l.placed wid == some (keyL (keyCore bk)))

/-- Rotating registers of a launch's records, in granules of 16 (R247). -/
def Launch.request (l : Launch) : Nat := l.vreg

/-- The work identifier of initial record t (R249). -/
def Launch.widOf (l : Launch) (t : Nat) : Word :=
  let ws := l.widths.toNat
  ((List.range 6).foldl (fun (a : Nat × Nat) f =>
    let e := l.exts.getD f 1
    (a.1 + (a.2 % e) * 2 ^ offsetOf ws f, a.2 / e)) (0, t)).1 |> w64

/-- The smallest number from `t` on, among `n`, that `p` holds of. -/
def firstFrom (p : Nat → Bool) : Nat → Nat → Option Nat
  | 0, _ => none
  | n + 1, t => if p t then some t else firstFrom p n (t + 1)

/-- The next initial record of a launch that a bank may take. -/
def Launch.nextInitial (l : Launch) (bk : Nat) : Option Nat :=
  if l.ended || l.killed || !bitAt l.lcmask (keyL (keyCore bk)) || decide (l.total ≤ l.made) then none
  else if !l.det then some l.made
  else firstFrom (fun t => mayRun l (l.widOf t) none bk) (l.total - l.made) l.made

/-- A record that a bank may take: a made one, or an initial one by its number. -/
structure Cand where
  uid : Option Nat
  t : Nat
  slot : Nat
  /-- effective priority (R264) and the cycle at which it was reached -/
  e : Nat
  reached : Nat
  prio : Nat
  wid : Word
  request : Nat
  det : Bool
  /-- its becoming Eligible may still pre-empt (R266) -/
  fresh : Bool
  /-- the core of deterministic placement -/
  placed : Option Nat
  home : Option Nat
  lcmask : BitVec 64
  rerun : Bool
deriving DecidableEq, Repr

/-- Aging steps that have passed since a cycle, at most to priority 7 (R264). -/
def ageSteps (prio age now since : Nat) : Nat := min (7 - prio) ((now - since) / age)

/-- A made record, and initial record t of a launch, as candidates. -/
def candOfTask (t : Task) (l : Launch) (uid : Nat) : Cand :=
  { uid := some uid, t := 0, slot := t.lslot, e := min 7 (t.prio + t.aged), reached := t.reached, prio := t.prio, wid := t.wid,
    request := l.request, det := l.det, fresh := t.fresh, placed := l.placed t.wid, home := t.home, lcmask := l.lcmask, rerun := t.rerun }

def candOfInitial (l : Launch) (slot t age now : Nat) : Cand :=
  let n := ageSteps l.prio age now l.posted
  { uid := none, t := t, slot := slot, e := l.prio + n, reached := l.posted + n * age, prio := l.prio, wid := l.widOf t,
    request := l.request, det := l.det, fresh := !l.spent.contains t, placed := l.placed (l.widOf t), home := none, lcmask := l.lcmask, rerun := false }

/-- The order of R265, re-runs first (R274). -/
def Cand.before (a b : Cand) : Bool :=
  if a.rerun != b.rerun then a.rerun
  else if a.e != b.e then decide (b.e < a.e)
  else if a.reached != b.reached then decide (a.reached < b.reached)
  else if a.slot != b.slot then decide (a.slot < b.slot)
  else if a.wid != b.wid then decide (a.wid.toNat < b.wid.toNat)
  else decide (a.uid.getD 0 < b.uid.getD 0)

def insertCand (c : Cand) : List Cand → List Cand
  | [] => [c]
  | d :: ds => if c.before d then c :: d :: ds else d :: insertCand c ds

/-- The eligible records of a context, in the order of R265, that `p` holds of: made records and, for each launch, its
next initial one for the bank. -/
def State.candidates (s : State) (ctx bk : Nat) : List Cand :=
  let x := s.ctx ctx
  let made := s.tasks.filterMap fun e =>
    if e.2.ctx = ctx && e.2.st == .eligible then
      match SMap.find x.launches e.2.lslot with
      | some l => if !l.killed && mayRun l e.2.wid e.2.home bk then some (candOfTask e.2 l e.1) else none
      | none => none
    else none
  let initial := x.launches.filterMap fun e => (e.2.nextInitial bk).map fun t => candOfInitial e.2 e.1 t x.ageCycles s.cycle
  (made ++ initial).foldr insertCand []

/-- Rotating registers that a bank's request can take from the pool (R29). -/
def State.freePool (s : State) (bk : Nat) : Nat := 384 - (s.bank (bankKey (keyCore bk) (keyBank bk + 1))).grant

/-- Every core of the partition that a record may run on. -/
def Cand.cores (c : Cand) (s : State) (ctx part : Nat) : List Nat :=
  match c.home with
  | some h => [keyCore h]
  | none => ((List.range 64).filter fun l => bitAt c.lcmask l && s.granted ctx l && (!c.det || c.placed == some l)).map
      fun l => 64 * part + l

/-- An Empty bank that could take the record: its request fits the pool. -/
def State.roomFor (s : State) (bk : Nat) (c : Cand) : Bool := (s.bank bk).st == .empty && decide (c.request ≤ s.freePool bk)

/-- Outside deterministic operation, pops avoid a core with ROTATE while a cooler allowed core has an Empty bank (R284); a bank
that the request does not fit is no place to pop (DEDUCED: log 44). -/
def avoided (s : State) (ctx bk : Nat) (c : Cand) : Bool :=
  let ck := keyCore bk
  !c.det && c.home.isNone && bitAt (s.core ck).allow 62
  && (c.cores s ctx (keyPart ck)).any fun k =>
      !bitAt (s.core k).allow 62 && s.works k && (s.roomFor (2 * k) c || s.roomFor (2 * k + 1) c)

/-- What is preloaded for a bank. -/
def State.preloaded (s : State) (bk : Nat) : Option Preloaded := SMap.find (s.core (keyCore bk)).preload (keyBank bk)

/-- A preload that is to be applied when the record with this uid and GEN pops (R274). -/
def Preloaded.appliesTo (p : Preloaded) (uid : Nat) (gen : BitVec 16) : Bool := p.uid == uid && p.gen == gen

/-- The preloaded record that the bank pops next, its task having retired (R265, R274). -/
def State.preloadNext (s : State) (bk : Nat) (cs : List Cand) : Option Cand :=
  (s.preloaded bk).bind fun p =>
    if !p.next then none
    else cs.find? fun c => c.uid == some p.uid && (s.task p.uid).any (fun t => p.appliesTo p.uid t.gen) && decide (c.request ≤ s.freePool bk)

/-- The record that an Empty bank takes (R265): a preloaded one unless a re-run is queued (R274), else the first that fits; a first
one at priority 7 that does not fit holds the bank. -/
def chosen (s : State) (ctx bk : Nat) : Option Cand :=
  match (s.candidates ctx bk).filter fun c => !avoided s ctx bk c with
  | [] => none
  | c :: cs =>
    let fits (c : Cand) : Bool := decide (c.request ≤ s.freePool bk)
    match if c.rerun then none else s.preloadNext bk (c :: cs) with
    | some p => some p
    | none => if fits c then some c else if c.e = 7 then none else cs.find? fits

/-- An aging step of a record is due (R264). -/
def Task.stepDue (t : Task) (age now : Nat) : Bool :=
  (t.st == .eligible || t.st == .waiting) && decide (t.prio + t.aged < 7) && decide (t.since + (t.aged + 1) * age ≤ now)

/-- The provisional log of the physical core is full (R373). -/
def State.logFull (s : State) (ck : Nat) : Bool := decide (1024 ≤ (SMap.get Phys.reset s.phys (s.physOf ck)).log.length)

/-! ### Spare cores and the thermal move (R19, R284) -/

/-- Every logical core of the module. -/
def State.coreKeys (s : State) : List Nat := (List.range s.parts).flatMap fun p => range2 (64 * p) 64

def State.physCore (s : State) (p : Nat) : Phys := SMap.get Phys.reset s.phys p
/-- A physical core is serviceable: it is not quarantined (R378). -/
def Phys.serviceable (p : Phys) : Bool := !p.quarantined

/-- A physical core may serve: serviceable, in service (R375), and not under scan (R372). A core out of service returns to service
when it passes a scan (DEDUCED, assumption log 29). -/
def State.inService (s : State) (p : Nat) : Bool :=
  (s.physCore p).serviceable && !(s.physCore p).outOfService && !s.modl.scanning.any fun x => x.1 == p

/-- The logical core that a physical core serves. -/
def State.coreOn (s : State) (p : Nat) : Option Nat := s.coreKeys.find? fun k => s.physOf k == p

/-- The lowest spare of a quadrant that `ok` holds of. -/
def State.spareOf (s : State) (q : Nat) (ok : Nat → Bool) : Option Nat :=
  (range2 (18 * q) 18).find? fun p => s.inService p && (s.coreOn p).isNone && ok p

/-- The cooler spare that a hot logical core moves to (R284). -/
def State.coolerSpare (s : State) (ck : Nat) : Option Nat :=
  s.spareOf (s.quadOf ck) fun p => decide ((s.physCore p).temp16 < (s.physCore (s.physOf ck)).temp16)

/-- No task is resident on a logical core. -/
def State.vacant (s : State) (ck : Nat) : Bool := (s.bank (2 * ck)).uid.isNone && (s.bank (2 * ck + 1)).uid.isNone

/-- The move of a hot logical core is due (R284): ROTATE is set, no task is resident on it, and a cooler spare is free. -/
def State.moveDue (s : State) (ck : Nat) : Bool :=
  bitAt (s.core ck).allow 62 && s.vacant ck && (s.coolerSpare ck).isSome

/-- What an Empty bank would take now; a core whose thermal move is due pops nothing before it (R284). -/
def popChoice (s : State) (bk : Nat) : Option (Nat × Cand) := do
  let ck := keyCore bk
  let ctx ← s.ctxOfCore ck
  if (s.bank bk).st != .empty || !s.works ck || s.logFull ck || s.moveDue ck
      || (s.tasks.any fun e => e.2.ctx == ctx && e.2.stepDue (s.ctx ctx).ageCycles s.cycle) then none
  let c ← chosen s ctx bk
  return (ctx, c)

/-! ### Popping (R28, R249, R256, R257, R327) -/

/-- An initial record, as the VX7 makes it (R249). -/
def Launch.initial (l : Launch) (ctx slot t age now : Nat) : Task :=
  let n := ageSteps l.prio age now l.posted
  { ctx := ctx, lslot := slot, wid := l.widOf t, frame := l.framebase + w64 (t * l.framesz), code := l.entry.setWidth 18,
    jh := l.jdone, gated := false, stage := false, prio := l.prio, gen := 0, st := .eligible, since := l.posted, aged := n,
    reached := l.posted + n * age, spawnPrio := l.prio, recq := none, fresh := !l.spent.contains t, home := none, image := none, errs := [],
    unverifiable := false, phys := [], vouch := 0, vouchAt := [], lastVouch := 0, vouchedAt := 0, provisional := false, lcore := 0, popEpoch := 0, parent := none,
    rerun := false, again := none }

/-- Initial records up to `t` are made, in ascending order (R249): the state and the uid of the last. -/
def State.makeInitials (s : State) (ctx slot : Nat) (l : Launch) (t : Nat) : State × Nat :=
  let s' := (range2 l.made (t + 1 - l.made)).foldl (fun s i =>
    { s with tasks := SMap.put s.tasks s.fresh (l.initial ctx slot i (s.ctx ctx).ageCycles s.cycle), fresh := s.fresh + 1 }) s
  (s'.modLaunch ctx slot fun l => { l with made := t + 1, spent := l.spent.filter (t < ·) }, s'.fresh - 1)

/-- The pop state of a bank (R28, R327); the timeline counters stay (R36). -/
def popBank (b : Bank) (t : Task) (uid grant : Nat) (hvec : Word) (now : Nat) : Bank :=
  { Bank.reset with
    st := .running, uid := some uid, pc := t.code.setWidth 64, grant := grant, stvec := hvec &&& ~~~3#64, tl := b.tl, seq := b.seq,
    x := SMap.set 0 (SMap.set 0 (SMap.set 0 [] 10 t.wid) 11 t.frame) 12 (t.jh.setWidth 64), runAt := now }

/-! ### Preload (R274) -/

/-- The staging descriptor as a copy command of the record on transfer unit 0. -/
def stagingCopy (t : Task) (bk uid tl seq now : Nat) : CCmd where
  kind := .copy
  bank := bk
  uid := uid
  ctx := t.ctx
  det := false
  ctl := ⟨0, 0⟩
  tl := tl
  xa := t.frame
  xb := 0
  flg := 0
  at0 := now
  seq := seq
  issued := true
  started := false
  desc := []
  li := [0, 0, 0, 0, 0, 0]
  part := 0
  buf := []
  origins := []
  stop := none
  fault := none
  finished := false

/-- Bytes that a copy moves in all. -/
def copyTotal (d : List Word) : Nat := (copyCnts d).foldl (· * ·) (copyLen d)

/-- A descriptor that is neither staged nor performed: one that fails R226, or breaks the limits of R274. -/
def stagingBad (s : State) (ag : Agent) (k : CCmd) (d : List Word) : Bool :=
  let dst := (k.spans d).2
  (copyCheck s ag k d).isSome || decide (2 ≤ copyKind d) || decide (65536 < copyTotal d)
  || (copyKind d == 0 && match window s ag dst.1 with
      | .ok (.spad key _) => key != ag.key
      | _ => true)

/-- The sectors of a piece, read early: one that the preload buffer may hold, and that has room, with its 32 bytes (R274). A place
that the directory does not know cannot be marked stale, and is read at the pop (DEDUCED: log 44). -/
def stagePiece (ag : Agent) (room : Nat) (r : State × SMap (List Byte) × Option PageStop) (x : Word × Nat) :
    State × SMap (List Byte) × Option PageStop :=
  let (s, m, f) := r
  if f.isSome then r
  else match access s ag .read false 4 x.1 x.2 with
    | .error (.page f) => (s, m, some f)
    | .error _ => r
    | .ok (p, s') =>
      let sec := sectorOf p.loc
      if p.cached && (SMap.find m sec).isNone && decide (m.length < room) then
        (s', SMap.put m sec (Memory.readList s'.mem (32 * sec) 32), none)
      else (s', m, none)

/-- The source of a staging copy, read early iteration by iteration; a translation fault ends it (R274, R340). -/
def stageSource (ag : Agent) (room : Nat) (k : CCmd) : Nat → List Nat → State × SMap (List Byte) × Option PageStop →
    State × SMap (List Byte) × Option PageStop
  | 0, _, r => r
  | n + 1, li, r =>
    let len := copyLen k.desc
    let r := (pieces len (k.iteration li).1 len).foldl (stagePiece ag room) r
    match nextIndices li (copyCnts k.desc) with
    | some li => stageSource ag room k n li r
    | none => r

/-- Pieces read where a preload buffer holds their sector from it, else at the home (R274). -/
def readStaged (m : SMap (List Byte)) (s : State) (ag : Agent) : List (Word × Nat) → List Byte × State × Option Stop
  | [] => ([], s, none)
  | (a, k) :: ps =>
    let held : Option (List Byte × State) :=
      match window s ag a with
      | .ok (.glob g) =>
        match xlatCore s ag.key ag.ctx .read a g with
        | .ok (p, s') => (SMap.find m (sectorOf p.loc)).map fun bs => ((bs.drop (p.loc % 32)).take k, s')
        | .error _ => none
      | _ => none
    match held with
    | some (bs, s') =>
      let r := readStaged m s' ag ps
      (bs ++ r.1, r.2)
    | none =>
      match access s ag .read false 4 a k with
      | .error e => ([], s, some e)
      | .ok (p, s') =>
        let r := readStaged m s' ag ps
        (Memory.readList s'.mem p.loc k ++ r.1, r.2)

/-- The staging descriptor of a record (R274): its doublewords, and whether one that has been read breaks a limit. -/
def stagingDesc (m : SMap (List Byte)) (s : State) (ag : Agent) (t : Task) (k : CCmd) : List Word × State × Option Stop × Bool :=
  let r := readStaged m s ag (pieces 96 t.frame 96)
  let d := (List.range 12).map fun i => w64 (leVal ((r.1.drop (8 * i)).take 8))
  (d, r.2.1, r.2.2, r.2.2.isNone && stagingBad r.2.1 ag k d)

/-- PRELOAD (R274): while a bank runs a task, the record that it would take next stages its descriptor and source in the core's
preload buffer of 64 KiB. -/
def tryPreload (core bank : Nat) (s : State) : Option State := do
  let bk := bankKey core bank
  if (s.bank bk).uid.isNone || (s.preloaded bk).isSome || !s.works core then none
  let ctx ← s.ctxOfCore core
  let c ← (s.candidates ctx bk).head?
  let uid ← c.uid
  let t ← s.task uid
  if !t.stage then none
  let ag := s.agentFor bk uid true
  let k := stagingCopy t bk uid 0 0 s.tick
  let room := 2048 - (s.core core).preload.foldl (fun n p => n + p.2.sectors.length) 0
  let put (s : State) (m : SMap (List Byte)) (bad : Bool) : State :=
    s.modCore core fun x => { x with preload := SMap.put x.preload (keyBank bk) ⟨uid, t.gen, m, bad, false⟩ }
  if t.frame.toNat % 32 != 0 then return put s [] true
  let r := (pieces 96 t.frame 96).foldl (stagePiece ag room) (s, [], none)
  let fault (s : State) (f : PageStop) : State := (s.postFault ag .preload 0 0 0 f).1
  match r.2.2 with
  | some f => return put (fault r.1 f) r.2.1 false
  | none =>
    match stagingDesc r.2.1 r.1 ag t k with
    | (_, s', some _, _) => return put s' r.2.1 false
    | (_, s', none, true) => return put s' r.2.1 true
    | (d, s', none, false) =>
      if copyEmpty d || k.fill then return put s' r.2.1 false
      let e := stageSource ag room { k with desc := d } (copyTotal d) [0, 0, 0, 0, 0, 0] (s', r.2.1, none)
      match e.2.2 with
      | some f => return put (fault e.1 f) e.2.1 false
      | none => return put e.1 e.2.1 false

/-- PRELOAD (R274). -/
def execPreload (core bank : Nat) (s : State) : Out := event s (tryPreload core bank s)

/-- A started copy on transfer unit 0 goes on to its end, to a stop or to a fault. -/
def runStaged (m : SMap (List Byte)) (ck uid tl : Nat) : Nat → State → State
  | 0, s => s
  | n + 1, s =>
    match ((s.core ck).unit 0).find? fun k => k.uid == uid && k.tl == tl with
    | none => s
    | some k =>
      if k.stop.isSome || k.fault.isSome then s
      else if k.finished then finishCopy s 0 k
      else match runIterationBy (readStaged m) s 0 k with
        | some t => runStaged m ck uid tl n t
        | none => s

/-- A bank whose staging copy waits for a fault or another agent issues no instruction until it has gone on (R274). -/
def State.awaitStaging (s : State) (bk tl : Nat) : State :=
  if condHolds s (.staged bk tl) then s else s.park bk (.staged bk tl)

/-- A record with STAGE = 1 pops (R250, R274), preloaded or not: its staging is a copy of the task issued at the pop, done
before its first instruction; one whose descriptor breaks a limit is a stopped copy, reported at that instruction (R194). -/
def State.applyStaging (s : State) (bk uid : Nat) (t : Task) (p : Option Preloaded) : State :=
  let ck := keyCore bk
  let b := s.bank bk
  let p := p.filter (·.appliesTo uid t.gen)
  let m := (p.map (·.sectors)).getD []
  let ag := s.agentFor bk uid true
  let k := stagingCopy t bk uid (b.tlNext 0) b.seq s.tick
  let s := (s.setBank bk (b.nextSeq.tlGive 0)).modCore ck fun c => { c with cq := SMap.put c.cq 0 (c.unit 0 ++ [k]) }
  let refused (s : State) : State := (s.setCCmd 0 { k with stop := some (31, 0) }).modBank bk fun b => { b with due := [⟨31, 0⟩] }
  if p.any (·.bad) || t.frame.toNat % 32 != 0 then refused s
  else match stagingDesc m s ag t k with
    | (_, s', some e, _) => ((stopCopy s' 0 k e).getD s').awaitStaging bk k.tl
    | (_, s', none, true) => refused s'
    | (d, s', none, false) => (runStaged m ck uid k.tl 66000 (s'.beginCopy 0 ag k d)).awaitStaging bk k.tl

/-- What is left of a bank's preload once a record has popped: it waits where a re-run has popped before it, and is discarded where
another record has; applied, it is gone (R274). -/
def State.keepPreload (s : State) (bk uid : Nat) (rerun : Bool) : State :=
  s.modCore (keyCore bk) fun c =>
    { c with preload := c.preload.filter fun p => p.1 != keyBank bk || (rerun && p.2.uid != uid) }

/-! ### Which record pre-empts by becoming Eligible (R266) -/

/-- The banks that a record may take. -/
def Cand.banks (c : Cand) (s : State) (ctx part : Nat) : List Nat :=
  match c.home with
  | some h => if s.works (keyCore h) then [h] else []
  | none => ((c.cores s ctx part).filter s.works).flatMap fun k => [2 * k, 2 * k + 1]

/-- None of a record's banks is Empty. -/
def noneEmpty (s : State) (bs : List Nat) : Bool := bs.all fun b => (s.bank b).st != .empty

/-- The base priority of a bank's task. -/
def State.bankPrio (s : State) (bk : Nat) : Nat := ((s.myTask bk).map (·.prio)).getD 7

/-- The first of a list by a strict order. -/
def firstBy (lt : Nat → Nat → Bool) (bs : List Nat) : Option Nat :=
  bs.foldl (fun best b => match best with
    | none => some b
    | some a => if lt b a then some b else some a) none

/-- The task on bank 1 on a tie, then the highest logical core (R266). -/
def tieBreak (a b : Nat) : Bool :=
  if keyBank a != keyBank b then keyBank a == 1 else decide (keyL (keyCore b) < keyL (keyCore a))

/-- The victim of the first trigger of R266, for a record that becomes Eligible. -/
def victimLow (s : State) (ctx part : Nat) (c : Cand) : Option Nat :=
  let bs := c.banks s ctx part
  if c.fresh && noneEmpty s bs then
    firstBy (fun a b => if s.bankPrio a != s.bankPrio b then decide (s.bankPrio a < s.bankPrio b) else tieBreak a b)
      (bs.filter fun b => (s.bank b).st == .running && decide (s.bankPrio b < c.prio))
  else none

/-- A bank is about to begin to run: a record that could take it, and that has nothing to pre-empt now, no longer pre-empts by having
become Eligible (R266). A launch's later initial records, which become Eligible one after another (R249), keep their turn. -/
def State.passFresh (s : State) (bk : Nat) : State :=
  match s.ctxOfCore (keyCore bk) with
  | none => s
  | some ctx =>
    let x := s.ctx ctx
    let idle (c : Cand) : Bool := (victimLow s ctx (keyPart (keyCore bk)) c).isNone
    let passes (e : Nat × Task) : Bool :=
      e.2.ctx == ctx && e.2.st == .eligible
      && (SMap.find x.launches e.2.lslot).any fun l => mayRun l e.2.wid e.2.home bk && idle (candOfTask e.2 l e.1)
    let gone (e : Nat × Launch) : List Nat :=
      ((e.2.nextInitial bk).filter fun t =>
        !(e.2.spent.contains t) && idle (candOfInitial e.2 e.1 t x.ageCycles s.cycle)).toList
    { (s.modCtx ctx fun x => { x with launches := x.launches.map fun e => (e.1, { e.2 with spent := gone e ++ e.2.spent }) }) with
      tasks := s.tasks.map fun e => (e.1, if passes e then { e.2 with fresh := false } else e.2) }

/-- The record becomes the task of the bank: an image is to be loaded, any other starts at its code. -/
def State.popTask (s : State) (bk uid grant : Nat) (t : Task) : State :=
  let ck := keyCore bk
  let b := s.bank bk
  let p := s.preloaded bk
  let s := ((s.keepPreload bk uid t.rerun).acquire ck 4).modTask uid fun t =>
    { t with st := .running, home := some bk, recq := none, fresh := false, phys := t.phys ++ [s.physOf ck], rerun := false, lastVouch := if t.image.isSome then t.lastVouch else s.cycle,
             popEpoch := if t.image.isSome then t.popEpoch else s.cutEpoch ck }
  match t.image with
  | some im =>
    s.setBank bk { im.bank with st := .restoring, uid := some uid, tl := b.tl, seq := max im.bank.seq b.seq, grant := grant, runAt := s.cycle }
  | none =>
    let s := s.setBank bk (popBank b t uid grant (s.ctx t.ctx).hvec s.cycle)
    if t.stage then s.applyStaging bk uid t p else s

/-- POP (R265): the bank takes its record; with both banks Empty, bank 0 goes first (R257). -/
def tryPop (core bank : Nat) (s : State) : Option State := do
  let bk := bankKey core bank
  if keyBank bk = 1 && (popChoice s (2 * core)).isSome then none
  let (ctx, c) ← popChoice s bk
  let s := s.passFresh bk
  match c.uid with
  | some u => return s.popTask bk u c.request (← s.task u)
  | none =>
    let l ← SMap.find (s.ctx ctx).launches c.slot
    let (s, u) := s.makeInitials ctx c.slot l c.t
    return s.popTask bk u c.request (← s.task u)

/-- POP (R265). -/
def execPop (core bank : Nat) (s : State) : Out := event s (tryPop core bank s)

/-! ### Images (R271) -/

/-- Slots and tiles of an image are free on the core, or held by the task (R149). -/
def imageFree (c : Core) (im : Image) (uid : Nat) : Bool :=
  (im.slotNos.all fun n => match SMap.find c.slots n with
    | some sl => sl.held.isNone || sl.held == some uid
    | none => true)
  && im.rounds.all fun r => match SMap.find c.rounds r.1 with
    | some o => o.uid == uid
    | none => true

/-- Claiming the slots and tiles of an image and restoring their contents. -/
def Core.restoreMatrix (c : Core) (im : Image) (uid ctx : Nat) : Core :=
  let c : Core := { c with
    slots := im.slotNos.foldl (fun m n => SMap.put m n ⟨some uid, some ctx⟩) c.slots
    marver := SMap.erase c.marver fun k => im.slotNos.contains (k / 128)
    tiles := SMap.erase c.tiles fun k => (SMap.find im.rounds (k / 16384)).isSome
    rounds := im.rounds.foldl (fun m r => SMap.put m r.1 r.2) c.rounds }
  { c with
    marver := im.slots.foldl (fun m e => SMap.set 0 m e.1 e.2) c.marver
    tiles := im.tiles.foldl (fun m e => SMap.set 0 m e.1 e.2) c.tiles }

/-- IMAGE_LOADED (R149, R271): the bank runs; its crew resumes unless a handler runs (R281); an acquire comes first
(R204). -/
def tryImageLoaded (core bank : Nat) (s : State) : Option State := do
  let bk := bankKey core bank
  let b := s.bank bk
  if b.st != .restoring || !s.works core then none
  let uid ← b.uid
  let t ← s.task uid
  let im ← t.image
  let c := s.core core
  if !imageFree c im uid then none
  let s := s.passFresh bk
  let b := if b.mode = .task then b.resumeCrew else b
  let s := (s.setCore core (c.restoreMatrix im uid t.ctx)).setBank bk { b with st := .running }
  let s := s.modTask uid fun t => { t with image := none }
  return ([0, 1, 2, 3].foldl (fun s tu => s.markCopy tu bk) ((s.acquire core 4).markMat bk uid))

/-- IMAGE_LOADED (R271). -/
def execImageLoaded (core bank : Nat) (s : State) : Out := event s (tryImageLoaded core bank s)

/-- The marver slots and tiles of a task, as its image holds them. -/
def Core.saveMatrix (c : Core) (bk uid : Nat) (b : Bank) : Image :=
  let nos := (c.slots.filter fun e => e.2.held == some uid).map (·.1)
  let rounds := c.rounds.filter fun r => r.2.uid == uid
  ⟨bk, b, c.marver.filter fun e => nos.contains (e.1 / 128), nos,
   c.tiles.filter fun e => (SMap.find rounds (e.1 / 16384)).isSome, rounds, false⟩

/-- The core once a task's slots and tiles are in its image: its commands wait at their marks, a MMA record without an array (R272). -/
def Core.leaveMatrix (c : Core) (uid : Nat) : Core :=
  let c := c.releaseSlots uid
  { c with
    rounds := c.rounds.filter fun r => r.2.uid != uid
    arrays := c.arrays.filter fun a => c.mq.all fun m => !(m.bank == a.2.bank && m.tl == a.2.tl && m.uid == uid)
    mq := c.mq.map fun m => if m.uid = uid && !m.finished then { m with started := false } else m }

/-- MMA records of a task run to their next punty marks (R272). -/
def State.toMarks (s : State) (ck uid : Nat) : State :=
  (s.core ck).arrays.foldl (fun s a =>
    if (s.core ck).mq.any fun m => m.bank == a.2.bank && m.tl == a.2.tl && m.uid == uid then (tryPuntyMark ck a.1 s).getD s
    else s) s

/-- The image of a task fits in the image area of its die's lehr: eight images of a core, and 476 KiB of a die beside the quarantine
record (R271, R350). -/
def lehrRoom (s : State) (ck uid : Nat) : Bool :=
  let held := s.tasks.filter fun e => e.2.image.any fun im => im.lehr && s.quadOf (keyCore im.bankKey) / 2 == s.quadOf ck / 2
  let used := held.foldl (fun n e => n + Config.imageBytes e.1 e.2.gen.toNat) 0
  decide ((held.filter fun e => e.2.image.any fun im => keyCore im.bankKey == ck).length < 8)
  && decide (used + Config.imageBytes uid (((s.task uid).map (·.gen.toNat)).getD 0) ≤ 476 * 1024)

/-- There is room for the image of a task: in the context's image area in HBM, or in the lehr. -/
def imageRoom (s : State) (ctx ck uid : Nat) : Bool :=
  decide ((s.tasks.filter fun e => e.2.ctx == ctx && e.2.image.any fun im => !im.lehr).length < (s.ctx ctx).imgn.toNat) || lehrRoom s ck uid

/-- The image is complete: the bank is Empty and the record Eligible, or Waiting with the condition it waits on. -/
def State.saveImage (s : State) (bk uid : Nat) : State :=
  let ck := keyCore bk
  let s := s.toMarks ck uid
  let b := s.bank bk
  let im := { (s.core ck).saveMatrix bk uid b with lehr := lehrRoom s ck uid }
  let s := s.modCore ck fun c => c.leaveMatrix uid
  let s := s.modTask uid fun t => { t with st := if b.wait.isSome then .waiting else .eligible, image := some im, fresh := true }
  s.setBank bk { Bank.reset with tl := b.tl, seq := b.seq }

/-- IMAGE_SAVED (R271, R272): vector instructions in flight have completed or stopped. -/
def tryImageSaved (core bank : Nat) (s : State) : Option State := do
  let bk := bankKey core bank
  let b := s.bank bk
  if b.st != .saving then none
  let uid ← b.uid
  if ((s.core core).inFlight uid).any fun m => completable s m then none
  return s.saveImage bk uid

/-- IMAGE_SAVED (R271). -/
def execImageSaved (core bank : Nat) (s : State) : Out := event s (tryImageSaved core bank s)

/-- A bank begins to save its task (R204, R271, R273, R281): release, GEN raised, aging restarted (R264); a Parked bank that
is evicted keeps its condition. -/
def State.startSave (s : State) (bk : Nat) (keep : Bool) : State :=
  let b := (s.bank bk).suspendCrew
  let uid := b.uid.getD 0
  let s := s.release (s.agent bk) 4
  let s : State := { s with resv := s.resv.filter fun r => r.1 != bk }
  let s := s.setBank bk { b with st := .saving, wait := if keep then b.wait else none, waitCount := s.waited bk, granted := if keep then b.granted else false }
  s.modTask uid fun t => { t with gen := t.gen + 1, since := s.cycle, aged := 0, reached := s.cycle }

/-! ### Parking, waking and eviction (R199, R257, R262) -/

/-- PARK (R199): a wait has lasted 1,024 cycles, and its condition still does not hold. -/
def tryPark (core bank : Nat) (s : State) : Option State := do
  let bk := bankKey core bank
  let b := s.bank bk
  let c ← b.wait
  if b.st != .running || s.waited bk < 1024 || condHolds s c then none
  return s.park bk c

/-- PARK (R199). -/
def execPark (core bank : Nat) (s : State) : Out := event s (tryPark core bank s)

/-- The condition of a Waiting task, its streams and replay queue read in its image. -/
def awayHolds (s : State) (b : Bank) : WaitCond → Bool
  | .streamIdle _ sn => match SMap.find b.streams sn with
    | some st => st.stop != 0 || (st.buf.isEmpty && st.pos == st.issue)
    | none => true
  | .replay _ => b.replay.all (·.ready)
  | .hans _ _ => b.hans.isSome
  | c => condHolds s c

/-- A wait on commands of the task that proceed only while it is resident (R272). -/
def needsBank (c : Core) (uid : Nat) : WaitCond → Bool
  | .tlGe _ k _ => (k == 4 && c.vq.any fun v => v.uid == uid) || (k == 5 && c.mq.any fun m => m.uid == uid)
  | .streamIdle _ _ => c.vq.any (fun v => v.uid == uid) || c.mq.any fun m => m.uid == uid
  | .idle u => u == uid && c.busy uid
  | _ => false

/-- A Waiting task whose condition holds, or that has a trap to take, becomes Eligible (R263). -/
def wakeAway (s : State) (bk : Nat) : Option State :=
  s.tasks.findSome? fun e =>
    match e.2.image with
    | some im =>
      let ok := match im.bank.wait with
        | some c => awayHolds s im.bank c || needsBank (s.core (keyCore bk)) e.1 c || !im.bank.due.isEmpty
            || waitStopped (s.core (keyCore bk)) im.bank e.1 c
        | none => true
      if e.2.st = .waiting && im.bankKey == bk && ok then
        some (s.setTask e.1 { e.2 with
          st := .eligible
          fresh := true
          image := some { im with bank := { im.bank with wait := none, granted := im.bank.wait.any fun c => c.isSem && awayHolds s im.bank c } } })
      else none
    | none => none

/-- WAIT_CONDITION_MET (R199, R257): a stalled or Parked bank goes on, or a Waiting task of the bank becomes Eligible. -/
def tryWaitConditionMet (core bank : Nat) (s : State) : Option State :=
  let bk := bankKey core bank
  let b := s.bank bk
  match b.wait with
  | some c =>
    if (b.st == .parked || b.st == .running) && s.works core && (condHolds s c || (b.st == .parked && ((b.due.any fun d => d.cause != 43) || waitStopped (s.core core) b (b.uid.getD 0) c)))
    then some ((if b.st = .parked then s.passFresh bk else s).wake bk) else wakeAway s bk
  | none => wakeAway s bk

/-- WAIT_CONDITION_MET (R199). -/
def execWaitConditionMet (core bank : Nat) (s : State) : Out := event s (tryWaitConditionMet core bank s)

/-- EVICTION (R262): a bank Parked for PARK_EVICT ticks is saved while the scheduler holds a record for the core. -/
def tryEviction (core bank : Nat) (s : State) : Option State := do
  let bk := bankKey core bank
  let b := s.bank bk
  let ctx ← s.ctxOfCore core
  let uid ← b.uid
  if b.st != .parked || s.tick < b.parkTick + (s.ctx ctx).parkEvict.toNat || !imageRoom s ctx core uid
      || ((s.candidates ctx (2 * core)).isEmpty && (s.candidates ctx (2 * core + 1)).isEmpty) then none
  return s.startSave bk true

/-- EVICTION (R262). -/
def execEviction (core bank : Nat) (s : State) : Out := event s (tryEviction core bank s)

/-! ### Pre-emption (R266, R149) -/

/-- The victim of the second trigger of R266: run time counts in base-die cycles. -/
def victimLong (s : State) (ctx part : Nat) (c : Cand) : Option Nat :=
  let bs := c.banks s ctx part
  let age := (s.ctx ctx).ageCycles
  if c.e == 7 && decide (c.reached + age ≤ s.cycle) && noneEmpty s bs then
    firstBy (fun a b => if (s.bank a).runAt != (s.bank b).runAt then decide ((s.bank a).runAt < (s.bank b).runAt) else tieBreak a b)
      (bs.filter fun b => (s.bank b).st == .running && decide ((s.bank b).runAt + age ≤ s.cycle))
  else none

/-- A record has pre-empted by becoming Eligible, once (R266). -/
def State.useFresh (s : State) (ctx : Nat) (c : Cand) : State :=
  match c.uid with
  | some u => s.modTask u fun t => { t with fresh := false }
  | none => s.modLaunch ctx c.slot fun l => { l with spent := c.t :: l.spent }

/-- PRE_EMPTION (R266): the bank is the victim of a trigger. -/
def tryPreEmption (core bank : Nat) (s : State) : Option State := do
  let bk := bankKey core bank
  let ctx ← s.ctxOfCore core
  let uid ← (s.bank bk).uid
  let cs := s.candidates ctx bk
  if !imageRoom s ctx core uid then none
  match cs.find? fun c => victimLow s ctx (keyPart core) c == some bk with
  | some c => return (s.startSave bk false).useFresh ctx c
  | none =>
    if cs.head?.any fun c => victimLong s ctx (keyPart core) c == some bk then return s.startSave bk false else none

/-- PRE_EMPTION (R266). -/
def execPreEmption (core bank : Nat) (s : State) : Out := event s (tryPreEmption core bank s)

/-- A command of a task waits for nothing but a slot or a tile that another task has (R149). -/
def waitsOn (s : State) (c : Core) (uid other : Nat) : Bool :=
  c.mq.any fun m => m.uid == uid && startable s c m &&
    ((m.opc == 0x0CA && (SMap.find c.slots m.ms).any fun sl => sl.held == some other)
     || (m.tile.bind (SMap.find c.rounds)).any fun r => r.uid == other)

/-- MATRIX_DEADLOCK_PREEMPTION (R149): the task of lower priority is pre-empted, that on bank 1 on a tie. -/
def tryMatrixDeadlockPreemption (core : Nat) (s : State) : Option State := do
  let a := s.bank (2 * core)
  let b := s.bank (2 * core + 1)
  let u ← a.uid
  let v ← b.uid
  let c := s.core core
  let live (b : Bank) : Bool := b.st == .running || b.st == .parked
  if !(waitsOn s c u v && waitsOn s c v u && live a && live b) then none
  let bk := if s.bankPrio (2 * core) < s.bankPrio (2 * core + 1) then 2 * core else 2 * core + 1
  return s.startSave bk false

/-- MATRIX_DEADLOCK_PREEMPTION (R149). -/
def execMatrixDeadlockPreemption (core : Nat) (s : State) : Out := event s (tryMatrixDeadlockPreemption core s)

/-! ### Aging and budgets (R264, R276) -/

/-- AGE_STEP (R264). -/
def tryAgeStep (uid : Nat) (s : State) : Option State := do
  let t ← s.task uid
  let age := (s.ctx t.ctx).ageCycles
  if !t.stepDue age s.cycle then none
  return s.setTask uid { t with aged := t.aged + 1, reached := t.since + (t.aged + 1) * age }

/-- AGE_STEP (R264). -/
def execAgeStep (uid : Nat) (s : State) : Out := event s (tryAgeStep uid s)

/-- The task's tail left its bank Held: no tracker entry was free (R33, R257). -/
def State.heldTask (s : State) (uid : Nat) : Bool := s.cores.any fun c => (c.2.tracker.drop 16).any fun t => t.uid == uid

/-- Tasks of a launch that a tick boundary counts (R276). -/
def countedTasks (s : State) (ctx slot : Nat) : Nat :=
  (s.tasks.filter fun e => e.2.ctx == ctx && e.2.lslot == slot && (e.2.st == .running || e.2.st == .waiting || s.heldTask e.1)).length

/-- BUDGET_TICK (R276): the next tick boundary that has passed lowers every budget by its counted tasks. -/
def tryBudgetTick (s : State) : Option State :=
  if s.budgetTicks < s.tick then
    some { s with
      budgetTicks := s.budgetTicks + 1
      ctxs := s.ctxs.map fun c =>
        (c.1, { c.2 with launches := c.2.launches.map fun l =>
          (l.1, { l.2 with budget := l.2.budget.map fun b => b - countedTasks s c.1 l.1 }) }) }
  else none

/-- BUDGET_TICK (R276). -/
def execBudgetTick (s : State) : Out := event s (tryBudgetTick s)

/-- BUDGET_END (R276): LERR_BUDGET and an error record of kind 4; Gated and Eligible records are Retired, and LIVE falls by
their number. -/
def tryBudgetEnd (ctx slot : Nat) (s : State) : Option State := do
  let l ← SMap.find (s.ctx ctx).launches slot
  if l.ended || l.budget != some 0 then none
  let mine (t : Task) : Bool := t.ctx == ctx && t.lslot == slot && (t.st == .gated || t.st == .eligible)
  let n := (s.tasks.filter fun e => mine e.2).length + (l.total - l.made)
  let s := s.setErr ctx slot 12 false
  let s := s.errorRecord ctx l.ctrl.toNat 4 0 0 33 0 0 0
  let s : State := { s with
    tasks := s.tasks.map fun e => if mine e.2 then (e.1, { e.2 with st := .retired, image := none, recq := none }) else e }
  let s := s.modLaunch ctx slot fun l => { l with ended := true, made := l.total }
  return s.liveDown ctx slot n

/-- BUDGET_END (R276). -/
def execBudgetEnd (ctx slot : Nat) (s : State) : Out := event s (tryBudgetEnd ctx slot s)

/-! ### Engine issue (R48) and traps before an instruction (R276, R330, R342) -/

/-- ENGINE_ISSUE (R48): the queue's next command is dequeued. Queue cc issues its words itself. -/
def execEngineIssue (core : Nat) (q : Queue) (s : State) : Out :=
  match q with
  | .cc => .next s
  | .vec => eventOn s core (tryVectorIssue core s)
  | .mat =>
    eventOn s core (tryMatIssue core s)
  | .c0 => eventOn s core (tryCopyIssue core 0 s)
  | .c1 => eventOn s core (tryCopyIssue core 1 s)
  | .c2 => eventOn s core (tryCopyIssue core 2 s)
  | .c3 => eventOn s core (tryCopyIssue core 3 s)
  | .col => eventOn s core (tryColIssue core s)

/-- The task's launch has no budget left, and CAUSE_BUDGET is due in task mode (R276). -/
def State.budgetDue (s : State) (bk : Nat) : Bool :=
  (s.bank bk).mode == .task && ((s.myLaunch bk).map fun l => l.ended && l.budget == some 0).getD false

/-- The due traps of a bank other than CAUSE_REPLAY_READY. -/
def Bank.dueOther (b : Bank) : Option DueTrap := b.due.find? fun d => d.cause != 43

/-- TRAP_DELIVERY (R330): the oldest due trap of a running bank, or CAUSE_BUDGET. -/
def tryTrapDelivery (core bank : Nat) (s : State) : Option State :=
  let bk := bankKey core bank
  let b := s.bank bk
  if b.st != .running || !s.works core then none
  else match b.dueOther with
    | some d => some (takeTrap (s.modBank bk fun b => { b with due := b.due.erase d }) bk d.cause d.tval)
    | none => if s.budgetDue bk then some (takeTrap s bk 33 0) else none

/-- TRAP_DELIVERY (R330). -/
def execTrapDelivery (core bank : Nat) (s : State) : Out := event s (tryTrapDelivery core bank s)

/-- The bank waits by R199 on its replay queue at a tail, which releases the entries itself (R258). -/
def Bank.atTail (b : Bank) : Bool :=
  match b.wait with
  | some (.replay _) => true
  | _ => false

/-- CAUSE_REPLAY_READY is due, and the bank may take it: not in handler mode, and not on a page fault or at a tail. -/
def Bank.replayDue (b : Bank) : Option DueTrap :=
  let waits := match b.wait with
    | some (.fault _) => false
    | _ => !b.atTail
  if b.mode == .task && (b.st == .running || b.st == .parked) && waits then b.due.find? fun d => d.cause == 43 else none

/-- REPLAY_READY (R342): before the next instruction, or at the instruction on which the bank waits by R199. -/
def tryReplayReady (core bank : Nat) (s : State) : Option State := do
  let bk := bankKey core bank
  let d ← (s.bank bk).replayDue
  if !s.works core then none
  let s := if (s.bank bk).st = .parked then s.passFresh bk else s
  return takeTrap (s.modBank bk fun b => { b with due := b.due.erase d }) bk 43 d.tval

/-- REPLAY_READY (R342). -/
def execReplayReady (core bank : Nat) (s : State) : Out := event s (tryReplayReady core bank s)

end Sys2Proof.Machine
end

