-- ==== Sys2Proof/Machine/Lehr.lean ====
section
/-!
DEFINITION. Machine/Lehr.lean: slots, cuts and seals (R350 to R359), loss and resumption of a core (R360 to R363), efence
(R370, R371).
-/

namespace Sys2Proof.Machine

/-! ### Slots (R351 to R354) -/

/-- Slot `k` of a core's pair. -/
def State.slot (s : State) (ck k : Nat) : Slot := SMap.get Slot.cleared s.slots (2 * ck + k)
def State.setSlot (s : State) (ck k : Nat) (h : Slot) : State := { s with slots := SMap.put s.slots (2 * ck + k) h }

/-- The context whose core grant holds a core (R321). -/
def State.grantee (s : State) (ck : Nat) : Option Nat :=
  (List.range 64).find? fun c => (s.ctx c).cstate != 0 && (s.ctx c).part.toNat == keyPart ck && s.granted c (keyL ck)

/-- OWNER of R353. -/
def ownerWord (ck ctx : Nat) : BitVec 32 := BitVec.ofNat 32 (keyL ck * 256 + ctx)

/-- The validity check of R361. -/
def Slot.valid (h : Slot) (owner : BitVec 32) : Bool :=
  h.magic == 0x4C454852 && h.ver == 1 && h.commit == ~~~h.epoch && h.hcrc && h.owner == owner && h.blocksOk && h.body.isSome

/-- The newest valid slot of a core: its number and content. -/
def State.newest (s : State) (ck ctx : Nat) : Option (Nat × Slot) :=
  let ok (k : Nat) : Bool := (s.slot ck k).valid (ownerWord ck ctx)
  if ok 0 && ok 1 then
    (if (s.slot ck 0).epoch.toNat < (s.slot ck 1).epoch.toNat then some (1, s.slot ck 1) else some (0, s.slot ck 0))
  else if ok 0 then some (0, s.slot ck 0)
  else if ok 1 then some (1, s.slot ck 1)
  else none

/-- The header and content of an epoch while it is written: COMMIT is 0 (R358). -/
def Slot.begun (epoch scope flags pepoch tick : Nat) (owner : BitVec 32) (b : Sealed) : Slot where
  magic := 0x4C454852
  ver := 1
  scope := BitVec.ofNat 8 scope
  flags := BitVec.ofNat 8 flags
  epoch := w64 epoch
  pepoch := w64 pepoch
  owner := owner
  ndirty := Config.dirtyBlocks tick
  tick := w64 tick
  hcrc := false
  commit := 0
  blocksOk := false
  body := some b

/-- The slot once its seal is complete (R358). -/
def Slot.finished (h : Slot) : Slot := { h with hcrc := true, blocksOk := true, commit := ~~~h.epoch }

/-- The zeroed state of R322. -/
def Sealed.zero : Sealed := ⟨Core.reset, Bank.reset, Bank.reset, [], [], [], [], [], [], [], []⟩

/-- Epoch 0 of a shadowed core (R354). -/
def State.epochZero (s : State) (ck ctx : Nat) : State :=
  let h := (Slot.begun 0 0 0 (SMap.get 0 s.sealCount (keyPart ck)) s.tick (ownerWord ck ctx) Sealed.zero).finished
  (s.setSlot ck 0 h).setSlot ck 1 Slot.cleared

/-! ### Cuts (R357) -/

/-- A bank at a cut: between instructions, waiting for nothing. -/
def Bank.atCut (b : Bank) : Bank :=
  let b := if b.st = .parked && b.mode == .task then b.resumeCrew else b
  { b with st := if b.st = .parked then .running else b.st, wait := none, waitCount := 0, granted := false, pf := none }

/-- The copy-class commands of a cut: a page move not completed is handed over again. -/
def CCmd.atCut (k : CCmd) : CCmd := if k.kind = .migrate && !k.finished then { k with started := false } else k.toMark

/-- The words 17 (SEQ) of a context's group entries. -/
def Ctx.seqs (c : Ctx) : SMap Word := c.group.filter fun e => e.1 % 24 == 17

/-- The task has been popped on the core and has not been retired. -/
def Task.liveOn (t : Task) (ck : Nat) : Bool := (t.home.any fun h => keyCore h == ck) && t.st != .retired

/-- The content of an epoch of a core whose cut is now: its engine commands stand at their marks. -/
def State.cutOf (s : State) (ck ctx : Nat) : Sealed :=
  let t := ((s.resetVec ck).resetMat ck).resetCopy ck
  let c := t.core ck
  { core := { c with l1 := [], tlb := [], preload := [], cq := c.cq.map fun e => (e.1, e.2.map CCmd.atCut) }
    bank0 := (t.bank (2 * ck)).atCut
    bank1 := (t.bank (2 * ck + 1)).atCut
    spad := cellsIn s.mem (spadLoc ck 0) (2 ^ 23)
    cmd := cellsIn s.mem (microLoc ck 0) (2 ^ 15)
    imorg := c.imorg
    gseq := (s.ctx ctx).seqs
    work := s.work.filter fun w => w.core == ck
    tasks := s.tasks.filter fun e => e.2.liveOn ck
    queue := s.tasks.filter fun e => e.2.ctx == ctx && e.2.home.isNone && (e.2.st == .gated || e.2.st == .eligible)
    launches := (s.ctx ctx).launches }

/-- The content with the issuing bank past its pfence (R356): the epoch number in x[xd]. -/
def Sealed.pastPfence (b : Sealed) (bank : Nat) (xd : BitVec 5) (e : Nat) : Sealed :=
  let past (x : Bank) : Bank := (x.wx xd.toNat (w64 e)).pass (x.pc + 8)
  if bank = 0 then { b with bank0 := past b.bank0 } else { b with bank1 := past b.bank1 }

/-! ### Seals (R354, R358) -/

/-- The slot that a seal of a core writes, and its epoch. -/
def State.sealTarget (s : State) (ck ctx : Nat) : Nat × Nat :=
  match s.newest ck ctx with
  | some (k, h) => (1 - k, h.epoch.toNat + 1)
  | none => (1, 1)

/-- The header is written, and from now on the slot's old epoch is gone. -/
def State.writeHeader (s : State) (ck ctx scope flags : Nat) (b : Sealed) : State :=
  let t := s.sealTarget ck ctx
  s.setSlot ck t.1 (Slot.begun t.2 scope flags (SMap.get 0 s.sealCount (keyPart ck)) s.tick (ownerWord ck ctx) b)

/-- A seal begins. A core whose state is away is cut at its resumption (R369). -/
def State.beginSeal (s : State) (ck ctx scope : Nat) (waiter : Option Nat) (b : Sealed) : State :=
  let k := (s.sealTarget ck ctx).1
  let down := (s.core ck).down
  let s := if down then s else s.writeHeader ck ctx scope 0 b
  { s with seals := s.seals ++ [⟨ck, k, scope, waiter, down⟩] }

/-- A seal with PLANNED = 1, done before anything else happens (R360, R367). -/
def State.sealPlanned (s : State) (ck ctx : Nat) : State :=
  let t := s.sealTarget ck ctx
  let s := s.writeHeader ck ctx 1 1 (s.cutOf ck ctx)
  s.setSlot ck t.1 (s.slot ck t.1).finished

/-- The instance of a persistence scope, as far as the issuing context holds it and it is shadowed (R207, R356). -/
def State.pfenceSet (s : State) (ck ctx scope : Nat) : List Nat :=
  (List.range 64).filterMap fun l =>
    let k := 64 * keyPart ck + l
    let inside := match scope with
      | 1 => k == ck
      | 2 => l / 16 == keyL ck / 16
      | 3 => l / 32 == keyL ck / 32
      | _ => true
    if inside && s.granted ctx l && (s.core k).shadowed then some k else none

/-- A pfence that has begun: it completes when no seal of its set is in progress. -/
def pfenceEnd (s : State) (f : FSc) (set : List Nat) (e : Nat) (torn : Bool) : Except Stop State := do
  let bk := s.me
  need (condHolds s (.sealed set)) (.wait (.sealed set))
  let p := keyPart (keyCore bk)
  let s : State := if f.scope = 4 then { s with sealCount := SMap.put s.sealCount p (SMap.get 0 s.sealCount p + 1) } else s
  return (s.modBank bk fun b => { b with pf := none }).wx bk f.xd (w64 (e + if torn then 2 ^ 63 else 0))

/-- PFENCE (R356): each core of the set is cut as the seals begin. -/
def execPfence (c : Ctl) (f : FSc) (s : State) : Out :=
  perform s 8 do
    let bk := s.me
    let ck := keyCore bk
    let ctx := s.ctxOf bk
    let set := s.pfenceSet ck ctx f.scope.toNat
    match (s.bank bk).pf with
    | some (e, torn) => pfenceEnd s f set e torn
    | none =>
      let s' ← ccStart s c
      need (1 ≤ f.scope.toNat && f.scope.toNat ≤ 4) (badOp 0x18 61)
      need (s.core ck).shadowed (badOp 0x18 61)
      need (condHolds s (.sealed set)) (.wait (.sealed set))
      let e := (s.sealTarget ck ctx).2
      let s' := set.foldl (fun t k =>
        let b := s'.cutOf k ctx
        t.beginSeal k ctx f.scope.toNat (some bk) (if k = ck then b.pastPfence (keyBank bk) f.xd e else b)) s'
      throw (.block (s'.modBank bk fun b => { b with pf := some (e, false) }) (.sealed set))

/-- A pfence in progress on a bank learns that a core of its set resumed meanwhile. -/
def State.tearPfence (s : State) (bk : Nat) : State :=
  let tear (b : Bank) : Bank := { b with pf := b.pf.map fun p => (p.1, true) }
  { s.modBank bk tear with
    tasks := s.tasks.map fun e =>
      (e.1, { e.2 with image := e.2.image.map fun im => if im.bankKey = bk then { im with bank := tear im.bank } else im }) }

/-- SEAL_COMPLETE (R358). -/
def trySealComplete (core : Nat) (s : State) : Option State := do
  let x ← s.seals.find? fun x => x.core == core
  if (s.core core).down || (s.core core).halted then none
  let s := s.setSlot core x.slot (s.slot core x.slot).finished
  let s := { s with seals := s.seals.erase x }
  match x.waiter with
  | some bk => return if x.torn then s.tearPfence bk else s
  | none => return s

/-- SEAL_COMPLETE (R358). -/
def execSealComplete (core : Nat) (s : State) : Out := event s (trySealComplete core s)

/-! ### Uncorrectable errors and efence (R370, R371) -/

/-- Where the byte at a generic address of a task lies; none where the address leads to no memory (R37, R38). -/
def State.locOf (s : State) (ag : Agent) (va : Word) : Option Nat :=
  match parseWindow s ag va with
  | none => none
  | some (_, .spad key off) => some (spadLoc key off)
  | some (_, .glob a) => match xlatCtx s ag.ctx (keyPart ag.key) .read va a with
    | .ok p => some p.loc
    | .error _ => none

/-- UNCORRECTABLE_ERROR (R370): the operation goes on; the error is recorded and pending for a task that has not reached
its tail. The sector of a read keeps its error for the walkers (R336). -/
def tryUncorrectableError (uid : Nat) (va : Word) (write : Bool) (s : State) : Option State := do
  let t ← s.task uid
  if t.st == .retired then none
  let h := t.home.getD 0
  let s := match if write then none else s.locOf (s.agentFor h uid true) va with
    | some a => { s with bad := if s.bad.contains (sectorOf a) then s.bad else sectorOf a :: s.bad }
    | none => s
  let s := s.errorRecord t.ctx (s.ctrlOf t.ctx t.lslot) 5 (keyL (keyCore h)) (keyBank h) t.wid 0 va 0
  return if t.st = .retiring then s else s.modTask uid fun t => { t with errs := t.errs ++ [(va, write)] }

/-- UNCORRECTABLE_ERROR (R370). -/
def execUncorrectableError (uid : Nat) (va : Word) (write : Bool) (s : State) : Out :=
  event s (tryUncorrectableError uid va write s)

/-- The checks and the wait of an efence: x[xa] and the pending errors. -/
def efenceReady (s : State) (c : Ctl) (f : FSc) : Except Stop (State × Nat × List (Word × Bool)) := do
  let s' ← ccStart s c
  let bk := s.me
  need (f.scope == 0) (badOp 0x18 61)
  let v := (s.rx bk f.xa).toNat
  need (decide (v ≤ 1)) (badOp 0x19 51)
  let uid := (s.bank bk).uid.getD 0
  need (condHolds s (.idle uid)) (.wait (.idle uid))
  return (s', v, ((s.task uid).map (·.errs)).getD [])

/-- EFENCE (R371). -/
def execEfence (c : Ctl) (f : FSc) (s : State) : Out :=
  let uid := (s.bank s.me).uid.getD 0
  match efenceReady s c f with
  | .ok (_, 0, (a, w) :: es) => .next (takeTrap (s.modTask uid fun t => { t with errs := es }) s.me (if w then 7 else 5) a)
  | r => perform s 8 (r.map fun x => (x.1.modTask uid fun t => { t with errs := [] }).wx s.me f.xd (w64 x.2.2.length))

/-! ### Loss of a core's state (R360, R367) -/

/-- A bank of a core whose state is away: its timeline counters never fall but to a sealed value (R36), and its claims of
group-table entries stand until the core resumes or is lost. -/
def Bank.away (b : Bank) : Bank := { Bank.reset with tl := b.tl, hold := b.hold }

/-- All state of a core goes; its seals are abandoned, but one that another core's pfence waits for is made again at the
resumption (R369). A reset keeps the pacing registers (RWS: R11, R31). A gated core has nothing to lose. -/
def State.loseCore (s : State) (ck : Nat) : State :=
  let c := s.core ck
  if c.gated then s
  else
    let mem := cellsOut (cellsOut (cellsOut s.mem (spadLoc ck 0) (2 ^ 23)) (imemLoc ck 0) (2 ^ 18)) (microLoc ck 0) (2 ^ 15)
    let s : State := { s with
      mem := mem
      resv := s.resv.filter fun r => keyCore r.1 != ck
      work := s.work.filter fun w => w.core != ck
      moves := s.moves.filter fun m => m.core != ck
      seals := (s.seals.filter fun x => x.core != ck || x.waiter.any fun w => keyCore w != ck).map fun x =>
        if x.core = ck then { x with torn := true } else x }
    let s := s.setCore ck { c.kept with
      down := true, shadowed := c.shadowed, semTag := c.semTag, remote := c.remote, pace := c.pace, paceLost := c.paceLost,
      moduleLost := c.moduleLost }
    let s := (s.modBank (2 * ck) Bank.away).modBank (2 * ck + 1) Bank.away
    match s.grantee ck with
    | some ctx => s.modCtx ctx fun x => { x with rstat := 0 }
    | none => s

/-- The power of a core goes, and with it its pacing registers too: they are sealed state, as every CSR (R208, R352, R360). -/
def State.losePower (s : State) (ck : Nat) : State :=
  if (s.core ck).gated then s else (s.loseCore ck).modCore ck fun c => { c with pace := [], paceLost := true }

/-! ### Resumption (R361 to R363) -/

/-- A launch that has ended is taken back, into its slot or into a free one where another launch has it. -/
def State.reviveIn (s : State) (ctx uid lslot : Nat) : State :=
  let x := s.ctx ctx
  match x.past.find? fun p => p.1 == lslot && decide (p.2.first ≤ uid) with
  | none => s
  | some p =>
    let dst := if (SMap.find x.launches lslot).isNone then lslot
      else ((List.range 128).find? fun i => (SMap.find x.launches i).isNone).getD 127
    let below := ((SMap.find x.launches lslot).map (·.first)).getD s.fresh
    let mine (e : Nat × Task) : Bool :=
      e.2.ctx == ctx && e.2.lslot == lslot && decide (p.2.first ≤ e.1) && decide (e.1 < below)
    { s with tasks := s.tasks.map fun e => if mine e then (e.1, { e.2 with lslot := dst }) else e }.modCtx ctx fun c =>
      { c with launches := SMap.put c.launches dst p.2, past := c.past.erase p }

/-- The launch of a record is live, again if it has ended since. -/
def State.revive (s : State) (ctx uid lslot : Nat) : State :=
  match SMap.find (s.ctx ctx).launches lslot with
  | some l => if l.first ≤ uid then s else s.reviveIn ctx uid lslot
  | none => s.reviveIn ctx uid lslot

/-- Undoing the retirement of a record in LIVE (R363). -/
def State.undoRetirement (s : State) (uid : Nat) : State :=
  match s.task uid with
  | none => s
  | some t =>
    if t.st != .retired then s
    else
      let s := s.revive t.ctx uid t.lslot
      match s.task uid with
      | some t => if t.again.isSome then s else s.liveUp t.ctx t.lslot
      | none => s

/-- The launch of a record has been killed. -/
def State.killedTask (s : State) (uid : Nat) (t : Task) : Bool :=
  let x := s.ctx t.ctx
  (x.past.any fun p => p.1 == t.lslot && decide (p.2.first ≤ uid) && p.2.killed)
  || (SMap.find x.launches t.lslot).any fun l => decide (l.first ≤ uid) && l.killed

/-- A record of the content as it stands after the resumption: an image waits for nothing, since its faults are voided. -/
def Task.rolledBack (now : Task) (t : Task) (cycle : Nat) : Task :=
  let away := t.image.isSome
  { t with
    lslot := now.lslot
    gen := if away then now.gen + 1 else now.gen
    st := if away then .eligible else t.st
    since := cycle
    aged := 0
    reached := cycle
    image := t.image.map fun im => { im with bank := im.bank.atCut }
    phys := now.phys
    vouch := now.vouch
    vouchAt := now.vouchAt
    rerun := away
    fresh := away
    provisional := false }

/-- A queued record as its place in the record queue in HBM, which the host has restored, holds it (R253, R364); one that is not in the
queue stays as it is, and one whose place cannot be read is none. -/
def State.queuedAs (s : State) (ctx : Nat) (t : Task) : Option Task :=
  match t.recq with
  | none => some t
  | some i =>
    let a := (s.ctx ctx).recq.toNat + 32 * i
    match xlatCtx s ctx (s.ctx ctx).part.toNat .read (w64 a) (a % 2 ^ 57) with
    | .error _ => none
    | .ok p => some (t.fromRecord ((List.range 4).map fun i => s.readLoc (p.loc + 8 * i) 8))

/-- After a module loss, the records that the core's epoch holds and those of the restored record queue are there again, with
their launches (R364). Which places of the queue hold records the epoch tells: a place has no mark of its own (DESIGN CHOICE: log 28). -/
def State.restoreRecords (s : State) (ctx : Nat) (b : Sealed) : State :=
  let missing := (b.tasks ++ b.queue.filterMap fun e => (s.queuedAs ctx e.2).map fun t => (e.1, t)).filter fun e => (s.task e.1).isNone
  missing.foldl (fun s e =>
    let s : State := { s with tasks := SMap.put s.tasks e.1 { e.2 with since := s.cycle, aged := 0, reached := s.cycle, fresh := e.2.st == .eligible } }
    match SMap.find (s.ctx ctx).launches e.2.lslot, SMap.find b.launches e.2.lslot with
    | none, some l => s.modCtx ctx fun c => { c with launches := SMap.put c.launches e.2.lslot l }
    | _, _ => s) s

/-- What a resumption at epoch `e` does to a record (R363). -/
def State.rollTask (ck e : Nat) (b : Sealed) (s : State) (x : Nat × Task) : State :=
  let (uid, t) := x
  match if (SMap.find b.tasks uid).isSome then some (2 * ck) else t.home with
  | none =>
    if t.parent.any (fun p => p.1 == ck && decide (e ≤ p.2)) && (t.st == .gated || t.st == .eligible) then
      (s.modTask uid Task.retireUnrun).liveDown t.ctx t.lslot 1
    else s
  | some h =>
    if keyCore h != ck then s
    else if s.killedTask uid t then
      if t.st = .retired then s else (s.modTask uid Task.retireUnrun).liveDown t.ctx t.lslot 1
    else match SMap.find b.tasks uid with
      | some old => (s.undoRetirement uid).modTask uid fun now => now.rolledBack old s.cycle
      | none =>
        if t.popEpoch < e then s
        else (s.undoRetirement uid).modTask uid fun now =>
          { now with st := .eligible, gen := now.gen + 1, image := none, since := s.cycle, aged := 0, reached := s.cycle, errs := [],
                     rerun := true, fresh := true, provisional := false }

/-- Commands and banks of killed tasks leave the restored core. -/
def State.dropKilled (s : State) (ck : Nat) : State :=
  let gone (uid : Nat) : Bool := ((s.task uid).map fun t => t.st == .retired).getD true
  let free (s : State) (bk : Nat) : State :=
    match (s.bank bk).uid with
    | some u => if gone u then s.freeBank bk ((s.task u).map (·.ctx) |>.getD 64) else s
    | none => s
  let s := free (free s (2 * ck)) (2 * ck + 1)
  s.modCore ck fun c =>
    let us := ((c.vq.map (·.uid)) ++ (c.mq.map (·.uid)) ++ (c.cq.flatMap fun e => e.2.map (·.uid)) ++ (c.kq.map (·.uid))
      ++ (c.tracker.map (·.uid)) ++ (c.rounds.map fun r => r.2.uid)).eraseDups.filter gone
    let c := us.foldl (fun c u => (c.dropTask u).releaseSlots u) c
    { c with tracker := c.tracker.filter fun t => !gone t.uid, rounds := c.rounds.filter fun r => !gone r.2.uid }

/-- Faults of a core's accesses are voided (R363). -/
def voidFaults (ck : Nat) (fs : List FaultRec) : List FaultRec :=
  (fs.map fun f => { f with waiters := f.waiters.filter fun w => keyCore w.2.1 != ck || w.1 == .coll && w.2.2.1 != 0 }).filter
    fun f => !f.waiters.isEmpty

/-- Accesses that waited on a fault are performed again (R361). -/
def Bank.retryAll (b : Bank) : Bank :=
  { b with
    replay := b.replay.map fun r => { r with ready := true }
    due := b.due ++ (b.replay.filter fun r => !r.ready).map fun r => ⟨43, r.va⟩
    streams := b.streams.map fun e => (e.1, { e.2 with parked := none }) }
def Core.retryAll (c : Core) : Core :=
  { c with
    cq := c.cq.map fun e => (e.1, e.2.map fun k => { k with fault := none })
    kq := c.kq.map fun k => { k with fault := none }
    tracker := c.tracker.map fun t => { t with left := t.left.retryAll } }

/-- The core whose scratchpad an origin names (R355). -/
def originCore (ck : Nat) (o : Word) : Option Nat := if bits o 62 60 = 5 then some (64 * keyPart ck + bits o 59 54) else none

/-- The bytes of an instruction-memory block, read from its origin, a global address through the context's translation (R361):
none where any access faults, meets an uncorrectable error, or gets an error completion from host memory. -/
def State.originBytes (s : State) (ck ctx : Nat) (o : Word) : Option (List Byte) :=
  match originCore ck o with
  | some k =>
    let a := spadLoc k (bits o 22 0)
    if s.granted ctx (keyL k) && decide (bits o 22 0 + 4096 ≤ 2 ^ 23) && s.bad.all fun x => decide (x < sectorOf a) || decide (sectorOf (a + 4095) < x) then
      some (Memory.readList s.mem a 4096)
    else none
  | none =>
    ((List.range 1024).mapM fun i =>
      let a := bits o 56 0 + 4 * i
      match xlatCtx s ctx (keyPart ck) .read (w64 a) a with
      | .ok p => if s.bad.contains (sectorOf p.loc) || s.hostBad.contains (sectorOf p.loc) then none else some (Memory.readList s.mem p.loc 4)
      | .error _ => none).map List.flatten

/-- The instruction memory of a core filled from its origins; none where an origin is missing or fails. -/
def State.refill (s : State) (ck ctx : Nat) (imorg : SMap Word) : Option State :=
  (List.range 64).foldl (fun r i => r.bind fun (t : State) =>
    let o := SMap.get 0 imorg i
    if !bitAt o 63 then none
    else (s.originBytes ck ctx o).map fun bs => { t with mem := Memory.writeList t.mem (imemLoc ck (4096 * i)) bs }) (some s)

/-- SEQ of the group entries that a core's banks hold (R361). -/
def State.restoreSeq (s : State) (ctx : Nat) (b : Sealed) : State :=
  (List.range 256).foldl (fun s g =>
    if bitAt b.bank0.hold g || bitAt b.bank1.hold g then s.setEntryWord ctx g 17 (SMap.get 0 b.gseq (24 * g + 17)) else s) s

/-- The units of a core loaded from a content; the timeline counters are those of the content, the one decrease that R36 admits. The
pacing registers keep their values over a reset (RWS); where the power of the core was away they are those of the content. -/
def State.loadCore (s : State) (ck : Nat) (b : Sealed) : State :=
  let c := s.core ck
  let s := s.setCore ck { b.core.retryAll with
    down := false, halted := c.halted, gated := false, shadowed := true, allow := c.allow, rotateTick := c.rotateTick,
    semTag := c.semTag, remote := c.remote, imorg := b.imorg, pace := if c.paceLost then b.core.pace else c.pace, paceLost := false,
    moduleLost := false, sigma := c.sigma, clk32 := c.clk32, clkAt := c.clkAt }
  let s := (s.setBank (2 * ck) b.bank0.retryAll).setBank (2 * ck + 1) b.bank1.retryAll
  let mem := (b.spad ++ b.cmd).foldl (fun m e => Memory.write m e.1 e.2)
    (cellsOut (cellsOut s.mem (spadLoc ck 0) (2 ^ 23)) (microLoc ck 0) (2 ^ 15))
  { s with mem := mem, work := s.work ++ b.work }

/-- One more core resumed (field 0) or lost (field 8) in RSTAT. -/
def State.countResumed (s : State) (ctx lo : Nat) : State :=
  s.modCtx ctx fun c => { c with rstat := c.rstat + w64 (2 ^ lo) }

/-- The banks of a lost core are reset; its counters pass the numbers of the commands that were lost (R36, R346). -/
def Bank.passLost (b : Bank) : Bank :=
  { Bank.reset with tl := b.tl.map fun e => (e.1, ⟨e.2.last, e.2.last, []⟩) }

/-- Seals of the core that other cores' pfences wait for are cut at its resumption (R369), with the scope of their pfence. -/
def State.recut (s : State) (ck ctx : Nat) : State :=
  (s.seals.filter fun x => x.core == ck).foldl (fun s x =>
    let k := (s.sealTarget ck ctx).1
    let s := s.writeHeader ck ctx x.scope 0 (s.cutOf ck ctx)
    { s with seals := s.seals.map fun y => if y = x then { x with slot := k } else y }) s

/-- The loss of a core's state (R362): the tasks resident on it end as a kill ends them, with LERR_LOST and a record of kind
10; a shadowed core has a new epoch 0, and is cut again for the pfences that wait for it (R369). -/
def State.lost (s : State) (ck ctx epoch : Nat) : State :=
  let c := s.core ck
  let mine := (s.tasks.filter fun e => (e.2.home.any fun h => keyCore h == ck) && (e.2.st == .running || e.2.st == .retiring)).map (·.1)
  let s := s.setCore ck { c.kept with shadowed := c.shadowed, semTag := c.semTag, remote := c.remote, pace := c.pace }
  let s := ((s.modBank (2 * ck) Bank.passLost).modBank (2 * ck + 1) Bank.passLost).settleHeld ctx
  let s : State := { s with faults := voidFaults ck s.faults, heldFaults := voidFaults ck s.heldFaults }
  let s := mine.foldl (fun s u => match s.task u with
    | none => s
    | some t =>
      let s := (s.setErr t.ctx t.lslot 15 false).dropRequest u
      (s.modTask u Task.retireUnrun).liveDown t.ctx t.lslot 1) s
  let s := (s.errorRecord ctx 0 10 (keyL ck) 0 (w64 epoch) 0 0 0).countResumed ctx 8
  if c.shadowed then (s.epochZero ck ctx).recut ck ctx else s

/-- A torn slot of a core that resumes is of no further use: the next seal numbers it again. -/
def State.clearTorn (s : State) (ck ctx k : Nat) : State :=
  if (s.slot ck (1 - k)).valid (ownerWord ck ctx) then s else s.setSlot ck (1 - k) Slot.cleared

/-- resume(l) of R361, with the settlement of R363. -/
def State.resume (s : State) (ck ctx : Nat) : State :=
  match s.newest ck ctx with
  | none => s.lost ck ctx 0
  | some (k, h) =>
    match h.body with
    | none => s.lost ck ctx 0
    | some b =>
      match (s.loadCore ck b).refill ck ctx b.imorg with
      | none => s.lost ck ctx h.epoch.toNat
      | some t =>
        let t := ((t.restoreSeq ctx b).clearTorn ck ctx k).restoreRecords ctx b
        let t : State := { t with faults := voidFaults ck t.faults, heldFaults := voidFaults ck t.heldFaults }
        let t := ((t.tasks.foldl (State.rollTask ck h.epoch.toNat b) t).dropKilled ck).servedBy ck (t.physOf ck)
        let t := ((t.errorRecord ctx 0 9 (keyL ck) 0 h.epoch 0 0 h.pepoch).countResumed ctx 0).settleHeld ctx
        t.recut ck ctx

/-- An origin of the core's newest epoch lies in the scratchpad of another core whose power is away: the access waits (R360). -/
def State.refillWaits (s : State) (ck ctx : Nat) : Bool :=
  ((s.newest ck ctx).bind fun p => p.2.body).any fun b =>
    b.imorg.any fun o => bitAt o.2 63 && (originCore ck o.2).any fun k => k != ck && (s.core k).down

/-- RESUMPTION (R361, R362): a core whose power is back resumes, or its state is lost; one in no core grant is zeroed, unless
the power of the module was away and a slot may still name a context. A context restored by the host resumes once it runs (R364). -/
def tryResumption (core : Nat) (s : State) : Option State := do
  let c := s.core core
  if !c.down || c.halted then none
  match s.grantee core with
  | none =>
    if c.moduleLost then none
    return ((s.setBank (2 * core) Bank.reset).setBank (2 * core + 1) Bank.reset).setCore core { c.kept with pace := c.pace }
  | some ctx =>
    if (s.ctx ctx).cstate == 1 || c.shadowed && s.refillWaits core ctx then none
    return if c.shadowed then s.resume core ctx else s.lost core ctx 0

/-- RESUMPTION (R361). -/
def execResumption (core : Nat) (s : State) : Out := event s (tryResumption core s)

end Sys2Proof.Machine
end

