-- ==== Sys2Proof/Machine/Traps.lean ====
section
/-!
DEFINITION. Machine/Traps.lean: instructions of the handler and the answers it waits for: ntrap, tret and brk (R331 to
R333), quiesce (R347), page-table updates (R338), fault answers and held faults (R341, R342).
-/

namespace Sys2Proof.Machine

/-! ### ntrap, tret, brk (R331 to R333) -/

/-- HREQ as ntrap posts it (R332). -/
def hreqWord (code : BitVec 16) (bk : Nat) (a : Word) : Word :=
  w64 (code.toNat * 2 ^ 48 + keyL (keyCore bk) * 2 ^ 40 + keyBank bk * 2 ^ 39 + bits a 31 0)

/-- The request of a handler (R332): it releases, waits to post, posts, and waits for its answer. -/
def ntrapRequest (s s' : State) (f : FSs) : Except Stop State := do
  let bk := s.me
  let ctx := s.ctxOf bk
  let uid := (s.bank bk).uid.getD 0
  match (s.bank bk).hans with
  | some v => return (s'.modBank bk fun b => { b with hans := none }).wx bk f.xd v
  | none =>
    need ((s.ctx ctx).req != some ⟨some (bk, uid)⟩) (.wait (.hans ctx bk))
    let s' := s'.release (s.agent bk) 5
    need (s.ctx ctx).req.isNone (.block s' (.hreqFree ctx))
    let s' := s'.modCtx ctx fun c => { c with hreq := hreqWord f.code bk (s.rx bk f.xa), req := some ⟨some (bk, uid)⟩ }
    throw (.block (s'.signal (4 * ctx + 2)) (.hans ctx bk))

/-- NTRAP (R332). -/
def execNtrap (c : Ctl) (f : FSs) (s : State) : Out :=
  perform s 8 do
    let s' ← ccStart s c
    match (s.bank s.me).mode with
    | .task => throw (.trap 42 (w64 (f.code.toNat * 2 ^ 48 + bits (s.rx s.me f.xa) 47 0)))
    | .handler => ntrapRequest s s' f

/-- HANS (R332): the answer of the posted request; one whose requester a kill has ended reaches no task. -/
def tryHans (ctx : Nat) (value : Word) (s : State) : Option State :=
  match (s.ctx ctx).req with
  | none => none
  | some r =>
    let s := s.modCtx ctx fun c => { c with req := none, hreq := 0 }
    match r.who with
    | some (bk, uid) => some (s.modHome bk uid fun b => { b with hans := some value })
    | none => some s

/-- HANS (R332). -/
def execHans (ctx : Nat) (value : Word) (s : State) : Out := hostEvent s (.writeBar (ctxOff ctx 0x0E0) value) (tryHans ctx value s)

/-- TRET (R331). -/
def execTret (c : Ctl) (_f : FSs) (s : State) : Out :=
  match (do let s' ← ccStart s c; checkPriv s; pure s') with
  | .ok s' => .next (s'.modBank s.me fun b => { b.trapReturn with prevMat := none })
  | .error e => .next (settleStop s s.me e)

/-- BRK (R333). -/
def execBrk (c : Ctl) (f : FSs) (s : State) : Out :=
  perform s 8 do
    let _ ← ccStart s c
    throw (.trap 3 (f.code.setWidth 64))

/-- QUIESCE (R347). -/
def execQuiesce (c : Ctl) (f : FSs) (s : State) : Out :=
  perform s 8 do
    let s' ← ccStart s c
    let ctx := s.ctxOf s.me
    let v := s.rx s.me f.xa
    need (condHolds s (.qtlGe ctx v)) (.wait (.qtlGe ctx v))
    return (s'.acquire (keyCore s.me) 4).wx s.me f.xd (w64 (s.ctx ctx).qtl)

/-! ### Page-table updates (R338) -/

/-- Two ranges of addresses meet. -/
def spansMeet (a n b m : Nat) : Bool := decide (0 < n) && decide (0 < m) && decide (a < b + m) && decide (b < a + n)

/-- Leaves that give some access to addresses of a range, under the entries that a walk passes (R336): the page, its level and the
entry. -/
def leavesIn (s : State) (part ctx lo n : Nat) : List Nat → Nat → Nat → List (Nat × Nat × Word)
  | [], _, _ => []
  | l :: ls, table, base =>
    (List.range (if l = 0 then 32 else 512)).flatMap fun i =>
      let page := base + i * 2 ^ levelShift l
      let ea := memLoc part (table + 8 * i)
      let e := w64 (s.readLoc ea 8)
      if !spansMeet lo n page (2 ^ levelShift l) || s.bad.contains (sectorOf ea) || pteCause s ctx l e .read != 0 then []
      else if bitAt e 1 then [(page, l, e)]
      else leavesIn s part ctx lo n ls (bits e 55 16 * 2 ^ 16) page

/-- The locations that a page with this leaf names; none is uncached or a scratchpad. -/
def leafSpan (part : Nat) (x : Nat × Nat × Word) : Option (Nat × Nat) :=
  let p := leafPlace part x.2.2 x.2.1 0
  if p.cached then some (p.loc, 2 ^ levelShift x.2.1) else none

/-- The locations of a range of addresses under both mappings (R338): the cached translations, the tables as they stand,
and the heap. -/
def tlbinvSpans (s : State) (part ctx lo n : Nat) : List (Nat × Nat) :=
  let held := (SMap.get [] s.tlb2 part) ++ s.cores.flatMap fun c => if keyPart c.1 = part then c.2.tlb else []
  let cached := (held.filter fun t => t.ctx == ctx && spansMeet lo n t.page t.size && pteCause s ctx (tlbLevel t) t.pte .read == 0).filterMap
    fun t => leafSpan part (t.page, tlbLevel t, t.pte)
  let x := s.ctx ctx
  let tables := if x.ptbr = 0 || s.memSize ≤ x.ptbr.toNat then [] else
    (leavesIn s part ctx lo n [4, 3, 2, 1, 0] x.ptbr.toNat 0).filterMap (leafSpan part)
  let a := max lo x.heapb.toNat
  let e := min (lo + n) (x.heapb.toNat + x.heapl.toNat)
  let heap := if x.heapl != 0 && decide (a < e) then [(memLoc part ((a + x.heapo.toNat) % 2 ^ 40), e - a)] else []
  cached ++ tables ++ heap

/-- A location list holds a sector. -/
def inSpans (spans : List (Nat × Nat)) (sec : Nat) : Bool := spans.any fun x => spansMeet x.1 x.2 (32 * sec) 32

/-- Publishing the sectors of locations, and dropping every L1 and preload copy of them. -/
def State.flushSpans (s : State) (spans : List (Nat × Nat)) : State :=
  { s with
    dir := SMap.erase s.dir (inSpans spans)
    cores := s.cores.map fun c =>
      (c.1, { c.2 with l1 := SMap.erase c.2.l1 (inSpans spans), preload := dropStaged (inSpans spans) c.2.preload }) }

/-- Invalidating the cached translations of a context that meet a range, in every core of its partition and in its L2 TLB. -/
def State.flushTlb (s : State) (part ctx lo n : Nat) : State :=
  let keep (t : TlbEntry) : Bool := !(t.ctx == ctx && spansMeet lo n t.page t.size)
  { s with
    cores := s.cores.map fun c => if keyPart c.1 = part then (c.1, { c.2 with tlb := c.2.tlb.filter keep }) else c
    tlb2 := s.tlb2.map fun e => if e.1 = part then (e.1, e.2.filter keep) else e }

/-- A page-table update over a range of addresses. -/
def tlbinv (s s' : State) (lo n : Nat) : State :=
  let ag := s.agent s.me
  let part := keyPart ag.key
  let s' := s'.release ag 4
  let spans := tlbinvSpans s' part ag.ctx lo n
  ((s'.flushSpans spans).flushTlb part ag.ctx lo n).acquire ag.key 4

/-- TLBINV_ALL (R338). -/
def execTlbinvAll (c : Ctl) (_f : FSs) (s : State) : Out :=
  perform s 8 do
    let s' ← ccStart s c
    checkPriv s
    return tlbinv s s' 0 (2 ^ 57)

/-- TLBINV_RANGE (R338). -/
def execTlbinvRange (c : Ctl) (f : FSs) (s : State) : Out :=
  perform s 8 do
    let s' ← ccStart s c
    checkPriv s
    return tlbinv s s' (s.rx s.me f.xa).toNat (s.rx s.me f.xb).toNat

/-! ### Fault answers (R341, R342) -/

/-- A trap that a bank takes before its next instruction, after those already due. -/
def Bank.addDue (b : Bank) (cause : Nat) (v : Word) : Bank := { b with due := b.due ++ [⟨cause, v⟩] }

/-- The change of the copy-class or collective commands that wait on a record. -/
def mapCopies (tag : Nat) (f : CCmd → CCmd) (c : Core) : Core :=
  { c with cq := c.cq.map fun e => (e.1, e.2.map fun k => if k.fault = some tag then f k else k) }
def mapColls (tag : Nat) (f : KCmd → KCmd) (c : Core) : Core :=
  { c with kq := c.kq.map fun k => if k.fault = some tag then f k else k }

/-- RETRY for one coalesced access. -/
def retryOne (f : FaultRec) (s : State) (w : FaultUnit × Nat × Nat × Nat) : State :=
  let bk := w.2.1
  let uid := w.2.2.2
  match w.1 with
  | .core => s
  | .preload => s.dropPreload uid
  | .vector =>
    s.modHome bk uid fun b =>
      let b' : Bank := { b with replay := b.replay.map fun r => if r.tag = f.tag then { r with ready := true } else r }
      if b.replay.any fun r => r.tag == f.tag && !r.ready then b'.addDue 43 f.va else b'
  | .copy => s.modCore (keyCore bk) (mapCopies f.tag fun k => { k with fault := none })
  | .stream =>
    s.modHome bk uid fun b =>
      { b with streams := b.streams.map fun e => if e.2.parked = some f.tag then (e.1, { e.2 with parked := none }) else e }
  | .coll =>
    if w.2.2.1 = 0 then s.modCore (keyCore bk) (mapColls f.tag fun k => { k with fault := none })
    else
      let s : State := { s with groups := s.groups.map fun e => if e.2.fault = some f.tag then (e.1, { e.2 with fault := none }) else e }
      s.settleGroups

/-- A round whose log was denied ends (R310). -/
def denyGroups (tag : Nat) (s : State) : State :=
  (s.groups.foldl (fun s e => if e.2.fault = some tag then
    let x := endRound s e.1 { e.2 with fault := none } e.2.openTag 36
    x.1.setGroup e.1 x.2 else s) s).settleGroups

/-- DENY for one coalesced access. -/
def denyOne (f : FaultRec) (s : State) (w : FaultUnit × Nat × Nat × Nat) : State :=
  let bk := w.2.1
  let uid := w.2.2.2
  match w.1 with
  | .preload => s
  | .core => s.modHome bk uid fun b => b.addDue 41 f.va
  | .vector =>
    let owners := (((s.home bk uid).getD Bank.reset).replay.filter fun r => r.tag == f.tag).map (·.tl)
    let s := s.modHome bk uid fun b => { b with replay := b.replay.filter fun r => r.tag != f.tag }
    s.modCore (keyCore bk) fun c =>
      { c with vq := c.vq.map fun v => if v.uid == uid && owners.contains v.tl then { v with stop := some (41, f.va) } else v }
  | .copy => s.modCore (keyCore bk) (mapCopies f.tag fun k => { k with fault := none, stop := some (41, f.va) })
  | .stream =>
    s.modHome bk uid fun b =>
      { b with streams := b.streams.map fun e =>
          if e.2.parked = some f.tag then (e.1, { e.2 with parked := none, stop := 5, stopCause := 41, stopAddr := f.va }) else e }
  | .coll =>
    if w.2.2.1 = 0 then s.modCore (keyCore bk) (mapColls f.tag fun k => { k with fault := none, stop := some (41, f.va) })
    else denyGroups f.tag s

/-- The unanswered record of a context with a tag. -/
def State.unanswered (s : State) (ctx tag : Nat) : Option FaultRec :=
  s.faults.find? fun f => f.tag == tag && f.ctx == ctx

/-- Answering a record (R342): it leaves the fault buffer. -/
def State.answerFault (s : State) (f : FaultRec) (deny : Bool) : State :=
  let s : State := { s with faults := s.faults.filter fun g => g.tag != f.tag }
  if deny then f.waiters.foldl (denyOne f) s
  else
    -- an offset in a frame is translated at the frame's address, which lies in the record's page
    let a := if bits f.va 63 60 = 0 then f.va.toNat % 2 ^ 57 else f.page
    f.waiters.foldl (retryOne f) (s.flushTlb (s.ctx f.ctx).part.toNat f.ctx a 1)

/-- FLTANS (R342). -/
def execFltans (c : Ctl) (f : FSs) (s : State) : Out :=
  perform s 8 do
    let s' ← ccStart s c
    checkPriv s
    let answer := (s.rx s.me f.xb).toNat
    need (decide (answer ≤ 1)) (badOp 0x19 49)
    let ag := s.agent s.me
    let s' := s'.release ag 4
    match s'.unanswered ag.ctx (bits (s.rx s.me f.xa) 31 0) with
    | some r => return (s'.answerFault r (answer == 1)).wx s.me f.xd 0
    | none => return s'.wx s.me f.xd 1

/-- The host's answer to a record (R342): RETRY or DENY. -/
def tryFans (ctx : Nat) (tag : BitVec 32) (deny : Bool) (s : State) : Option State :=
  (s.unanswered ctx tag.toNat).map fun r => s.answerFault r deny

/-- FANS_RETRY (R342). -/
def execFansRetry (ctx : Nat) (tag : BitVec 32) (s : State) : Out :=
  hostEvent s (.writeBar (ctxOff ctx 0x0E8) (w64 (tag.toNat * 2 ^ 32))) (tryFans ctx tag false s)

/-- FANS_DENY (R342). -/
def execFansDeny (ctx : Nat) (tag : BitVec 32) (s : State) : Out :=
  hostEvent s (.writeBar (ctxOff ctx 0x0E8) (w64 (tag.toNat * 2 ^ 32 + 1))) (tryFans ctx tag true s)

/-- HELD_FAULT_POST (R341): the oldest held fault posts, or joins the unanswered record it coalesces with. -/
def tryHeldFaultPost (s : State) : Option State :=
  match s.heldFaults with
  | [] => none
  | f :: fs =>
    if 4096 ≤ s.faults.length then none
    else
      let s : State := { s with heldFaults := fs }
      match s.faults.find? f.joins with
      | some g =>
        let s : State := { s with
          faults := s.faults.map fun h =>
            if h.tag = g.tag then { h with nwait := min (h.nwait + f.nwait) 0xFFFF, waiters := h.waiters ++ f.waiters } else h }
        some (s.bindWaiters f.tag g.tag f.waiters)
      | none =>
        let r := s.postRecord f
        some (r.1.bindWaiters f.tag r.2 f.waiters)

/-- HELD_FAULT_POST (R341). -/
def execHeldFaultPost (s : State) : Out := event s (tryHeldFaultPost s)

end Sys2Proof.Machine
end

