-- ==== Sys2Proof/Machine/Kill.lean ====
section
/-!
DEFINITION. Machine/Kill.lean: kills (R345, R346), and the context block: CSTATE, CGRANT and slot pairs, launches and budgets
from the host, semaphore words and plain registers (R321 to R325, R351, R354, R364, R365).
-/

namespace Sys2Proof.Machine

/-! ### Kills (R345) -/

/-- Ending every object of a launch with an error code; the numbers of its discarded commands. -/
def State.endLaunch (s : State) (ctx slot code : Nat) : State × List (Nat × Nat × Nat) :=
  match SMap.find (s.ctx ctx).launches slot with
  | none => (s, [])
  | some l =>
    let unmade := l.total - l.made
    let s := s.setErr ctx slot code false
    let mine := s.tasks.filter fun e => e.2.ctx == ctx && e.2.lslot == slot && decide (l.first ≤ e.1) && e.2.st != .retired
    let s := s.modLaunch ctx slot fun l => { l with killed := true, made := l.total }
    let r := mine.foldl (fun (r : State × List (Nat × Nat × Nat)) e =>
      let x := r.1.endTask e.1
      (x.1, r.2 ++ x.2)) (s, [])
    (if unmade = 0 then r.1 else r.1.liveDown ctx slot unmade, r.2)

/-- Ending every launch of a context. -/
def State.endLaunches (s : State) (ctx code : Nat) : State × List (Nat × Nat × Nat) :=
  (s.ctx ctx).launches.foldl (fun (r : State × List (Nat × Nat × Nat)) l =>
    let x := r.1.endLaunch ctx l.1 code
    (x.1, r.2 ++ x.2)) (s, [])

/-- The launch slot whose status word a handle names. -/
def State.slotOf (s : State) (ctx : Nat) (ctrl : BitVec 32) : Option Nat :=
  ((s.ctx ctx).launches.find? fun l => l.2.ctrl == ctrl).map (·.1)

/-- A kill takes the next number of QTL. -/
def State.takeKill (s : State) (ctx : Nat) (whole : Bool) (nums : List (Nat × Nat × Nat)) : State :=
  s.modCtx ctx fun c => { c with qtlLast := c.qtlLast + 1, kills := c.kills ++ [⟨c.qtlLast + 1, whole, nums⟩] }

/-- Killing one launch; one that has ended, or a handle that names none, only takes a number. -/
def State.killLaunch (s : State) (ctx : Nat) (ctrl : BitVec 32) : State :=
  match s.slotOf ctx ctrl with
  | none => s.takeKill ctx false []
  | some slot =>
    let r := s.endLaunch ctx slot 13
    r.1.takeKill ctx false r.2

/-- Killing a context with an error code: its faults are voided, its ranks withdraw, and CSTATE is 3 (R346). -/
def State.killContext (s : State) (ctx code : Nat) : State :=
  let r := s.endLaunches ctx code
  let s : State := { r.1 with faults := r.1.faults.filter fun f => f.ctx != ctx, heldFaults := r.1.heldFaults.filter fun f => f.ctx != ctx }
  ((s.withdrawRanks ctx).takeKill ctx true r.2).modCtx ctx fun c => { c with cstate := 3, posts := [] }

/-- A kill by an instruction: Q is written to x[xd] before the killed task's bank is freed. -/
def State.killBy (s s' : State) (f : FSs) : State :=
  s'.wx s.me f.xd (w64 ((s.ctx (s.ctxOf s.me)).qtlLast + 1))

/-- KILL_LAUNCH (R345): CODE 0. -/
def execKillLaunch (c : Ctl) (f : FSs) (s : State) : Out :=
  perform s 8 do
    let s' ← ccStart s c
    checkPriv s
    let ctx := s.ctxOf s.me
    let h : BitVec 32 := (s.rx s.me f.xa).setWidth 32
    let _ ← semWord s ctx h 54
    return (s.killBy s' f).killLaunch ctx h

/-- KILL_CONTEXT (R345): CODE 1. -/
def execKillContext (c : Ctl) (f : FSs) (s : State) : Out :=
  perform s 8 do
    let s' ← ccStart s c
    checkPriv s
    return (s.killBy s' f).killContext (s.ctxOf s.me) 13

/-- A kill of a launch by the host, and of a context: a write of KILLC, or of 3 to CSTATE (R324, R345). -/
def tryKilll (ctx : Nat) (value : Word) (s : State) : Option State :=
  if (s.ctx ctx).cstate = 2 then some (s.killLaunch ctx (value.setWidth 32)) else none
def tryKillc (ctx : Nat) (s : State) : Option State := if (s.ctx ctx).cstate = 2 then some (s.killContext ctx 13) else none

/-- KILLL (R345). -/
def execKilll (ctx : Nat) (value : Word) (s : State) : Out := hostEvent s (.writeBar (ctxOff ctx 0x0B8) value) (tryKilll ctx value s)

/-- KILLC (R345). -/
def execKillc (ctx : Nat) (value : Word) (s : State) : Out := hostEvent s (.writeBar (ctxOff ctx 0x0C0) value) (tryKillc ctx s)

/-- CSTATE_KILL (R324). -/
def execCstateKill (ctx : Nat) (s : State) : Out := hostEvent s (.writeBar (ctxOff ctx 0) 3) (tryKillc ctx s)

/-! ### Core grants and slot pairs (R321, R322, R351, R354) -/

/-- A core that enters a grant: the zeroed state of R322. Its instruction memory keeps its bytes, without an origin. Its pacing
registers, which R322 does not name, are 0, their reset value (DESIGN CHOICE: log 28). -/
def State.zeroCore (s : State) (ck : Nat) : State :=
  let mem := cellsOut (cellsOut s.mem (spadLoc ck 0) (2 ^ 23)) (microLoc ck 0) (2 ^ 15)
  let s : State := { s with mem := mem }
  let s := (s.setCore ck (s.core ck).kept).setSigma ck 16
  (s.setBank (2 * ck) Bank.reset).setBank (2 * ck + 1) Bank.reset

/-- Cores of other contexts that hold a pair in a physical quadrant. -/
def State.pairsTaken (s : State) (ctx quad : Nat) : Nat :=
  (s.cores.filter fun c => c.2.shadowed && s.quadOf c.1 == quad && s.grantee c.1 != some ctx).length

/-- Whether the core has a pair: the first 18 of a physical quadrant, in ascending logical number (R351). -/
def State.hasPair (s : State) (ctx part grant l : Nat) : Bool :=
  let q := s.quadOf (64 * part + l)
  let before := ((List.range l).filter fun k => grant.testBit k && s.quadOf (64 * part + k) == q).length
  decide (s.pairsTaken ctx q + before < 18)

/-- A core enters a grant: zeroed, with epoch 0 where it has a pair. In the restoration after a module loss, a core whose valid slot
names the context keeps both its slots and resumes later (R354, R364). -/
def State.enterGrant (s : State) (ctx : Nat) (ck : Nat) (pair : Bool) : State :=
  if pair && (s.core ck).down && (s.core ck).moduleLost && (s.newest ck ctx).isSome then s.modCore ck fun c => { c with shadowed := true }
  else
    let s := (s.zeroCore ck).modCore ck fun c => { c with shadowed := pair }
    if pair then s.epochZero ck ctx else s

/-- A new grant of a context: cores that leave lose their pairs, cores that enter are zeroed. -/
def State.regrant (s : State) (ctx part grant : Nat) : State :=
  let old := s.ctx ctx
  let stays (l : Nat) : Bool := old.part.toNat == part && bitAt old.cgrant l
  let pairs := (List.range 64).map fun l => grant.testBit l && s.hasPair ctx part grant l
  let t := (List.range 64).foldl (fun s l =>
    if bitAt old.cgrant l && !(stays l && grant.testBit l) then
      s.modCore (64 * old.part.toNat + l) fun c => { c with shadowed := false } else s) s
  let t := t.modCtx ctx fun c => { c with part := BitVec.ofNat 2 part, cgrant := w64 grant }
  (List.range 64).foldl (fun s l =>
    let ck := 64 * part + l
    let pair := pairs.getD l false
    if !grant.testBit l then s
    else if !stays l then s.enterGrant ctx ck pair
    else if pair == (s.core ck).shadowed then s
    else
      let s := s.modCore ck fun c => { c with shadowed := pair }
      if pair then s.epochZero ck ctx else s) t

/-- Another context of the partition holds a core of the mask. -/
def State.grantTaken (s : State) (ctx part : Nat) (grant : Word) : Bool :=
  (List.range 64).any fun c =>
    c != ctx && (s.ctx c).part.toNat == part && (s.ctx c).cstate != 0 && ((s.ctx c).cgrant &&& grant) != 0

/-- The host can reach the context blocks: the boot is done and the link is up (R396, R400). -/
def State.hostReady (s : State) : Bool := s.modl.boot == 6 && s.modl.linkUp

/-- The host can reach the block of a context: one of the 64 (R321, R397). -/
def State.hostReach (s : State) (ctx : Nat) : Bool := s.hostReady && decide (ctx < 64)

/-- CGRANT (R323, R351). -/
def tryCgrant (ctx : Nat) (value : Word) (s : State) : Option State :=
  let c := s.ctx ctx
  if s.hostReach ctx && c.cstate == 1 && !s.grantTaken ctx c.part.toNat value then
    some (s.regrant ctx c.part.toNat value.toNat) else none

/-- CGRANT (R323, R351). -/
def execCgrant (ctx : Nat) (value : Word) (s : State) : Out := hostEvent s (.writeBar (ctxOff ctx 0x008) value) (tryCgrant ctx value s)

/-! ### CSTATE (R324, R346, R364) -/

/-- A context becomes free: its grant, pairs and semaphore allocations are released, and its cached translations go with it: a
TLB holds entries of the context that made them, and of no later one of its number (R337; DEDUCED: log 31). -/
def State.freeContext (s : State) (ctx : Nat) : State :=
  let s := s.flushTlb (s.ctx ctx).part.toNat ctx 0 (2 ^ 57)
  (s.regrant ctx (s.ctx ctx).part.toNat 0).modCtx ctx fun c => { c with cstate := 0, sem0 := 0, sem1 := 0 }

/-- The heap lies inside the partition's logical memory (R334). -/
def State.heapFits (s : State) (ctx : Nat) : Bool :=
  let c := s.ctx ctx
  let a := (c.heapb.toNat + c.heapo.toNat) % 2 ^ 40
  c.heapl == 0 || decide (a + c.heapl.toNat ≤ s.memSize)

/-- CSTATE_CONFIGURE (R324). -/
def tryCstateConfigure (ctx : Nat) (s : State) : Option State :=
  if s.hostReach ctx && (s.ctx ctx).cstate == 0 then some (s.modCtx ctx fun c => { c with cstate := 1, ecount := 0 }) else none

/-- CSTATE_CONFIGURE (R324). -/
def execCstateConfigure (ctx : Nat) (s : State) : Out := hostEvent s (.writeBar (ctxOff ctx 0) 1) (tryCstateConfigure ctx s)

/-- CSTATE_RUN (R324, R364): restored cores resume, but for one whose refill waits for another core: it resumes by RESUMPTION. -/
def tryCstateRun (ctx : Nat) (s : State) : Option State :=
  let c := s.ctx ctx
  if s.hostReach ctx && c.cstate == 1 && s.heapFits ctx then
    let s := s.modCtx ctx fun c => { c with cstate := 2, rstat := 0 }
    some ((List.range 64).foldl (fun s l => (tryResumption (64 * c.part.toNat + l) s).getD s) s)
  else none

/-- CSTATE_RUN (R324, R364). -/
def execCstateRun (ctx : Nat) (s : State) : Out := hostEvent s (.writeBar (ctxOff ctx 0) 2) (tryCstateRun ctx s)

/-- CSTATE_FREE (R324). -/
def tryCstateFree (ctx : Nat) (s : State) : Option State :=
  if s.hostReach ctx && (s.ctx ctx).cstate == 1 then some (s.freeContext ctx) else none

/-- CSTATE_FREE (R324). -/
def execCstateFree (ctx : Nat) (s : State) : Out := hostEvent s (.writeBar (ctxOff ctx 0) 0) (tryCstateFree ctx s)

/-- No write of a context's killed objects is in flight (R346). -/
def State.killDrained (s : State) (ctx : Nat) : Bool :=
  (s.cores.all fun c => c.2.tracker.all fun t => !t.killed || (s.task t.uid).all fun k => k.ctx != ctx)
  && s.work.all fun w => !(w.fired && w.ctx == ctx && (s.core w.core).kq.all fun k =>
      !(k.bank == bankKey w.core w.bank && k.ch == w.ch && k.tl == w.tl && k.kind.isOp))
  && s.cores.all fun c => c.2.kq.all fun k => !(k.ctx == ctx && k.firing && s.ended k.uid)

/-- QTL_REACHED (R346): the counters pass the discarded numbers; a killed context becomes free. -/
def tryQtlReached (ctx : Nat) (s : State) : Option State :=
  match (s.ctx ctx).kills with
  | [] => none
  | k :: ks =>
    if !s.killDrained ctx then none
    else
      let s := (s.passNumbers k.nums).modCtx ctx fun c => { c with qtl := k.q, kills := ks }
      some (if k.whole then s.freeContext ctx else s)

/-- QTL_REACHED (R346). -/
def execQtlReached (ctx : Nat) (s : State) : Out := event s (tryQtlReached ctx s)

/-! ### Launches and budgets from the host (R248, R323) -/

/-- The header at a global address, read for a host post: none where an access faults. -/
def State.hostHeader (s : State) (ctx : Nat) (a : Word) : Option (List Word) :=
  (List.range 16).mapM fun i =>
    let va := a.toNat + 8 * i
    if 2 ^ 57 ≤ va then none
    else match xlatCtx s ctx (s.ctx ctx).part.toNat .read (w64 va) va with
      | .ok p => some (w64 (s.readLoc p.loc 8))
      | .error _ => none

/-- A host post is checked and its launch accepted, or an error record of kind 11 is written (R248). -/
def State.hostPost (s : State) (ctx : Nat) (a : Word) : State :=
  let fail (ctrl : Nat) (code : Nat) : State := s.errorRecord ctx ctrl 11 0 0 (w64 code) 0 a 0
  if a.toNat % 128 ≠ 0 then fail 0 0
  else match s.hostHeader ctx a with
    | none => fail 0 0
    | some h =>
      let code := launchCheck s ctx h none
      if code = 0 then s.acceptLaunch ctx h else fail (bits (Header.dw h 1) 31 0) code

/-- LAUNCH_DOORBELL (R248): while 64 launches are live, or an earlier post waits, the post waits. -/
def tryLaunchDoorbell (ctx : Nat) (a : Word) (s : State) : Option State :=
  let c := s.ctx ctx
  if !s.hostReach ctx || c.cstate != 2 then none
  else if c.freeSlot.isNone || !c.posts.isEmpty then some (s.modCtx ctx fun c => { c with posts := c.posts ++ [a] })
  else some (s.hostPost ctx a)

/-- The oldest waiting post of a context proceeds once a launch slot is free (R248). -/
def tryWaitingPost (ctx : Nat) (s : State) : Option State :=
  let c := s.ctx ctx
  match c.posts with
  | [] => none
  | a :: as => if c.freeSlot.isNone then none else some ((s.modCtx ctx fun c => { c with posts := as }).hostPost ctx a)

/-- LAUNCH_DOORBELL (R248). -/
def execLaunchDoorbell (ctx : Nat) (value : Word) (s : State) : Out :=
  hostEvent s (.writeBar (ctxOff ctx 0x0A8) value) (tryLaunchDoorbell ctx value s)

/-- LBUD (R323): ticks added to the remaining budget of a live launch; one that has ended goes on with them. -/
def tryLbud (ctx : Nat) (value : Word) (s : State) : Option State :=
  match s.slotOf ctx (value.setWidth 32) with
  | none => none
  | some slot => if !s.hostReach ctx then none else some (s.modLaunch ctx slot fun l =>
      { l with budget := l.budget.map (· + bits value 63 32), ended := l.ended && bits value 63 32 == 0 })

/-- LBUD (R323). -/
def execLbud (ctx : Nat) (value : Word) (s : State) : Out := hostEvent s (.writeBar (ctxOff ctx 0x0B0) value) (tryLbud ctx value s)

/-- SEMD (R365): the word at SEMA, while CSTATE is 1. -/
def trySemd (ctx : Nat) (value : Word) (s : State) : Option State :=
  let c := s.ctx ctx
  if s.hostReach ctx && c.cstate == 1 then
    (semKey s ctx (c.sema.setWidth 32)).join.map fun k => s.semWrite k value else none

/-- SEMD (R365). -/
def execSemd (ctx : Nat) (value : Word) (s : State) : Out := hostEvent s (.writeBar (ctxOff ctx 0x110) value) (trySemd ctx value s)

/-! ### Plain registers (R323, R325, R365, R401) -/

/-- Words that enter a context's allocation are zeroed (R322); the allocation wraps within its die (DESIGN CHOICE: log 49). -/
def State.zeroSem (s : State) (die : Nat) (old new : Word) : State :=
  let inside (w : Word) (k : Nat) : Bool :=
    decide (k / 2 ^ 19 = die) && decide ((k % 2 ^ 19 + 2 ^ 19 - bits w 50 32) % 2 ^ 19 < bits w 18 0)
  { s with sem := SMap.erase s.sem fun k => inside new k && !inside old k }

/-- SEM0 and SEM1: the fields that the register has. -/
def semField (v : Word) : Word := w64 (bits v 50 32 * 2 ^ 32 + bits v 18 0)

/-- SCHED (R325): fields brought into their ranges. -/
def Ctx.setSched (c : Ctx) (v : Word) : Ctx :=
  { c with
    dhold := BitVec.ofNat 6 (min 32 (max 1 (bits v 45 40)))
    ceil := BitVec.ofNat 3 (bits v 39 37)
    parkEvict := BitVec.ofNat 16 (bits v 31 16)
    age := BitVec.ofNat 16 (max 1 (bits v 15 0)) }

/-- A write of a context register: kept where its limit and its state condition hold. -/
def State.writeCtx (s : State) (ctx off : Nat) (v : Word) : Option State :=
  let c := s.ctx ctx
  let cfg (ok : Bool) (f : Ctx → Ctx) : Option State := if c.cstate = 1 && ok then some (s.modCtx ctx f) else none
  match off with
  | 0x010 =>
    if c.cstate = 1 && decide (v.toNat < 4) && !s.grantTaken ctx v.toNat c.cgrant then
      some (s.regrant ctx v.toNat c.cgrant.toNat) else none
  | 0x018 => cfg (v.toNat % 4096 == 0) fun c => { c with ptbr := v }
  | 0x020 => cfg (v.toNat % 65536 == 0) fun c => { c with heapb := v }
  | 0x028 => cfg (v.toNat % 65536 == 0) fun c => { c with heapl := v }
  | 0x030 => cfg (v.toNat % 65536 == 0) fun c => { c with heapo := v }
  | 0x038 => (cfg true fun c => { c with sem0 := semField v }).map fun t => t.zeroSem 0 c.sem0 (semField v)
  | 0x040 => (cfg true fun c => { c with sem1 := semField v }).map fun t => t.zeroSem 1 c.sem1 (semField v)
  | 0x048 => some (s.modCtx ctx fun c => c.setSched v)
  | 0x050 => cfg true fun c => { c with recq := v }
  | 0x058 => cfg true fun c => { c with recqn := v }
  | 0x060 => cfg true fun c => { c with imga := v }
  | 0x068 => cfg true fun c => { c with imgn := v }
  | 0x070 => cfg true fun c => { c with rankt := v }
  | 0x078 => cfg true fun c => { c with rankn := v }
  | 0x080 => cfg true fun c => { c with fring := v }
  | 0x088 => cfg true fun c => { c with fringn := v }
  | 0x090 => cfg true fun c => { c with erec := v }
  | 0x098 => cfg true fun c => { c with erecn := v }
  | 0x0A0 => if v.toNat % 4 = 0 && decide (v.toNat < 0x40000) then some (s.modCtx ctx fun c => { c with hvec := v }) else none
  | 0x108 => some (s.modCtx ctx fun c => { c with sema := v })
  | _ => none

/-- A write of a module register without an effect of its own. -/
def State.writeModl (s : State) (off : Nat) (v : Word) : Option State :=
  let put (ok : Bool) (m : Modl) : Option State := if ok then some { s with modl := m } else none
  let m := s.modl
  match off with
  | 0x008 => put (v.toNat % 4096 == 0) { m with fwaddr := v }
  | 0x010 => put (decide (v.toNat ≤ 2 ^ 24)) { m with fwlen := v }
  | 0x038 => put true { m with rollp := v }
  | 0x040 => put (decide (60 ≤ v.toNat) && decide (v.toNat ≤ 86400)) { m with scanp := v }
  | 0x048 => put (decide (1500 ≤ v.toNat) && decide (v.toNat ≤ 3000))
      { m with pwrcap := v, last := if bits m.pwrnow 31 0 ≤ m.pwrcap.toNat then SMap.put m.last 6 s.cycle else m.last }
  | 0x068 => put true { m with scoreSel := v.setWidth 7 }
  | _ => none

/-- REGISTER_WRITE (R323, R400, R401). -/
def tryRegisterWrite (block : RegBlock) (off : Nat) (value : Word) (s : State) : Option State :=
  match block with
  | .modl => if decide (2 ≤ s.modl.boot.toNat) && s.modl.linkUp then s.writeModl off value else none
  | .ctx c => if s.hostReach c then s.writeCtx c off value else none

/-- The offset in BAR0 of a register (R397). -/
def barOff : RegBlock → Nat → Nat
  | .modl, off => off
  | .ctx c, off => ctxOff c off

/-- REGISTER_WRITE (R323, R400, R401). -/
def execRegisterWrite (block : RegBlock) (off : Nat) (value : Word) (s : State) : Out :=
  hostEvent s (.writeBar (barOff block off) value) (tryRegisterWrite block off value s)

/-! ### Host reads (R323, R325, R365, R401) -/

/-- The word at SEMA as SEMD reads it (R365). -/
def State.semdRead (s : State) (ctx : Nat) : Word :=
  let c := s.ctx ctx
  if c.cstate = 0 then 0
  else match (semKey s ctx (c.sema.setWidth 32)).join with
    | some k => s.semRead k
    | none => 0

/-- What a register of a context block reads as; write-only ones and those not listed read as 0. -/
def State.readCtx (s : State) (ctx off : Nat) : Word :=
  let c := s.ctx ctx
  match off with
  | 0x000 => c.cstate.setWidth 64
  | 0x008 => c.cgrant
  | 0x010 => c.part.setWidth 64
  | 0x018 => c.ptbr
  | 0x020 => c.heapb
  | 0x028 => c.heapl
  | 0x030 => c.heapo
  | 0x038 => c.sem0
  | 0x040 => c.sem1
  | 0x048 => w64 (c.dhold.toNat * 2 ^ 40 + c.ceil.toNat * 2 ^ 37 + c.parkEvict.toNat * 2 ^ 16 + c.age.toNat)
  | 0x050 => c.recq
  | 0x058 => c.recqn
  | 0x060 => c.imga
  | 0x068 => c.imgn
  | 0x070 => c.rankt
  | 0x078 => c.rankn
  | 0x080 => c.fring
  | 0x088 => c.fringn
  | 0x090 => c.erec
  | 0x098 => c.erecn
  | 0x0A0 => c.hvec
  | 0x0C8 => w64 c.qtl
  | 0x0D0 => c.slip
  | 0x0D8 => c.hreq
  | 0x0F0 => c.fovf
  | 0x0F8 => c.ecount
  | 0x100 => w64 (SMap.get 0 s.sealCount c.part.toNat % 2 ^ 32 * 2 ^ 32 + bits c.rstat 15 0)
  | 0x110 => s.semdRead ctx
  | _ => 0

/-- What a module register reads as; QREC and SCORE are the host's view of the quarantine record (R377, R401). -/
def State.readModl (s : State) (off : Nat) : Word :=
  let m := s.modl
  let phys (p : Nat) : Phys := SMap.get Phys.reset s.phys p
  match off with
  | 0x000 => w64 (m.svn.toNat * 2 ^ 32 + m.repl.toNat * 2 ^ 8 + (if m.linkNarrow then 16 else 0) + m.boot.toNat)
  | 0x008 => m.fwaddr
  | 0x010 => m.fwlen
  | 0x020 => m.fwstat.setWidth 64
  | 0x030 => m.partcfg.setWidth 64
  | 0x038 => m.rollp
  | 0x040 => m.scanp
  | 0x048 => m.pwrcap
  | 0x050 => m.pwrnow
  | 0x058 => m.tempc
  | 0x060 => w64 (((List.range 64).filter fun p => (phys p).quarantined).foldl (fun n p => n + 2 ^ p) 0)
  | 0x068 => w64 ((phys m.scoreSel.toNat).score % 256 * 2 ^ 8 + m.scoreSel.toNat)
  | 0x080 => w64 (((List.range 16).map fun p =>
      (match (SMap.get Port.reset s.ports p).lanes with | 0 => 0 | 4 => 1 | _ => 2) * 4 ^ p).foldl (· + ·) 0)
  | 0x088 => w64 (((List.range 8).filter fun p => (phys (64 + p)).quarantined).foldl (fun n p => n + 2 ^ p) 0)
  | _ => 0

/-- The value of a register. -/
def State.register (s : State) (block : RegBlock) (off : Nat) : Word :=
  match block with
  | .modl => s.readModl off
  | .ctx c => if c < 64 then s.readCtx c off else 0

/-- An answer over the link to a read of the host, which waits while a trained link is down (R396). -/
def State.answerRead (s : State) (a : Input) (v : Word) : State :=
  if s.linkDown then s.holdHost a
  else if s.modl.linkUp then { s with modl := { s.modl with reply := leBytes 8 v.toNat } } else s

/-- A host read of a register leaves its value as the last answer. -/
def State.hostRead (s : State) (block : RegBlock) (off : Nat) : State := s.answerRead (.readReg block off) (s.register block off)

/-! ### BAR0 (R397) -/

/-- The register block at an offset of BAR0, and the offset in it: the module's at 0x0_0000, that of context c at 0x1_0000 + 0x1000·c; none
from 0x5_0000 on. -/
def barBlock (off : Nat) : Option (RegBlock × Nat) :=
  if off < 0x10000 then some (.modl, off)
  else if off < 0x50000 then some (.ctx ((off - 0x10000) / 0x1000), off % 0x1000)
  else none

/-- A host read of BAR0; 0x5_0000 to 0x7_FFFF read as 0. -/
def State.readBar (s : State) (off : Nat) : State :=
  s.answerRead (.readBar off) (match barBlock off with
    | some (b, o) => s.register b o
    | none => 0)

end Sys2Proof.Machine
end

