-- ==== Sys2Proof/Machine/Resets.lean ====
section
/-!
DEFINITION. Machine/Resets.lean: drains and moves of logical cores (R19 to R21, R284, R380), gating (R343, R344), suspect scores
and quarantine (R377 to R379), alarms and resets (R366 to R369), losses of power (R360), scan, check mode and vouch (R372
to R376).
-/

namespace Sys2Proof.Machine

/-! ### Drains and the logical core map (R19 to R21) -/

/-- A bank's task goes into its image (R20): a Parked one keeps its condition; a Restoring one is still in its image. -/
def State.drainBank (s : State) (bk : Nat) : State :=
  let b := s.bank bk
  match b.uid with
  | none => s
  | some uid =>
    match b.st with
    | .running => (s.startSave bk false).saveImage bk uid
    | .parked => (s.startSave bk true).saveImage bk uid
    | .saving => s.saveImage bk uid
    | .restoring =>
      (s.modTask uid fun t => { t with st := .eligible, gen := t.gen + 1, fresh := true }).setBank bk
        { Bank.reset with tl := b.tl, seq := b.seq }
    | _ => s

/-- A core is drained: its engines stand at their marks and its tasks are in their images (R20). -/
def State.drain (s : State) (ck : Nat) : State :=
  let s := ((s.resetVec ck).resetMat ck).resetCopy ck
  (s.drainBank (2 * ck)).drainBank (2 * ck + 1)

def State.modPhys (s : State) (p : Nat) (f : Phys → Phys) : State := { s with phys := SMap.put s.phys p (f (s.physCore p)) }

/-- The map entry of a logical core changes (R19); 72 multiplexes it, and the core that served it last is kept (R283). The tasks whose
commands move with it run on the new physical core too (R20, R373). -/
def State.setMap (s : State) (ck p : Nat) : State :=
  let s := s.servedBy ck p
  let s : State := { s with
    lmap := SMap.put s.lmap ck p
    lastPhys := if p = 72 && s.served ck then SMap.put s.lastPhys ck (s.physOf ck) else s.lastPhys }
  if p < 72 then s.modPhys p fun x => { x with sliceTick := s.tick } else s

/-- The logical core of a physical core goes to a spare, or is multiplexed. -/
def State.evacuate (s : State) (p : Nat) : State :=
  match s.coreOn p with
  | none => s
  | some ck => (s.drain ck).setMap ck ((s.spareOf (p / 18) fun x => x != p).getD 72)

/-- A move begins (R284): the logical core is drained, and while the move lasts it pops nothing and accesses to it wait (R20). -/
def State.startMove (s : State) (ck p : Nat) : State := (s.drain ck).modCore ck fun c => { c with moving := some p }

/-- THERMAL_MOVE (R284): a move begins at a moment at which no task is resident; a move in progress ends. -/
def tryThermalMove (core : Nat) (s : State) : Option State := do
  match (s.core core).moving with
  | some p => return (s.modCore core fun c => { c with moving := none }).setMap core p
  | none =>
    if !s.works core || !s.moveDue core then none
    let p ← s.coolerSpare core
    return s.startMove core p

/-- THERMAL_MOVE (R284). -/
def execThermalMove (core : Nat) (s : State) : Out := event s (tryThermalMove core s)

/-- ROTATE_DEADLINE (R284): AGE ticks after ROTATE was set, the resident tasks are pre-empted and the core moves. -/
def tryRotateDeadline (core : Nat) (s : State) : Option State := do
  let t ← (s.core core).rotateTick
  let ctx ← s.grantee core
  if !bitAt (s.core core).allow 62 || !s.works core || s.tick < t + (s.ctx ctx).ageTicks then none
  let p ← s.coolerSpare core
  return s.startMove core p

/-- ROTATE_DEADLINE (R284). -/
def execRotateDeadline (core : Nat) (s : State) : Out := event s (tryRotateDeadline core s)

/-! ### Rotation (R380) -/

/-- Logical cores that a physical quadrant serves, and the i-th of them in the order of the rotation. -/
def State.quadServes (s : State) : Nat := 16 * s.parts
def State.rotCore (s : State) (q i : Nat) : Nat :=
  let n := 4 / s.parts
  64 * (q / n) + 16 * (q % n + n * (i / 16)) + i % 16

/-- The next logical core due that no physical core serves, from a place in the rotation on. -/
def State.nextDue (s : State) (q start : Nat) : Option Nat :=
  ((List.range s.quadServes).map fun j => (start + j) % s.quadServes).find? fun i => !s.served (s.rotCore q i)

/-- ROTATION_SLICE (R380): a slice of 16,384 ticks ends, and the next logical core due is drained in. -/
def tryRotationSlice (phys : Nat) (s : State) : Option State := do
  let q := phys / 18
  let x := s.physCore phys
  if decide (72 ≤ phys) || !s.inService phys then none
  let i ← s.nextDue q (s.quad q).rotNext
  match s.coreOn phys with
  | some ck =>
    if s.tick < x.sliceTick + 16384 then none
    let s := ((s.drain ck).setMap ck 72).setMap (s.rotCore q i) phys
    return s.modQuad q fun d => { d with rotNext := (i + 1) % s.quadServes }
  | none => return (s.setMap (s.rotCore q i) phys).modQuad q fun d => { d with rotNext := (i + 1) % s.quadServes }

/-- ROTATION_SLICE (R380). -/
def execRotationSlice (phys : Nat) (s : State) : Out := event s (tryRotationSlice phys s)

/-! ### Suspect scores and quarantine (R377 to R379) -/

/-- Serviceable physical cores of a quadrant. -/
def State.serviceableIn (s : State) (q : Nat) : Nat := ((range2 (18 * q) 18).filter fun p => (s.physCore p).serviceable).length

/-- A replacement request (R379): 1 REPLACE_ADVISE, 2 REPLACE_REQUIRED; a new one signals vector 257. -/
def State.requestReplacement (s : State) (level : Nat) : State :=
  if level ≤ s.modl.repl.toNat then s else { s with modl := { s.modl with repl := BitVec.ofNat 2 level } }.signal 257

/-- The partition of a quadrant without a serviceable core stops: its contexts are killed with LERR_LOST (R379). -/
def State.stopPartition (s : State) (q : Nat) : State :=
  (List.range 64).foldl (fun s c =>
    if ((s.ctx c).cstate == 1 || (s.ctx c).cstate == 2) && (s.ctx c).part.toNat == q / (4 / s.parts) then s.killContext c 15 else s) s

/-- The requests that the serviceable cores of a quadrant call for (R379). -/
def State.checkQuad (s : State) (q : Nat) : State :=
  let n := s.serviceableIn q
  let s := if n < 16 then s.requestReplacement 2 else s
  if n = 0 then s.stopPartition q else s

/-- A bit of a task's vouch flags rises (R374). -/
def State.flagTask (s : State) (uid : Nat) (bit : Nat) : State :=
  s.modTask uid fun t => { t with vouch := t.vouch ||| (1#3 <<< bit), vouchAt := SMap.put t.vouchAt bit s.cycle }

/-- Quarantine (R377): for good; the tasks that the core served are flagged QUAR. -/
def State.quarantine (s : State) (p : Nat) : State :=
  let s := (s.evacuate p).modPhys p fun x => { x with quarantined := true }
  let served := (s.tasks.filter fun e => e.2.phys.contains p).map (·.1)
  let s := served.foldl (fun s u => s.flagTask u 2) s
  (s.requestReplacement 1).checkQuad (p / 18)

/-- A suspect score rises (R377). -/
def State.addScore (s : State) (p n : Nat) : State :=
  if 72 ≤ p then s
  else
    let s := s.modPhys p fun x => { x with score := x.score + n, scoreAt := s.cycle }
    if 3 ≤ (s.physCore p).score && !(s.physCore p).quarantined then s.quarantine p else s

/-! ### Gating (R343, R344) -/

/-- The operand of gate and wake: a logical core of the grant. -/
def gateTarget (s : State) (f : FSs) : Except Stop Nat := do
  let n := (s.rx s.me f.xa).toNat
  need (decide (n ≤ 63) && s.granted (s.ctxOf s.me) n) (badOp 0x19 54)
  return 64 * keyPart (keyCore s.me) + n

/-- A core gets its power back (R343): requests that hold a gated response are sent again (R344), and none asks for a wake any more. -/
def State.ungateCore (s : State) (k : Nat) : State := s.modCore k fun c => { c with gated := false, asked := false, remote := [] }

/-- GATE (R343): the core is drained, sealed with PLANNED = 1 and powered down. -/
def execGate (c : Ctl) (f : FSs) (s : State) : Out :=
  perform s 8 do
    let s' ← ccStart s c
    checkPriv s
    let k ← gateTarget s f
    need (k != keyCore s.me) (badOp 0x19 54)
    if (s.core k).gated then return s'.wx s.me f.xd 1
    need (s.core k).awake (.wait (.awake k))
    need (condHolds s (.sealed [k])) (.wait (.sealed [k]))
    let s' := s'.drain k
    let s' := if (s.core k).shadowed then s'.sealPlanned k (s.ctxOf s.me) else s'
    return (s'.modCore k fun c => { c with gated := true, l1 := [], tlb := [], preload := [] }).wx s.me f.xd 0

/-- WAKE (R343): it completes when the core can pop. -/
def execWake (c : Ctl) (f : FSs) (s : State) : Out :=
  perform s 8 do
    let s' ← ccStart s c
    checkPriv s
    let k ← gateTarget s f
    need (condHolds s (.powered k)) (.wait (.powered k))
    if !(s.core k).gated then return s'.wx s.me f.xd 1
    return (s'.ungateCore k).wx s.me f.xd 0

/-- An address that leads into the scratchpad of a core: a scratchpad window, or a page pinned there. -/
def namesCore (s : State) (ag : Agent) (k : Nat) (a : Word) : Bool :=
  match parseWindow s ag a with
  | some (_, .spad key _) => key == k
  | some (_, .glob g) =>
    match xlatCtx s ag.ctx (keyPart ag.key) .read a g with
    | .ok p => p.core == some k
    | .error _ => false
  | none => false

/-- A stream, copy or vector command of another core that targets the core. -/
def State.targeted (s : State) (k : Nat) : Bool :=
  s.cores.any fun e =>
    keyPart e.1 == keyPart k && e.1 != k && (
      (e.2.cq.any fun q => q.2.any fun x =>
        let ag := s.agentFor x.bank x.uid true
        (x.xa :: (if x.desc.isEmpty then [] else [(x.iteration x.li).1, (x.iteration x.li).2])).any (namesCore s ag k))
      || (e.2.vq.any fun v => v.op.isMem && namesCore s (s.agentFor v.bank v.uid true) k v.sx)
      || ([2 * e.1, 2 * e.1 + 1].any fun bk => (s.bank bk).streams.any fun st => namesCore s (s.agent bk) k st.2.base)
      || e.2.tracker.any fun t => t.left.streams.any fun st => namesCore s (s.agentFor t.bank t.uid true) k st.2.base)

/-- A record that only the core may run. -/
def State.neededBy (s : State) (k : Nat) : Bool :=
  match s.ctxOfCore k with
  | none => false
  | some ctx => ((s.candidates ctx (2 * k)) ++ (s.candidates ctx (2 * k + 1))).any fun c => c.cores s ctx (keyPart k) == [k]

/-- AUTOMATIC_WAKE (R343): a remote access has come, a stream or copy targets the core, or a record needs it. -/
def tryAutomaticWake (core : Nat) (s : State) : Option State :=
  let c := s.core core
  if c.gated && (!c.remote.isEmpty || c.asked || s.neededBy core || s.targeted core) then some (s.ungateCore core) else none

/-- AUTOMATIC_WAKE (R343). -/
def execAutomaticWake (core : Nat) (s : State) : Out := event s (tryAutomaticWake core s)

/-- The core that a bank's held request waits for. -/
def State.heldFor (s : State) (bk : Nat) : Option Nat :=
  match (s.bank bk).wait with
  | some (.awake k) => some k
  | _ => none

/-- GATED_RESPONSE (R344): a bank's request to a gated core is held, and the core is to wake. -/
def tryGatedResponse (n : Nat) (s : State) : Option State := do
  let k ← s.heldFor n
  if !(s.core k).gated || (s.core k).remote.contains n then none
  return s.modCore k fun c => { c with remote := c.remote ++ [n] }

/-- GATED_RESPONSE (R344). -/
def execGatedResponse (n : Nat) (s : State) : Out := event s (tryGatedResponse n s)

/-- REMOTE_RESEND (R344): the target is awake, and the bank makes its request again. -/
def tryRemoteResend (n : Nat) (s : State) : Option State := do
  let k ← s.heldFor n
  if !(s.core k).awake || !s.works (keyCore n) then none
  return (s.modCore k fun c => { c with remote := c.remote.filter (· != n) }).wake n

/-- REMOTE_RESEND (R344). -/
def execRemoteResend (n : Nat) (s : State) : Out := event s (tryRemoteResend n s)

/-! ### Alarms and resets (R366 to R368) -/

def engineNum : Engine → Nat
  | .control => 0
  | .vec => 1
  | .mat => 2
  | .copy => 3
  | .port => 4
  | .die => 5

/-- The queues of an engine, as bits of a crew mask (R56). -/
def engineMask : Engine → BitVec 8
  | .vec => 0x02
  | .mat => 0x04
  | .copy => 0x78
  | .port | .control | .die => 0

/-- A cox reset of a member engine suspends the crew (R281), and the reset is over in the same step. -/
def Bank.aroundReset (b : Bank) (eng : Engine) : Bank :=
  if b.crew.any fun w => !w.suspended && (w.mask &&& engineMask eng) != 0 then b.suspendCrew.resumeCrew else b

/-- An engine reset. -/
def State.resetEngine (s : State) (core : Nat) (eng : Engine) : State :=
  let s := (s.modBank (2 * core) fun b => b.aroundReset eng).modBank (2 * core + 1) fun b => b.aroundReset eng
  match eng with
  | .vec => s.resetVec core
  | .mat => s.resetMat core
  | .copy => s.resetCopy core
  | .port | .control | .die => s

/-- A core reset that an alarm calls for: suspect score + 1 (R366, R377). The engine resets before it count no longer. -/
def State.resetCore (s : State) (ck : Nat) : State :=
  let p := s.physOf ck
  let s : State := { s with modl := { s.modl with resets := s.modl.resets.filter fun r => r.1 != ck } }
  (s.loseCore ck).addScore p 1

/-- Every core of a die. -/
def State.dieCores (s : State) (die : Nat) : List Nat := s.coreKeys.filter fun k => s.quadOf k / 2 == die

/-- A package reset (R367): both dies, and the link retrains. -/
def State.resetPackage (s : State) : State :=
  let s := s.coreKeys.foldl State.loseCore s
  { s with modl := { s.modl with linkUp := false } }

/-- A die reset; a second one within 100 ms, of either die, is a package reset (R366). -/
def State.resetDie (s : State) (die : Nat) : State :=
  let again := s.modl.dieResets.any fun r => decide (s.cycle ≤ r.2 + 100000000)
  let s : State := { s with modl := { s.modl with dieResets := (die, s.cycle) :: s.modl.dieResets.filter fun r => decide (s.cycle ≤ r.2 + 100000000) } }
  if again then s.resetPackage else (s.dieCores die).foldl State.loseCore s

/-- A reset of an engine by the cox, for whatever reason; the third of one engine within 1 ms is a core reset (R366). The engines of
a core that none serves have none. -/
def State.countedReset (s : State) (core : Nat) (eng : Engine) : State :=
  let recent := s.modl.resets.filter fun r => decide (s.cycle ≤ r.2.2 + 1000000)
  let n := (recent.filter fun r => r.1 == core && r.2.1 == engineNum eng).length
  let s : State := { s with modl := { s.modl with resets := (core, engineNum eng, s.cycle) :: recent } }
  if 2 ≤ n then s.resetCore core else s.resetEngine core eng

/-- A reset that an alarm calls for: of an engine of a core, or of port processor number `n`. -/
def State.alarmEngine (s : State) (n : Nat) (eng : Engine) : State :=
  if eng = .port then s.resetPort n else s.countedReset n eng

/-- A step of the cox, of a detector or of a regulator: it needs the compute domains up (R400); without 54 V nothing happens (R406). -/
def whileUp (s t : State) : Out := .next (if s.running then t else s)

/-- VECTOR_ENGINE_RESET (R142, R367). -/
def execVectorEngineReset (core : Nat) (s : State) : Out := whileUp s (s.countedReset core .vec)

/-- MATRIX_ENGINE_RESET (R174). -/
def execMatrixEngineReset (core : Nat) (s : State) : Out := whileUp s (s.countedReset core .mat)

/-- COPY_ENGINE_RESET (R232, R367). -/
def execCopyEngineReset (core : Nat) (s : State) : Out := whileUp s (s.countedReset core .copy)

/-- PORT_PROCESSOR_RESET (R316, R367): its traffic is delayed and nothing else changes. -/
def execPortProcessorReset (port : Nat) (s : State) : Out := whileUp s (s.resetPort port)

/-- A step is one that an engine could take now. -/
def enabled (r : Option State) : Bool := r.isSome

/-- A unit of a core has work and waits on nothing outside itself (R366): a step of its own is all that is missing. The operations of the
collective queue are the work of the port processors. -/
def State.engineBusy (s : State) (core : Nat) (eng : Engine) : Bool :=
  let c := s.core core
  s.works core && match eng with
  | .vec => !c.vq.isEmpty && (enabled (tryVectorCompletion core 0 s) || enabled (tryVectorCompletion core 1 s) || enabled (tryVectorIssue core s))
  | .mat => !c.mq.isEmpty && (enabled (tryMatIssue core s) || enabled (tryTileSchedulerStart core s)
      || (c.arrays.any fun a => enabled (tryPuntyMark core a.1 s))
      || [0, 1].any fun b => enabled (tryMatrixCompletion core b s) || enabled (tryMclaimPerformed core b s)
          || enabled (tryMloadLine core b s) || enabled (tryAstoreEntry core b s) || enabled (tryAloadEntry core b s))
  | .copy => c.cq.any fun q => !q.2.isEmpty && (enabled (tryCopyIssue core q.1 s) || enabled (tryCopyStart core q.1 s)
      || enabled (tryCopyIteration core q.1 s) || enabled (tryBinscatToken core q.1 s) || enabled (tryCopyCompletion core q.1 s))
  | .control => [2 * core, 2 * core + 1].any fun b => (s.bank b).st == .running && (s.bank b).wait.isNone
  | .port => (c.kq.any fun k => k.kind.isOp) && [0, 1].any fun b => [0, 1].any fun ch => enabled (tryContributionSend core b ch s)
      || enabled (tryWorkEntryFire core b ch s) || enabled (tryWorkEntryComplete core b ch s)
  | .die => false

/-- Cycles that a unit has counted towards its watchdog (R366). -/
def Core.worked (c : Core) (eng : Engine) : Nat := SMap.get 0 c.marks (engineNum eng)

/-- The watchdogs' count while `n` base-die cycles pass (R366): the core-clock cycles in which a unit has work and waits on nothing outside
itself. -/
def State.countWork (s : State) (n : Nat) : State :=
  let later : State := { s with cycle := s.cycle + n }
  { s with cores := s.cores.map fun e =>
      let d := later.coreClock e.1 - s.coreClock e.1
      if d = 0 then e
      else (e.1, { e.2 with marks := [Engine.control, .vec, .mat, .copy, .port].foldl (fun m g =>
        if s.engineBusy e.1 g then SMap.put m (engineNum g) (SMap.get 0 m (engineNum g) + d) else m) e.2.marks }) }

/-- CORE_RESET (R367). -/
def execCoreReset (core : Nat) (s : State) : Out := whileUp s (s.resetCore core)

/-- DIE_RESET (R367). -/
def execDieReset (die : Nat) (s : State) : Out := whileUp s (s.resetDie die)

/-- PACKAGE_RESET (R367). -/
def execPackageReset (s : State) : Out := whileUp s s.resetPackage

/-- The units of the rolling reset in its order: 216 engines of physical cores and 16 port processors (R368). -/
def State.rollUnits (s : State) : List Nat := (List.range 232).filter fun u => decide (216 ≤ u) || (s.physCore (u / 3)).serviceable

/-- A periodic unit of the module is due: every `period` seconds for each of `n`, evenly spaced. -/
def State.periodDue (s : State) (key period n : Nat) : Bool :=
  decide (0 < n) && decide (SMap.get 0 s.modl.last key + period * 1000000000 / n ≤ s.cycle)

def State.stampPeriod (s : State) (key : Nat) : State := { s with modl := { s.modl with last := SMap.put s.modl.last key s.cycle } }

/-- ROLLING_RESET (R368). -/
def tryRollingReset (s : State) : Option State := do
  let us := s.rollUnits
  if s.modl.boot != 6 || s.modl.rollp == 0 || !s.periodDue 3 s.modl.rollp.toNat us.length then none
  let u := (us.find? fun u => decide (s.modl.roll ≤ u)).getD (us.headD 0)
  let s : State := { s with modl := { s.modl with roll := (u + 1) % 232 } }
  let s := s.stampPeriod 3
  if 216 ≤ u then return s.resetPort (u - 216)
  match s.coreOn (u / 3) with
  | some ck => return s.countedReset ck (if u % 3 = 0 then .vec else if u % 3 = 1 then .mat else .copy)
  | none => return s

/-- ROLLING_RESET (R368). -/
def execRollingReset (s : State) : Out := event s (tryRollingReset s)

/-! ### Losses of power (R360) -/

/-- Which cores stand still: lehr power away, powered down by heat, or the module powered down (R360, R404, R405). -/
def State.rehalt (s : State) : State :=
  s.coreKeys.foldl (fun s k =>
    let q := s.quad (s.quadOf k)
    let h := q.lehr || q.thermalOff || s.modl.mpwr != 0
    if (s.core k).halted = h then s else s.modCore k fun c => { c with halted := h }) s

/-- COMPUTE_DOMAIN_LOSS (R360). -/
def execComputeDomainLoss (quad : Nat) (s : State) : Out :=
  whileUp s ((s.coreKeys.filter fun k => s.quadOf k == quad && s.served k).foldl State.losePower s)

/-- LEHR_DOMAIN_LOSS (R360): no work is lost; every unit of the quadrant's cores stops. -/
def execLehrDomainLoss (quad : Nat) (s : State) : Out := whileUp s (s.modQuad quad fun q => { q with lehr := true }).rehalt

/-- LEHR_POWER_RETURN (R360): seals in progress start again from their first write. -/
def execLehrPowerReturn (quad : Nat) (s : State) : Out := whileUp s (s.modQuad quad fun q => { q with lehr := false }).rehalt

/-- A module input loss (R360, R402): everything but the lehr and host memory is lost. Cores whose slots hold an epoch come up
without their state. -/
def State.inputLoss (s : State) : State :=
  let held := s.slots.filter fun x => x.2.magic == 0x4C454852
  { State.reset with
    inputs := s.inputs
    curCore := s.curCore
    curBank := s.curBank
    fresh := s.fresh
    cycle := s.cycle
    budgetTicks := s.tick
    mem := cellsIn s.mem (2 ^ 64) (2 ^ 64)
    hostBad := s.hostBad
    slots := s.slots
    modl := { Modl.reset with lowFrom := s.modl.lowFrom }
    phys := s.phys.map fun p => (p.1, { Phys.reset with quarantined := p.2.quarantined })
    hbm := s.hbm.map fun x => (x.1, { StackSt.reset with phase := x.2.phase })
    cores := held.foldl (fun m x => SMap.put m (x.1 / 2) { Core.reset with down := true, paceLost := true, moduleLost := true }) [] }

/-- The input has been below 44 V for 10 µs (R402). -/
def State.undervolted (s : State) : Bool := s.powered && s.modl.lowFrom.any fun c => decide (c + 10000 ≤ s.cycle)

/-- MODULE_INPUT_LOSS (R402): what an input below 44 V for 10 µs, one above 60 V, or the loss of a base-die domain by a fault of its regulator
does. -/
def execModuleInputLoss (s : State) : Out := .next s.inputLoss

/-! ### Scan (R372, R373, R375) -/

/-- Entries of a provisional log are gone; a task is no longer provisional once no log holds it (R373). -/
def State.clearEntries (s : State) (p : Nat) (gone : LogEntry → Bool) : State :=
  let us := ((s.physCore p).log.filter gone).map (·.uid)
  let s := s.modPhys p fun x => { x with log := x.log.filter fun e => !gone e }
  us.foldl (fun s u =>
    if s.phys.any fun x => x.2.log.any fun e => e.uid == u then s else s.modTask u fun t => { t with provisional := false }) s

/-- An error record of a task's context that names its WID (R330, kinds 6 to 8). -/
def State.taskRecord (s : State) (uid kind : Nat) : State :=
  match s.task uid with
  | some t => s.errorRecord t.ctx (s.ctrlOf t.ctx t.lslot) kind (keyL t.lcore) 0 t.wid 0 0 0
  | none => s

/-- An entry is settled without a majority, or cannot be verified (R376). -/
def State.leaveUnverified (s : State) (uid : Nat) : State := (s.taskRecord uid 8).flagTask uid 1

/-- The next scan: one that a vouch moved ahead, then a core whose log is full, then the rotation; whether it is of the
rotation (R372 to R374). -/
def State.scanTarget (s : State) : Option (Nat × Bool) :=
  let ok (p : Nat) : Bool := (s.physCore p).serviceable
  match (List.range 72).find? fun p => s.modl.scanAhead.contains p && ok p with
  | some p => some (p, false)
  | none =>
    match (List.range 72).find? fun p => ok p && decide (1024 ≤ (s.physCore p).log.length) with
    | some p => some (p, false)
    | none =>
      let n := ((List.range 72).filter ok).length
      if s.periodDue 4 s.modl.scanp.toNat n then
        (((range2 s.modl.scanNext 72).map (· % 72)).find? ok).map fun p => (p, true)
      else none

/-- A passed scan (R373, R377): the entries of tasks that retired before it began are vouched, the score falls 24 hours after its last
rise, and the core is in service. -/
def State.scanPassed (s : State) (p began : Nat) : State :=
  let s := s.clearEntries p fun e => decide (e.at0 ≤ began)
  s.modPhys p fun x =>
    let x := { x with outOfService := false }
    if x.scoreAt + 86400000000000 ≤ s.cycle then { x with score := x.score - 1 } else x

/-- A failed scan (R375): score + 2, out of service; verifiable entries are re-executed in check mode. -/
def State.scanFailed (s : State) (p : Nat) : State :=
  let s := s.modPhys p fun x => { x with outOfService := true }
  let bad (e : LogEntry) : Bool := ((s.task e.uid).map (·.unverifiable)).getD true
  let us := (s.physCore p).log
  let s := us.foldl (fun s e => if bad e then s.leaveUnverified e.uid else s.taskRecord e.uid 6) s
  let s := s.clearEntries p bad
  let s := s.modPhys p fun x => { x with log := x.log.map fun e => { e with failed := true } }
  (s.addScore p 2).checkQuad (p / 18)

/-- A scan of a core begins (R372): its logical core goes to a spare, or is multiplexed over the other cores of the quadrant (R381). -/
def State.beginScan (s : State) (p : Nat) (turn : Bool) : State :=
  let s : State := { s with modl := { s.modl with
    scanAhead := s.modl.scanAhead.filter (· != p)
    scanNext := if turn then (p + 1) % 72 else s.modl.scanNext } }
  let s := if turn then s.stampPeriod 4 else s
  let s := s.evacuate p
  { s with modl := { s.modl with scanning := some (p, s.cycle, turn) } }

/-- The scan of a core ends (R372, R373, R375). -/
def State.endScan (s : State) (p : Nat) (passed : Bool) : State :=
  match s.modl.scanning with
  | none => s
  | some (_, began, _) =>
    let s : State := { s with modl := { s.modl with scanning := none } }
    if passed then s.scanPassed p began else s.scanFailed p

/-- SCAN (R372): with no scan in progress the next one begins; after 200 µs of patterns the signatures are compared, and the core goes
back to the spares. -/
def tryScan (passed : Bool) (s : State) : Option State := do
  if s.modl.boot != 6 || s.modl.mpwr != 0 then none
  match s.modl.scanning with
  | none =>
    let (p, turn) ← s.scanTarget
    return s.beginScan p turn
  | some (p, began, _) =>
    if s.cycle < began + 200000 then none
    return s.endScan p passed

/-- SCAN (R372). -/
def execScan (passed : Bool) (s : State) : Out := event s (tryScan passed s)

/-! ### Alarms (R366, R369) -/

/-- The alarms of core `core`'s units reset them; a number from 256 up names the physical core whose scan is in progress, which serves no
logical core: the scan fails (R369). -/
def State.scanAlarm (s : State) (core : Nat) (t : State) : State :=
  if core < 256 then t
  else match s.modl.scanning with
    | some (p, _, _) => if p + 256 = core then s.endScan p false else s
    | none => s

/-- WATCHDOG (R366): a unit with work has neither marked nor completed a command for 2^20 cycles of its own; a control core's watchdog
calls for a core reset. A port processor's is the watchdog of the operations it carries. -/
def tryWatchdog (core : Nat) (eng : Engine) (s : State) : Option State :=
  let late (ck : Nat) (g : Engine) : Bool := decide (2 ^ 20 ≤ (s.core ck).worked g)
  match eng with
  | .control => if late core .control then some ((s.resetCore core).stampMark core 0) else none
  | .die => none
  | .port => match s.cores.find? fun c => late c.1 .port with
    | some c => some ((s.resetPort core).stampMark c.1 (engineNum .port))
    | none => none
  | e => if late core e then some ((s.alarmEngine core e).stampMark core (engineNum e)) else none

/-- WATCHDOG (R366). -/
def execWatchdog (core : Nat) (eng : Engine) (s : State) : Out := event s (tryWatchdog core eng s)

/-- PARITY_ALARM (R366): in an engine's control state, or in a control core. -/
def execParityAlarm (core : Nat) (eng : Engine) (s : State) : Out :=
  whileUp s (s.scanAlarm core (match eng with
    | .control => s.resetCore core
    | .die => s
    | e => s.alarmEngine core e))

/-- PROTOCOL_ALARM (R366): at an engine's or a port processor's interface, or of the network-on-chip, a slice or the directory of
the die numbered `core`. -/
def execProtocolAlarm (core : Nat) (eng : Engine) (s : State) : Out :=
  whileUp s (s.scanAlarm core (match eng with
    | .control => s
    | .die => s.resetDie core
    | e => s.alarmEngine core e))

/-! ### Check mode (R375, R376) -/

/-- A core that can run a task of a log entry in check mode (R375): not the failed one, in service, and serving a logical core of the
grant of the task's running context. -/
def State.checkRuns (s : State) (p uid other : Nat) : Bool :=
  other != p && s.inService other && (s.coreOn other).any fun ck => (s.task uid).any fun t =>
    (s.ctx t.ctx).cstate == 2 && (s.ctx t.ctx).part.toNat == keyPart ck && s.granted t.ctx (keyL ck)

/-- The context of a log entry's task still runs. -/
def State.entryLives (s : State) (e : LogEntry) : Bool := (s.task e.uid).any fun t => (s.ctx t.ctx).cstate == 2

/-- The fourth run of an entry: a record of priority 7 on the third core, in normal mode. Its launch is live for it. -/
def State.runAgain (s : State) (p uid other : Nat) : State :=
  let s := match s.task uid with
    | some t => s.revive t.ctx uid t.lslot
    | none => s
  match s.task uid with
  | none => s
  | some t =>
    let home := (s.coreOn other).map fun ck => 2 * ck
    let t' : Task := { t with
      st := .eligible, prio := 7, aged := 0, since := s.cycle, reached := s.cycle, home := home, image := none, recq := none, fresh := true,
      gen := t.gen + 1, errs := [], unverifiable := false, phys := [], vouch := 0, vouchAt := [], provisional := false, rerun := true,
      parent := none, popEpoch := 0, again := some (p, uid) }
    { s with tasks := SMap.put s.tasks s.fresh t', fresh := s.fresh + 1 }

/-- The fourth run of an entry has retired: its uid. -/
def State.ranAgain (s : State) (p uid : Nat) : Option Nat :=
  (s.tasks.find? fun e => e.2.again == some (p, uid) && e.2.st == .retired).map (·.1)

/-- A launch taken back for a fourth run ends again once nothing of it is live. -/
def State.endRevived (s : State) (uid : Nat) : State :=
  match s.task uid with
  | none => s
  | some t =>
    match SMap.find (s.ctx t.ctx).launches t.lslot with
    | none => s
    | some l =>
      match s.statusKey t.ctx l with
      | none => s
      | some k =>
        if bits (s.semRead k) 47 0 = 0 then
          s.modCtx t.ctx fun c => { c with launches := SMap.del c.launches t.lslot, past := (t.lslot, l) :: c.past }
        else s

/-- The scores of the three cores of an entry without a majority rise (R376). -/
def State.scoreAll (s : State) (p : Nat) (e : LogEntry) : State :=
  [some p, e.s2.map (·.2), e.s3.map (·.2)].foldl (fun s x => match x with
    | some q => s.addScore q 1
    | none => s) s

/-- The settlement of an entry whose fourth run has retired (R376). -/
def State.settleAgain (s : State) (p run : Nat) (e : LogEntry) : State :=
  let s := s.endRevived run
  let s := s.clearEntries p fun x => x.uid == e.uid
  if e.s2.any fun x => x.1 == Config.signature run then ((s.taskRecord e.uid 7).flagTask e.uid 0).addScore p 1
  else (s.leaveUnverified e.uid).scoreAll p e

/-- An entry takes signatures. -/
def State.setEntrySigs (s : State) (p : Nat) (e : LogEntry) : State :=
  s.modPhys p fun x => { x with log := x.log.map fun y => if y.uid = e.uid then e else y }

/-- CHECK_MODE_COMPLETION (R375, R376): a run of entry `n` of a failed core's log on core `other` ends with a signature; once the
fourth run has retired, the entry is settled by it. An entry whose context no longer runs is dropped: its record went with the
context (DESIGN CHOICE, assumption log 29). -/
def tryCheckModeCompletion (phys n other : Nat) (sig : Word) (s : State) : Option State := do
  let e ← (s.physCore phys).log[n]?
  if !e.failed then none
  if !s.entryLives e then return s.clearEntries phys fun x => x.uid == e.uid
  match e.s2, e.s3 with
  | none, _ =>
    if !s.checkRuns phys e.uid other then none
    if sig = e.sig then return s.clearEntries phys fun x => x.uid == e.uid
    return s.setEntrySigs phys { e with s2 := some (sig, other) }
  | some (s2, second), none =>
    if other == second || !s.checkRuns phys e.uid other then none
    if sig = e.sig then return (s.clearEntries phys fun x => x.uid == e.uid).addScore second 1
    if sig = s2 then
      return (s.setEntrySigs phys { e with s3 := some (sig, other) }).runAgain phys e.uid other
    let e := { e with s3 := some (sig, other) }
    return ((s.clearEntries phys fun x => x.uid == e.uid).leaveUnverified e.uid).scoreAll phys e
  | some _, some _ =>
    let run ← s.ranAgain phys e.uid
    return s.settleAgain phys run e

/-- CHECK_MODE_COMPLETION (R375). -/
def execCheckModeCompletion (phys n : Nat) (other : Nat) (sig : Word) (s : State) : Out :=
  event s (tryCheckModeCompletion phys n other sig s)

/-! ### Vouch (R374) -/

/-- The tasks that a vouch covers. -/
def State.covered (s : State) (ctx ck scope : Nat) : List (Nat × Task) :=
  s.tasks.filter fun e =>
    let l := keyL e.2.lcore
    let inside := match scope with
      | 0 | 1 => e.2.lcore == ck
      | 2 => l / 16 == keyL ck / 16
      | 3 => l / 32 == keyL ck / 32
      | _ => true
    e.2.ctx == ctx && e.2.st == .retired && !e.2.phys.isEmpty && inside && (decide (scope < 2) || s.granted ctx l)

/-- The scans that a vouch needs go ahead of the rotation. -/
def State.scansAhead (s : State) (us : List (Nat × Task)) : State :=
  let ps := (us.filter fun e => e.2.provisional).flatMap fun e => e.2.phys
  { s with modl := { s.modl with scanAhead := (s.modl.scanAhead ++ ps).eraseDups } }

/-- The tasks that the vouch of a bank at its pc covers: those of its first attempt, while it waits (R374). -/
def State.vouchSet (s : State) (bk scope : Nat) : List Nat :=
  let b := s.bank bk
  match b.vouching with
  | some (pc, us) => if pc = b.pc then us else (s.covered (s.ctxOf bk) (keyCore bk) scope).map (·.1)
  | none => (s.covered (s.ctxOf bk) (keyCore bk) scope).map (·.1)

/-- Since when the bits of R374 count for a vouch of a task: REPAIRED since its pop or its last vouch, the others since its last vouch,
which cleared them. -/
def Task.vouchSince (t : Task) (bit : Nat) : Nat := if bit = 0 then t.lastVouch else t.vouchedAt

/-- A bit of a task's flags has risen since a cycle. -/
def Task.rose (t : Task) (since bit : Nat) : Bool := bitAt t.vouch bit && decide (since ≤ SMap.get 0 t.vouchAt bit)

/-- VOUCH (R374). -/
def execVouch (c : Ctl) (f : FSc) (s : State) : Out :=
  perform s 8 do
    let s' ← ccStart s c
    let bk := s.me
    let k ← scopeField f.scope memScope 61
    let us := s.vouchSet bk k
    let ts := s.tasks.filter fun e => us.contains e.1
    let cond := WaitCond.settled us
    need (condHolds s cond)
      (.block ((s'.scansAhead ts).modBank bk fun b => { b with vouching := some (b.pc, us) }) cond)
    let uid := (s.bank bk).uid.getD 0
    let flag (bit : Nat) : Nat := if ts.any fun e => e.2.rose (((s.task uid).map fun t => t.vouchSince bit).getD 0) bit then 2 ^ bit else 0
    return ((s'.modTask uid fun t => { t with lastVouch := s.cycle, vouchedAt := s.cycle }).modBank bk fun b => { b with vouching := none }).wx bk f.xd
      (w64 (flag 0 + flag 1 + flag 2))

end Sys2Proof.Machine
end

