-- ==== Sys2Proof/Machine/Host.lean ====
section
/-!
DEFINITION. Machine/Host.lean: the module at its edges: clocks, heat and power (R282 to R284, R390, R402 to R405), boot, images
and partitions (R320, R348, R400, R401), the host link, its memory accesses and resets (R396, R398), Riran ports (R399),
attestation (R349).
-/

namespace Sys2Proof.Machine

/-! ### Clock halving and allowances (R282 to R284) -/

/-- The droop hold time of a quadrant in cycles: the largest DHOLD of the contexts it serves (R325). -/
def State.droopHold (s : State) (q : Nat) : Nat :=
  let ds := (List.range 64).filterMap fun c =>
    let x := s.ctx c
    if (s.coreKeys.any fun k => s.quadOf k == q && x.part.toNat == keyPart k && bitAt x.cgrant (keyL k)) then some x.dhold.toNat else none
  500 * ds.foldl max (if ds.isEmpty then 4 else 0)

/-- DROOP_HALVING (R282): a trip, or a further one while the clock is halved. -/
def execDroopHalving (quad : Nat) (s : State) : Out :=
  whileUp s (s.modQuad quad fun q => { q with droop := true, droopAt := s.cycle })

/-- DROOP_RESTORE (R282): the detector has stayed clear for the hold time. -/
def execDroopRestore (quad : Nat) (s : State) : Out :=
  event s (if (s.quad quad).droop && decide ((s.quad quad).droopAt + s.droopHold quad ≤ s.cycle) then
    some (s.modQuad quad fun q => { q with droop := false }) else none)

/-- A signed headroom in its field. -/
def headField (h : Int) : Nat := wrapN 16 h

/-- The physical core that serves a logical core, or served it last (R283). -/
def State.lastServed (s : State) (ck : Nat) : Nat := if s.served ck then s.physOf ck else SMap.get 72 s.lastPhys ck

/-- The allowance of a logical core (R283, R284): ROTATE is set below 64 and cleared from 128 on. One that none has ever served keeps
its reset value. -/
def State.updateCore (s : State) (ck : Nat) : State :=
  if 72 ≤ s.lastServed ck then s
  else
    let h := 105 * 16 - (s.physCore (s.lastServed ck)).temp16
    let old := bitAt (s.core ck).allow 62
    let rot := if h < 64 then true else if 128 ≤ h then false else old
    let a := w64 (2 ^ 63 + (if rot then 2 ^ 62 else 0) + headField h)
    if (s.core ck).allow = a then s
    else
      let s := s.modCore ck fun c => { c with allow := a, rotateTick := if rot then (if old then c.rotateTick else some s.tick) else none }
      if rot && !old then s.signal 258 else s

/-- Thermal halving of a quadrant: from headroom 0 down, until every core has 32 (R284). -/
def State.updateQuad (s : State) (q : Nat) : State :=
  let hs := (s.coreKeys.filter fun k => s.quadOf k == q && s.served k).map fun k => 105 * 16 - (s.physCore (s.physOf k)).temp16
  let old := (s.quad q).thermal
  let new := if hs.any fun h => decide (h ≤ 0) then true else if hs.all fun h => decide (32 ≤ h) then false else old
  if new = old then s
  else
    let s := s.modQuad q fun d => { d with thermal := new }
    if new then s.signal 258 else s

/-- The allowance of an HBM stack: REFX2 is set below 0 and cleared from 32 on. -/
def State.updateStack (s : State) (n : Nat) : State :=
  let x := SMap.get StackSt.reset s.hbm n
  let h := 85 * 16 - x.temp16
  let new := if h < 0 then true else if 32 ≤ h then false else x.refx2
  let x' := { x with refx2 := new, refxAt := if new = x.refx2 then x.refxAt else s.cycle, allow := w64 (2 ^ 63 + (if new then 2 ^ 61 else 0) + headField h) }
  if x' = x then s
  else
    let s : State := { s with hbm := SMap.put s.hbm n x' }
    if new && !x.refx2 then s.signal 258 else s

/-- ALLOWANCE_UPDATE (R283): every 16 µs. -/
def tryAllowanceUpdate (s : State) : Option State :=
  if s.cycle < SMap.get 0 s.modl.last 0 + 16000 || s.modl.boot != 6 then none
  else
    let s := s.stampPeriod 0
    let s := s.coreKeys.foldl State.updateCore s
    let s := (List.range 4).foldl State.updateQuad s
    some ((List.range 12).foldl State.updateStack s)

/-- ALLOWANCE_UPDATE (R283). -/
def execAllowanceUpdate (s : State) : Out := event s (tryAllowanceUpdate s)

/-! ### Refresh and scrub (R42, R390) -/

/-- Base-die cycles since the stack's last refresh moment (R390): the moments lie 3,900 cycles apart, and a midpoint at which REFX2 is 1
is a moment too. -/
def StackSt.sinceMoment (x : StackSt) (cycle : Nat) : Nat :=
  let n := (cycle + 3900 - x.phase % 3900) % 3900
  if x.refx2 && decide (1950 ≤ n) && decide (x.refxAt + (n - 1950) ≤ cycle) then n - 1950 else n

/-- HBM_REFRESH (R390): the stack refuses new accesses for 350 cycles from each of its moments. -/
def tryHbmRefresh (stack : Nat) (s : State) : Option State :=
  let x := SMap.get StackSt.reset s.hbm stack
  let n := x.sinceMoment s.cycle
  if decide (stack < 12) && !x.refreshing && decide (n < 350) && s.modl.mpwr == 0 && s.modl.boot == 6 then
    some { s with
      hbm := SMap.put s.hbm stack { x with refreshing := true }
      modl := { s.modl with last := SMap.put s.modl.last (16 + stack) (s.cycle - n) } }
  else none

/-- HBM_REFRESH (R390). -/
def execHbmRefresh (stack : Nat) (s : State) : Out := event s (tryHbmRefresh stack s)

/-- REFRESH_END (R390): after 350 cycles; accesses of the host that met the refresh proceed. -/
def tryRefreshEnd (stack : Nat) (s : State) : Option State :=
  let x := SMap.get StackSt.reset s.hbm stack
  if x.refreshing && decide (SMap.get 0 s.modl.last (16 + stack) + 350 ≤ s.cycle) then
    some ({ s with hbm := SMap.put s.hbm stack { x with refreshing := false } } : State).freeHost else none

/-- REFRESH_END (R390). -/
def execRefreshEnd (stack : Nat) (s : State) : Out := event s (tryRefreshEnd stack s)

/-- SEMAPHORE_SCRUB (R42): every word is rewritten with its majority, once per millisecond; its value stays. -/
def execSemaphoreScrub (s : State) : Out :=
  event s (if s.powered && decide (SMap.get 0 s.modl.last 2 + 1000000 ≤ s.cycle) then some (s.stampPeriod 2) else none)

/-! ### The power cap (R403) -/

/-- POWER_CAP_HALVING (R403): PWRNOW above PWRCAP for 1 ms, then every 100 µs; the lowest quadrant not yet halved. -/
def tryPowerCapHalving (s : State) : Option State := do
  let q ← (List.range 4).find? fun q => !(s.quad q).power
  let above := decide (s.modl.pwrcap.toNat < bits s.modl.pwrnow 31 0)
  if !s.running || !above || s.cycle < SMap.get 0 s.modl.last 6 + 1000000 || s.cycle < SMap.get 0 s.modl.last 5 + 100000 then none
  return ((s.modQuad q fun d => { d with power := true }).stampPeriod 5).signal 258

/-- POWER_CAP_HALVING (R403). -/
def execPowerCapHalving (s : State) : Out := event s (tryPowerCapHalving s)

/-- POWER_CAP_RESTORE (R403): below 95 % of the cap, every 100 µs; the highest halved quadrant. -/
def tryPowerCapRestore (s : State) : Option State := do
  let q ← [3, 2, 1, 0].find? fun q => (s.quad q).power
  let under := decide (100 * bits s.modl.pwrnow 31 0 < 95 * s.modl.pwrcap.toNat)
  if !s.running || !under || s.cycle < SMap.get 0 s.modl.last 5 + 100000 then none
  return ((s.modQuad q fun d => { d with power := false }).stampPeriod 5).signal 258

/-- POWER_CAP_RESTORE (R403). -/
def execPowerCapRestore (s : State) : Out := event s (tryPowerCapRestore s)

/-! ### Planned power-downs (R360, R404, R405) -/

/-- Seals in progress on cores of a list end before a planned power-down takes its own (DEDUCED: log 6). -/
def State.endSeals (s : State) (ks : List Nat) : State := ks.foldl (fun s k => (trySealComplete k s).getD s) s

/-- The compute domain of a core goes as planned (R360): a shadowed core is sealed, and its state then comes from that epoch; of an
unshadowed one nothing is lost but what the caches hold. -/
def State.planDown (s : State) (k : Nat) : State :=
  let c := s.core k
  if c.gated || c.down then s
  else match if c.shadowed then s.grantee k else none with
    | some ctx => (s.sealPlanned k ctx).losePower k
    | none => s.modCore k fun c => { c with l1 := [], tlb := [], preload := [] }

/-- The cores of a list are powered down. -/
def State.planAll (s : State) (ks : List Nat) : State := ks.foldl State.planDown (s.endSeals ks)

/-- The module is powered down: every logical core is sealed, then its power goes (R404). One that is down already stays as it is. -/
def State.powerDown (s : State) (state : Nat) : State :=
  let s := if s.modl.mpwr = 0 then s.planAll (s.coreKeys.filter s.served) else s
  let s : State := { s with modl := { s.modl with mpwr := BitVec.ofNat 2 state } }
  s.rehalt.signal 258

/-- A write of MPWR (R404): 1 powers the running module down; 2 wakes it from state 1, whereupon each core resumes from its planned epoch
(R361); 3 does as 1, also after it, then FWSTAT := 0. A power-down takes one step, so none is ever in progress when one is asked for. -/
def tryMpwr (v : Word) (s : State) : Option State :=
  if !s.hostReady then none
  else if v = 1 then (if s.modl.mpwr = 0 then some (s.powerDown 1) else none)
  else if v = 2 then (if s.modl.mpwr = 1 then some ({ s with modl := { s.modl with mpwr := 0 } } : State).rehalt else none)
  else if v = 3 && s.modl.mpwr != 3 then
    let s := s.powerDown 3
    some { s with modl := { s.modl with fwstat := 0 } }
  else none

/-- MPWR_POWER_DOWN (R404). -/
def execMpwrPowerDown (s : State) : Out := hostEvent s (.writeBar 0x070 1) (tryMpwr 1 s)

/-- MPWR_WAKE (R404). -/
def execMpwrWake (s : State) : Out := hostEvent s (.writeBar 0x070 2) (tryMpwr 2 s)

/-- MPWR_SHUTDOWN (R404). -/
def execMpwrShutdown (s : State) : Out := hostEvent s (.writeBar 0x070 3) (tryMpwr 3 s)

/-- QUADRANT_THERMAL_POWER_DOWN (R405): a core above 110 °C. -/
def tryQuadrantThermalPowerDown (quad : Nat) (s : State) : Option State :=
  let hot := (range2 (18 * quad) 18).any fun p => decide (110 * 16 < (s.physCore p).temp16)
  if !s.running || !hot || (s.quad quad).thermalOff || decide (4 ≤ quad) then none
  else
    let s := s.planAll (s.coreKeys.filter fun k => s.quadOf k == quad && s.served k)
    some ((s.modQuad quad fun q => { q with thermalOff := true }).rehalt.signal 258)

/-- QUADRANT_THERMAL_POWER_DOWN (R405). -/
def execQuadrantThermalPowerDown (quad : Nat) (s : State) : Out := event s (tryQuadrantThermalPowerDown quad s)

/-- QUADRANT_THERMAL_RESUME (R405): every core below 95 °C; the cores then resume from their planned epochs (R361). -/
def execQuadrantThermalResume (quad : Nat) (s : State) : Out :=
  let cool := (range2 (18 * quad) 18).all fun p => decide ((s.physCore p).temp16 < 95 * 16)
  event s (if (s.quad quad).thermalOff && cool then some (s.modQuad quad fun q => { q with thermalOff := false }).rehalt else none)

/-- Whether an overheated stack of a die halves its quadrants. -/
def State.stackHeatOf (s : State) (die : Nat) : Bool := (range2 (6 * die) 6).any fun n => (SMap.get StackSt.reset s.hbm n).overheated

/-- A stack's overheating begins or ends; the quadrants of its die follow (R405). -/
def State.setOverheated (s : State) (stack : Nat) (v : Bool) : State :=
  let x := SMap.get StackSt.reset s.hbm stack
  let s : State := { s with hbm := SMap.put s.hbm stack { x with overheated := v } }
  let die := stack / 6
  let h := s.stackHeatOf die
  (s.modQuad (2 * die) fun q => { q with stackHeat := h }).modQuad (2 * die + 1) fun q => { q with stackHeat := h }

/-- STACK_OVERHEAT_HALVING (R405): above 95 °C. -/
def execStackOverheatHalving (stack : Nat) (s : State) : Out :=
  let x := SMap.get StackSt.reset s.hbm stack
  event s (if s.running && decide (stack < 12) && !x.overheated && decide (95 * 16 < x.temp16) then
    some ((s.setOverheated stack true).signal 258) else none)

/-- STACK_OVERHEAT_RESTORE (R405): below 90 °C. -/
def execStackOverheatRestore (stack : Nat) (s : State) : Out :=
  let x := SMap.get StackSt.reset s.hbm stack
  event s (if x.overheated && decide (x.temp16 < 90 * 16) then some (s.setOverheated stack false) else none)

/-- THERMAL_INPUT_LOSS (R405): any unit above 120 °C, or the inlet above 50 °C for 1 s. -/
def tryThermalInputLoss (s : State) : Option State :=
  let hot := s.phys.any (fun p => decide (120 * 16 < p.2.temp16)) || s.hbm.any fun x => decide (120 * 16 < x.2.temp16)
  let inlet := decide (50 * 16 < s.modl.inlet16) && decide (SMap.get 0 s.modl.last 7 + 1000000000 ≤ s.cycle)
  if s.powered && (hot || inlet) then some (s.inputLoss.signal 258) else none

/-- THERMAL_INPUT_LOSS (R405). -/
def execThermalInputLoss (s : State) : Out := event s (tryThermalInputLoss s)

/-! ### Boot and images (R348, R400, R401) -/

/-- BOOT (R400, step 1): 54 V is applied, the base-die domains come up, and the boot ROM begins to train the link, which LINK_RETRAIN
brings up (step 2). -/
def execBoot (s : State) : Out :=
  event s (if s.modl.boot = 0 && s.modl.lowFrom.isNone then some { s with modl := { s.modl with boot := 1 } } else none)

/-- FWGO (R400, step 3): 1 starts the verification; any other value is discarded. -/
def tryFwgo (value : Word) (s : State) : Option State :=
  if value = 1 && s.modl.boot == 2 && s.modl.linkUp then some { s with modl := { s.modl with boot := 3, fwstat := 1 } } else none

/-- FWGO (R400). -/
def execFwgo (value : Word) (s : State) : Out := hostEvent s (.writeBar 0x018 value) (tryFwgo value s)

/-- A little-endian field of an image. -/
def imgField (img : List Byte) (off n : Nat) : Nat := leVal ((img.drop off).take n)
def imgBytes (img : List Byte) (off n : Nat) : List Byte := (img.drop off).take n

/-- The acceptance of an image of a kind (R348): its layout, keys, security version and both signatures. -/
def firmwareOk (img : List Byte) (kind : Nat) : Bool :=
  let keys := imgField img 6 2
  let body := imgField img 16 8
  let msg := img.take (456 + body)
  let rsa := imgBytes img 24 384
  let slh := imgBytes img 408 48
  imgField img 0 4 == 0x46574153 && imgField img 4 2 == kind && decide (keys < 4) && imgField img 12 4 == 0
  && img.length == 456 + body + 384 + 16224
  && Config.sha384 rsa == Config.fuseDigest 0 (keys % 2) && !Config.fuseRevoked 0 (keys % 2)
  && Config.sha384 slh == Config.fuseDigest 1 (keys / 2) && !Config.fuseRevoked 1 (keys / 2)
  && decide (Config.fuseMinSvn kind ≤ imgField img 8 4)
  && Config.rsaVerify rsa msg (imgBytes img (456 + body) 384)
  && Config.slhVerify slh msg (imgBytes img (456 + body + 384) 16224)

/-- The image lies in host memory at an address. -/
def State.hostHolds (s : State) (a : Nat) (img : List Byte) : Bool := Memory.readList s.mem (hostLoc a) img.length == img

/-- FIRMWARE_VERIFICATION (R348): the image that FWGO named, or the oldest that SCHFW named, is read from host memory over the link and
accepted or discarded whole. -/
def tryFirmwareVerification (img : List Byte) (s : State) : Option State :=
  let m := s.modl
  if !m.linkUp then none
  else if m.boot = 3 then
    if img.length != m.fwlen.toNat || !s.hostHolds m.fwaddr.toNat img then none
    else if firmwareOk img 1 then
      some { s with modl := { m with boot := 4, fwstat := 3, svn := BitVec.ofNat 32 (imgField img 8 4), imageDigest := Config.sha384 img } }
    else some { s with modl := { m with boot := 2, fwstat := 2 } }
  else match m.schfw with
    | [] => none
    | (port, a) :: rest =>
      if !s.hostHolds a img then none
      else
        let s : State := { s with modl := { m with schfw := rest } }
        if firmwareOk img 2 then
          some { s with ports := SMap.put s.ports port { SMap.get Port.reset s.ports port with firmware := true, fwDigest := Config.sha384 img } }
        else some s

/-- FIRMWARE_VERIFICATION (R348). -/
def execFirmwareVerification (img : List (BitVec 8)) (s : State) : Out := event s (tryFirmwareVerification img s)

/-- The port that carries the traffic of a work entry: one of its partition's, which the spec leaves to the routing (R285). -/
def State.portOf (s : State) (core bank ch tl : Nat) : Nat :=
  let n := 16 / s.parts
  keyPart core * n + Config.workPort core bank ch tl % n

/-- No work entry of a port has fired and is incomplete (R401): none all written, none stopped half way. -/
def State.noneFired (s : State) (port : Nat) : Bool :=
  s.work.all (fun w => !w.fired || s.portOf w.core w.bank w.ch w.tl != port)
  && s.cores.all fun c => c.2.kq.all fun k => !((k.kind == .owrite || k.kind == .owred) && k.performed && s.portOf k.core k.bank k.ch k.tl == port)

/-- SCHFW (R401): discarded while its port has a fired work entry that is incomplete. -/
def trySchfw (value : Word) (s : State) : Option State :=
  if s.hostReady && bits value 11 4 == 0 && s.noneFired (bits value 3 0) then
    some { s with modl := { s.modl with schfw := s.modl.schfw ++ [(bits value 3 0, bits value 63 12 * 4096)] } } else none

/-- SCHFW (R401). -/
def execSchfw (value : Word) (s : State) : Out := hostEvent s (.writeBar 0x028 value) (trySchfw value s)

/-- Logical cores leave the physical cores that cannot serve. -/
def State.remap (s : State) : State :=
  (List.range 72).foldl (fun s p => if (s.physCore p).serviceable then s else s.evacuate p) { s with lmap := [] }

/-- ISMEL_INITIALISATION (R400, steps 5 and 6): first the quarantine record is read and every core scanned, where a core that fails its
scan gains 2; performed again, after the ports have trained, it makes the module ready, and the rolling resets and the scans begin. -/
def tryIsmelInitialisation (failed : List Nat) (s : State) : Option State :=
  if s.modl.boot = 4 then
    let s : State := ({ s with modl := { s.modl with boot := 5 } } : State).remap
    let s := failed.foldl (fun s p => s.addScore p 2) s
    some ((List.range 4).foldl State.checkQuad s)
  else if s.modl.boot = 5 then
    some ((({ s with modl := { s.modl with boot := 6, roll := 0, scanNext := 0 } } : State).stampPeriod 3).stampPeriod 4)
  else none

/-- ISMEL_INITIALISATION (R400). -/
def execIsmelInitialisation (failed : List Nat) (s : State) : Out := event s (tryIsmelInitialisation failed s)

/-- PARTCFG (R320, R401): while every context is free. -/
def tryPartcfg (value : Word) (s : State) : Option State :=
  if s.hostReady && bits value 1 0 != 3 && (List.range 64).all (fun c => (s.ctx c).cstate == 0) then
    some ({ s with modl := { s.modl with partcfg := BitVec.ofNat 2 (bits value 1 0) } } : State).remap else none

/-- PARTCFG (R320, R401). -/
def execPartcfg (value : Word) (s : State) : Out := hostEvent s (.writeBar 0x030 value) (tryPartcfg value s)

/-- PRESET (R401): 0x5253 requests a package reset. -/
def tryPreset (value : Word) (s : State) : Option State :=
  if value = 0x5253 && decide (2 ≤ s.modl.boot.toNat) && s.modl.linkUp then some s.resetPackage else none

/-- PRESET (R401). -/
def execPreset (value : Word) (s : State) : Out := hostEvent s (.writeBar 0x078 value) (tryPreset value s)

/-! ### The host link (R396, R398) -/

/-- Where the byte at an address of a partition's logical memory lies: in the slice to which a leaf of the partition pins its page, else in
HBM (R39, R398). -/
def hdmLoc (part : Nat) (pins : List (Nat × Word × Nat)) (addr : Nat) : Nat :=
  match pins.find? fun x => decide (bits x.2.1 55 16 * 2 ^ 16 ≤ addr) && decide (addr < bits x.2.1 55 16 * 2 ^ 16 + 2 ^ levelShift x.2.2) with
  | some x => sliceLoc part (bits x.2.1 13 8) addr
  | none => memLoc part addr

/-- The places of a run of an HDM range, byte by byte. -/
def State.hdmLocs (s : State) (part addr n : Nat) : List Nat :=
  let pins := (s.leaves part).filter fun x => bits x.2.1 6 5 == 2
  (List.range n).map fun i => hdmLoc part pins (addr + i)

/-- An access of the host to its HDM range (R398): it waits while a stack that it reaches refreshes (R390). -/
def State.hdmAccess (s : State) (a : Input) (part addr n : Nat) (f : List Nat → State) : State :=
  let locs := s.hdmLocs part addr n
  if !(s.hostReady && decide (part < s.parts) && decide (addr + n ≤ s.memSize)) then s.hostAccess a none
  else if locs.any fun x => s.refreshed ⟨x, true, none⟩ then s.holdHost a
  else s.hostAccess a (some (f locs))

/-- A host read of an HDM range (R398): the newest value, published or not. -/
def State.hdmRead (s : State) (part addr len : Nat) : State :=
  s.hdmAccess (.hdmRead part addr len) part addr len fun locs => { s with modl := { s.modl with reply := locs.map (Memory.read s.mem) } }

/-- HOST_READ (R398). -/
def execHostRead (part addr len : Nat) (s : State) : Out := .next (s.hdmRead part addr len)

/-- A dirty L1 copy of a sector is written back (R398), and preload buffers read it again (R274). -/
def State.dropDirty (s : State) (sec : Nat) : State :=
  { s with cores := s.cores.map fun c =>
      (c.1, { c.2 with
        l1 := if SMap.find c.2.l1 sec = some .dirty then SMap.del c.2.l1 sec else c.2.l1
        preload := dropStaged (· == sec) c.2.preload }) }

/-- Bytes from an address on, sector by sector, with the place of each run. -/
def sectorRuns (place : Nat → Nat) : Nat → Nat → List Byte → List (Nat × List Byte)
  | 0, _, _ => []
  | n + 1, a, bs =>
    if bs.isEmpty then []
    else
      let m := 32 - a % 32
      (place a, bs.take m) :: sectorRuns place n (a + m) (bs.drop m)

/-- Bytes of the host merged at their places: dirty copies are written back, and each sector is published with its narrow record cleared
(R398). -/
def State.hostMerge (s : State) (runs : List (Nat × List Byte)) : State :=
  runs.foldl (fun s r => ((s.writeLoc r.1 r.2).dropDirty (sectorOf r.1)).publish (2 ^ 16) (sectorOf r.1)) s

/-- A host write of an HDM range (R398). -/
def State.hdmWrite (s : State) (part addr : Nat) (bytes : List Byte) : State :=
  s.hdmAccess (.hdmWrite part addr bytes) part addr bytes.length fun _ =>
    s.hostMerge (sectorRuns (hdmLoc part ((s.leaves part).filter fun x => bits x.2.1 6 5 == 2)) (bytes.length / 32 + 2) addr bytes)

/-- HOST_WRITE (R398). -/
def execHostWrite (part addr : Nat) (bytes : List (BitVec 8)) (s : State) : Out := .next (s.hdmWrite part addr bytes)

/-- The slice gives a line of host memory back to the host: dirty copies of it are written back (R398). -/
def State.giveBack (s : State) (addr : Nat) : State :=
  (sectorsOf (hostLoc (addr / 64 * 64)) 64).foldl State.dropDirty s

/-- HOST_COHERENCE_REQUEST (R398). -/
def execHostCoherenceRequest (addr : Nat) (s : State) : Out :=
  hostEvent s (.coherence addr) (if s.modl.linkUp then some (s.giveBack addr) else none)

/-- The host writes its own memory: the slices give the lines back, and a copy that a core holds is stale (R398; DEDUCED: log 24). -/
def State.hostStore (s : State) (addr : Nat) (bytes : List Byte) : State :=
  if 2 ^ 64 < addr + bytes.length then s else s.hostMerge (sectorRuns hostLoc (bytes.length / 32 + 2) addr bytes)

/-- FUNCTION_LEVEL_RESET (R396): KILLC on every context; one that was only configured is free at once, a running one when its
kill ends. -/
def tryFunctionLevelReset (s : State) : Option State :=
  if s.modl.linkUp then some ((List.range 64).foldl (fun s c =>
    if (s.ctx c).cstate = 2 then s.killContext c 13 else if (s.ctx c).cstate = 1 then s.freeContext c else s) s) else none

/-- FUNCTION_LEVEL_RESET (R396). -/
def execFunctionLevelReset (s : State) : Out := hostEvent s .functionReset (tryFunctionLevelReset s)

/-- CONVENTIONAL_RESET (R396). -/
def execConventionalReset (s : State) : Out := whileUp s s.resetPackage

/-- LINK_DOWN (R396): the module keeps running. -/
def execLinkDown (s : State) : Out := .next { s with modl := { s.modl with linkUp := false } }

/-- LINK_RETRAIN (R396): at full width and rate or not; accesses that waited proceed. The first training of a boot is its step 2 (R400);
a link that trains at nothing stays in training, and the step does not happen. -/
def execLinkRetrain (full : Bool) (s : State) : Out :=
  event s (if s.powered && !s.modl.linkUp then
    let m := s.modl
    some ({ s with modl := { m with linkUp := true, linkNarrow := !full, boot := if m.boot = 1 then 2 else m.boot } } : State).freeHost
  else none)

/-! ### Riran ports (R399) -/

/-- PORT_TRAINING (R399): eight lanes, four, or down; a change of state signals vector 259. -/
def tryPortTraining (port lanes : Nat) (s : State) : Option State :=
  if !s.running || decide (16 ≤ port) then none
  else
    let p := SMap.get Port.reset s.ports port
    let n := if 8 ≤ lanes then 8 else if 4 ≤ lanes then 4 else 0
    if n = p.lanes then some s
    else some (({ s with ports := SMap.put s.ports port { p with lanes := n } } : State).signal 259)

/-- PORT_TRAINING (R399). -/
def execPortTraining (port lanes : Nat) (s : State) : Out :=
  event s ((tryPortTraining port lanes s))

/-- FLIT_REPLAY (R399): a flit is never delivered twice. -/
def execFlitReplay (_port : Nat) (s : State) : Out := .next s

/-! ### Attestation (R349) -/

/-- An SPDM answer. -/
def State.answer (s : State) (code : Nat) (reply : List Byte) : State :=
  { s with modl := { s.modl with transcript := s.modl.transcript ++ [BitVec.ofNat 8 code], reply := reply } }

/-- ERROR UnsupportedRequest. -/
def unsupported (code : Nat) : List Byte := Config.spdmBody 0x7F [7, BitVec.ofNat 8 code]

/-- A signed answer: the RSA signature of the message is kept for the second signature. -/
def State.answerSigned (s : State) (code : Nat) (body : List Byte) : State :=
  let msg := s.modl.transcript ++ [BitVec.ofNat 8 code] ++ body
  let t := s.answer code (body ++ Config.rsaSign msg)
  { t with modl := { t.modl with signed := msg } }

/-- The algorithms that the responder knows of (R349). -/
inductive SpdmAlgorithm
  | rsassaPss3072 | hashSha384 | measurementSha384
deriving DecidableEq, Repr

/-- The algorithms that the responder offers, and no others (R349). -/
def offeredAlgorithms : List SpdmAlgorithm := [.rsassaPss3072, .hashSha384, .measurementSha384]

/-- The bit of an algorithm in its field of ALGORITHMS: base asymmetric, base hash, measurement hash (PRESUMED from the SPDM standard,
assumption log 32). -/
def SpdmAlgorithm.field : SpdmAlgorithm → List Byte
  | .rsassaPss3072 => leBytes 4 8
  | .hashSha384 => leBytes 4 2
  | .measurementSha384 => leBytes 4 4

/-- The measured content of an index (R349). -/
def State.measured (s : State) (index : Nat) : List Byte :=
  match index with
  | 1 => s.modl.imageDigest
  | 2 => (List.range 16).flatMap fun p => (SMap.get Port.reset s.ports p).fwDigest
  | 3 => leBytes 4 (Config.fuseMinSvn 1) ++ leBytes 4 (Config.fuseMinSvn 2)
      ++ leBytes 1 ((if Config.fuseRevoked 0 0 then 1 else 0) + (if Config.fuseRevoked 0 1 then 2 else 0)
        + (if Config.fuseRevoked 1 0 then 4 else 0) + (if Config.fuseRevoked 1 1 then 8 else 0))
  | 4 => leBytes 1 s.modl.partcfg.toNat
  | _ => []

/-- What a DOE mailbox answers (R349, R396): GET_VERSION begins a session transcript; ALGORITHMS offers RSASSA-PSS 3072 and SHA-384 only; slot
0 alone has a chain; measurements have the indices 1 to 4; of vendor-defined requests, standard PCI-SIG (3, PRESUMED from the SPDM
standard, assumption log 32) with Saheloa's vendor ID and code 0x0001 signs the last signed message with the second key. -/
def State.doe (s : State) : DoeRequest → State
  | .cdat entry => { s with modl := { s.modl with reply := Config.cdatEntry entry } }
  | .getVersion => ({ s with modl := { s.modl with transcript := [], signed := [] } } : State).answer 0x84 (Config.spdmBody 0x84 [0x12, 0x13])
  | .getCapabilities => s.answer 0xE1 (Config.spdmBody 0xE1 [])
  | .negotiateAlgorithms => s.answer 0xE3 (Config.spdmBody 0xE3 (offeredAlgorithms.flatMap SpdmAlgorithm.field))
  | .getDigests => s.answer 0x81 (Config.spdmBody 0x81 (Config.sha384 Config.certChain))
  | .getCertificate slot offset len =>
    if slot = 0 then s.answer 0x82 (Config.spdmBody 0x82 ((Config.certChain.drop offset).take len)) else s.answer 0x82 (unsupported 0x82)
  | .challenge slot nonce =>
    if slot = 0 then s.answerSigned 0x83 (Config.spdmBody 0x83 (Config.sha384 Config.certChain ++ nonce)) else s.answer 0x83 (unsupported 0x83)
  | .getMeasurements index nonce =>
    if 1 ≤ index && index ≤ 4 then
      s.answerSigned 0xE0 (Config.spdmBody 0xE0 (leBytes 1 index ++ Config.sha384 (s.measured index) ++ nonce))
    else s.answer 0xE0 (unsupported 0xE0)
  | .vendorDefined code =>
    if code.standard = 3 && code.vendor == Config.saheloaVendor && code.request == 1 then
      s.answer 0xFE (Config.slhSign s.modl.signed ++ Config.slhCertChain)
    else s.answer 0xFE (unsupported 0xFE)
  | .unsupported code => s.answer code.toNat (unsupported code.toNat)

/-- A request to a mailbox is answered over the link (R349, R396). -/
def State.doeAccess (s : State) (r : DoeRequest) : State := s.hostAccess (.doe r) (if s.modl.linkUp then some (s.doe r) else none)

/-- CDAT_DOE_REQUEST (R396). -/
def execCdatDoeRequest (entry : Nat) (s : State) : Out := .next (s.doeAccess (.cdat entry))

/-- GET_VERSION (R349). -/
def execGetVersion (s : State) : Out := .next (s.doeAccess .getVersion)

/-- GET_CAPABILITIES (R349). -/
def execGetCapabilities (s : State) : Out := .next (s.doeAccess .getCapabilities)

/-- NEGOTIATE_ALGORITHMS (R349). -/
def execNegotiateAlgorithms (s : State) : Out := .next (s.doeAccess .negotiateAlgorithms)

/-- GET_DIGESTS (R349). -/
def execGetDigests (s : State) : Out := .next (s.doeAccess .getDigests)

/-- GET_CERTIFICATE (R349). -/
def execGetCertificate (slot offset len : Nat) (s : State) : Out := .next (s.doeAccess (.getCertificate slot offset len))

/-- CHALLENGE (R349). -/
def execChallenge (slot : Nat) (nonce : List (BitVec 8)) (s : State) : Out := .next (s.doeAccess (.challenge slot nonce))

/-- GET_MEASUREMENTS (R349). -/
def execGetMeasurements (index : Nat) (nonce : List (BitVec 8)) (s : State) : Out := .next (s.doeAccess (.getMeasurements index nonce))

/-- VENDOR_DEFINED_REQUEST (R349). -/
def execVendorDefinedRequest (code : VendorCode) (s : State) : Out := .next (s.doeAccess (.vendorDefined code))

/-- UNSUPPORTED_REQUEST (R349). -/
def execUnsupportedRequest (code : BitVec 8) (s : State) : Out := .next (s.doeAccess (.unsupported code))

/-! ### Writes of BAR0 (R323, R324, R342, R365, R397, R401) -/

/-- A write of the module block. -/
def State.modlWrite (s : State) (off : Nat) (v : Word) : Option State :=
  match off with
  | 0x018 => tryFwgo v s
  | 0x028 => trySchfw v s
  | 0x030 => tryPartcfg v s
  | 0x070 => tryMpwr v s
  | 0x078 => tryPreset v s
  | _ => tryRegisterWrite .modl off v s

/-- A write of a context block: CSTATE takes the value of its field, FANS the answers 0 and 1. -/
def State.ctxWrite (s : State) (c off : Nat) (v : Word) : Option State :=
  match off with
  | 0x000 =>
    match bits v 1 0 with
    | 0 => tryCstateFree c s
    | 1 => tryCstateConfigure c s
    | 2 => tryCstateRun c s
    | _ => tryKillc c s
  | 0x008 => tryCgrant c v s
  | 0x0A8 => tryLaunchDoorbell c v s
  | 0x0B0 => tryLbud c v s
  | 0x0B8 => tryKilll c v s
  | 0x0C0 => tryKillc c s
  | 0x0E0 => tryHans c v s
  | 0x0E8 => if bits v 1 0 < 2 then tryFans c (BitVec.ofNat 32 (bits v 63 32)) (bits v 1 0 == 1) s else none
  | 0x110 => trySemd c v s
  | _ => tryRegisterWrite (.ctx c) off v s

/-- A host write of a doubleword of BAR0; from 0x5_0000 on it is discarded (R397). -/
def State.writeBar (s : State) (off : Nat) (v : Word) : State :=
  s.hostAccess (.writeBar off v) (match barBlock off with
    | some (.modl, o) => s.modlWrite o v
    | some (.ctx c, o) => s.ctxWrite c o v
    | none => none)

end Sys2Proof.Machine
end

