-- ==== Sys2Proof/Machine/Rv64.lean ====
section
/-!
DEFINITION. Machine/Rv64.lean: the RV64 rows (R64, R65, R197, R244, R326 to R328): loads, stores, atomics, fences,
environment calls, the CSR instructions and every other RV64I, M, Zba and Zbb instruction.
-/

namespace Sys2Proof.Machine

/-! ### Loads and stores (R244) -/

/-- Bytes of a load, and whether it is sign-extended (R64). -/
def loadSize : LoadOp → Nat
  | .lb | .lbu => 1
  | .lh | .lhu => 2
  | .lw | .lwu => 4
  | .ld => 8
def loadSigned : LoadOp → Bool
  | .lb | .lh | .lw | .ld => true
  | _ => false

def storeSize : StoreOp → Nat
  | .sb => 1
  | .sh => 2
  | .sw => 4
  | .sd => 8

/-- A loaded value extended to 64 bits. -/
def extend (signed : Bool) (n v : Nat) : Word := if signed then BitVec.ofInt 64 (toSigned (8 * n) v) else w64 v

/-- A plain load of the control core: the checks of R193, then the L1 sector is filled and read (R181, R186). -/
def loadMem (s : State) (va : Word) (n : Nat) : Except Stop (Nat × State) :=
  let ag := s.agent s.me
  match access s ag .read false 4 va n with
  | .error e => .error e
  | .ok (p, s') => .ok (s'.readLoc p.loc n, s'.fill ag.key p)

/-- A plain store of the control core: the checks of R193, then the bytes and the narrow record (R186, R187). -/
def storeMem (s : State) (va : Word) (n v : Nat) : Except Stop State :=
  let ag := s.agent s.me
  match access s ag .write false 6 va n with
  | .error e => .error e
  | .ok (p, s') => .ok (s'.storeL1 ag p (leBytes n v) none)

/-- RV64_LOAD (R64, R244). -/
def execRv64Load (op : LoadOp) (rd rs1 : BitVec 5) (imm : BitVec 12) (s : State) : Out :=
  perform s 4 <|
    match loadMem s (s.rx s.me rs1 + sx64 imm) (loadSize op) with
    | .error e => .error e
    | .ok (v, s') => .ok (s'.wx s.me rd (extend (loadSigned op) (loadSize op) v))

/-- RV64_STORE (R64, R244). -/
def execRv64Store (op : StoreOp) (rs1 rs2 : BitVec 5) (imm : BitVec 12) (s : State) : Out :=
  perform s 4 (storeMem s (s.rx s.me rs1 + sx64 imm) (storeSize op) (s.rx s.me rs2).toNat)

/-! ### Atomics (R197) -/

/-- The value an AMO stores; `w` is its width in bits. -/
def amoValue (op : AmoOp) (w old v : Nat) : Nat :=
  let a := old % 2 ^ w
  let b := v % 2 ^ w
  match op with
  | .swap => b
  | .add => (a + b) % 2 ^ w
  | .xor => a ^^^ b
  | .and => a &&& b
  | .or => a ||| b
  | .min => if toSigned w b < toSigned w a then b else a
  | .max => if toSigned w a < toSigned w b then b else a
  | .minu => min a b
  | .maxu => max a b

/-- AMO (R197): as if aq and rl were set at package scope, performed at the home, its sector published. -/
def execAmo (op : AmoOp) (dbl _aq _rl : Bool) (rd rs1 rs2 : BitVec 5) (s : State) : Out :=
  perform s 4 <|
    let ag := s.agent s.me
    let n := if dbl then 8 else 4
    match access s ag .atomic true 6 (s.rx s.me rs1) n with
    | .error e => .error e
    | .ok (p, s') =>
      let s' := s'.release ag 4
      let old := s'.readLoc p.loc n
      let s' := s'.storePublished ag.key p (leBytes n (amoValue op (8 * n) old (s.rx s.me rs2).toNat))
      .ok ((s'.acquire ag.key 4).wx s.me rd (extend true n old))

/-- LR (R197): the reservation set is the sector. -/
def execLr (dbl _aq _rl : Bool) (rd rs1 : BitVec 5) (s : State) : Out :=
  perform s 4 <|
    let ag := s.agent s.me
    let n := if dbl then 8 else 4
    match access s ag .read true 4 (s.rx s.me rs1) n with
    | .error e => .error e
    | .ok (p, s') =>
      let s' := (s'.release ag 4).acquire ag.key 4
      let v := s'.readLoc p.loc n
      let s' := { s' with resv := (s.me, sectorOf p.loc) :: s'.resv.filter fun r => r.1 != s.me }
      .ok (s'.wx s.me rd (extend true n v))

/-- SC (R197): it stores and writes 0 where the bank's reservation on the sector stands, and writes 1 otherwise. -/
def execSc (dbl _aq _rl : Bool) (rd rs1 rs2 : BitVec 5) (s : State) : Out :=
  perform s 4 <|
    let ag := s.agent s.me
    let n := if dbl then 8 else 4
    match access s ag .write true 6 (s.rx s.me rs1) n with
    | .error e => .error e
    | .ok (p, s') =>
      let held := s'.resv.contains (s.me, sectorOf p.loc)
      let s' := { s' with resv := s'.resv.filter fun r => r.1 != s.me }
      let s' := s'.release ag 4
      let s' := if held then s'.storePublished ag.key p (leBytes n (s.rx s.me rs2).toNat) else s'
      .ok ((s'.acquire ag.key 4).wx s.me rd (if held then 0 else 1))

/-- RV_FENCE (R197): fence.sc at package scope where both sets are nonempty; nothing otherwise. -/
def execRvFence (_fm pred succ : BitVec 4) (_rd _rs1 : BitVec 5) (s : State) : Out :=
  perform s 4 <| .ok <|
    if pred = 0 || succ = 0 then s
    else
      let ag := s.agent s.me
      (s.release ag 4).acquire ag.key 4

/-- FENCE_I (R197, R230): every fetch of the model reads instruction memory as it stands. -/
def execFenceI (_rd _rs1 : BitVec 5) (_imm : BitVec 12) (s : State) : Out := perform s 4 (.ok s)

/-- ECALL (R328, R329): cause 8, stval 0. -/
def execEcall (s : State) : Out := perform s 4 (.error (.trap 8 0))

/-- EBREAK (R328, R329): cause 3, stval 0. -/
def execEbreak (s : State) : Out := perform s 4 (.error (.trap 3 0))

/-- ILLEGAL_INSTRUCTION (R60 to R63): the trap of a word that is no instruction, or whose operands lie outside their
limits, after the crew check of R62 step 6 and the privilege check of R326 where they come first. -/
def execIllegalInstruction (r : Reject) (s : State) : Out :=
  perform s 4 do
    match r.ctl with
    | some (c, q) => checkCrew s c q
    | none => pure ()
    if r.priv then checkPriv s
    throw (.bad (if r.operand then 24 else 2) r.reason.toNat r.field.toNat)

/-! ### CSRs (R65, R327) -/

/-- The trap CSRs, which task mode may not access (R326). -/
def privCsr (n : Nat) : Bool := n == 0x105 || (decide (0x140 ≤ n) && decide (n ≤ 0x143))

/-- The value of a CSR; none for a number that is not implemented. -/
def csrRead (s : State) (bk n : Nat) : Option Word :=
  let b := s.bank bk
  let c := s.core (keyCore bk)
  if n = 0x800 then some b.nrm
  else if 0x801 ≤ n ∧ n ≤ 0x807 then some ((SMap.get 0 c.pace (n - 0x801)).setWidth 64)
  else if n = 0x808 then some (b.vrb.setWidth 64)
  else if n = 0x809 then some (b.prb.setWidth 64)
  else if n = 0x80A then some (b.lc.setWidth 64)
  else if n = 0x810 then some (b.vupc.setWidth 64)
  else if n = 0x811 then some (b.vl0.setWidth 64)
  else if n = 0x812 then some (b.vl1.setWidth 64)
  else if n = 0x818 then some (b.mupc.setWidth 64)
  else if n = 0x819 then some (b.row.setWidth 64)
  else if n = 0x81A then some (b.col.setWidth 64)
  else if n = 0x81B then some (b.depth.setWidth 64)
  else if 0x820 ≤ n ∧ n ≤ 0x83F then
    let u := (n - 0x820) / 8
    let i := (n - 0x820) % 8
    if i = 0 then some ((SMap.get 0 b.cupc u).setWidth 64)
    else if i ≤ 6 then some ((SMap.get 0 b.cli (8 * u + (i - 1))).setWidth 64)
    else none
  else if n = 0x840 ∨ n = 0x842 then some ((SMap.get 0 b.kseq ((n - 0x840) / 2)).setWidth 64)
  else if n = 0x841 ∨ n = 0x843 then some ((SMap.get 0 b.kstep ((n - 0x841) / 2)).setWidth 64)
  else if n = 0x5C0 then some b.ntdet
  else if n = 0xCC0 then some (w64 (keyL (keyCore bk)))
  else if n = 0x105 then some b.stvec
  else if n = 0x140 then some b.sscratch
  else if n = 0x141 then some b.sepc
  else if n = 0x142 then some b.scause
  else if n = 0x143 then some b.stval
  else none

/-- A write of a value to a CSR other than NRM: each field takes its own bits (R11, R12). -/
def csrWrite (s : State) (bk n : Nat) (v : Word) : State :=
  let w {k : Nat} : BitVec k := v.setWidth k
  let upc : BitVec 16 := v.setWidth 16 &&& 0x81FF#16
  if 0x801 ≤ n ∧ n ≤ 0x807 then
    s.modCore (keyCore bk) fun c => { c with pace := SMap.set 0 c.pace (n - 0x801) w }
  else s.modBank bk fun b =>
    if n = 0x808 then { b with vrb := if b.grant = 0 then 0 else BitVec.ofNat 8 (bits v 7 0 % b.grant) }
    else if n = 0x809 then { b with prb := BitVec.ofNat 6 (bits v 5 0 % 48) }
    else if n = 0x80A then { b with lc := w }
    else if n = 0x810 then { b with vupc := w }
    else if n = 0x811 then { b with vl0 := w }
    else if n = 0x812 then { b with vl1 := w }
    else if n = 0x818 then { b with mupc := upc }
    else if n = 0x819 then { b with row := w }
    else if n = 0x81A then { b with col := w }
    else if n = 0x81B then { b with depth := w }
    else if 0x820 ≤ n ∧ n ≤ 0x83F then
      let u := (n - 0x820) / 8
      let i := (n - 0x820) % 8
      if i = 0 then { b with cupc := SMap.set 0 b.cupc u upc }
      else { b with cli := SMap.set 0 b.cli (8 * u + (i - 1)) w }
    else if n = 0x840 ∨ n = 0x842 then { b with kseq := SMap.set 0 b.kseq ((n - 0x840) / 2) w }
    else if n = 0x841 ∨ n = 0x843 then { b with kstep := SMap.set 0 b.kstep ((n - 0x841) / 2) w }
    else if n = 0x5C0 then { b with ntdet := v &&& 0xFFFF#64 }
    else if n = 0x105 then { b with stvec := v &&& ~~~3#64 }
    else if n = 0x140 then { b with sscratch := v }
    else if n = 0x141 then { b with sepc := v &&& ~~~3#64 }
    else if n = 0x142 then { b with scause := v &&& ~~~(1#64 <<< 63) }
    else if n = 0x143 then { b with stval := v }
    else b

/-- How a CSR instruction forms what it writes (R11). -/
inductive CsrOp
  | write | set | clear
deriving DecidableEq, Repr

/-- A Zicsr instruction (R11, R65, R326): `none` as the source writes nothing. -/
def csrAccess (s : State) (op : CsrOp) (rd : BitVec 5) (n : Nat) (src : Option Word) : Except Stop State := do
  let bk := s.me
  let some old := csrRead s bk n | throw (.bad 2 0x06 20)
  need (src.isNone || !(decide (0xCC0 ≤ n) && decide (n ≤ 0xCFF))) (.bad 2 0x06 20)
  if privCsr n then checkPriv s
  let s' := match src with
    | none => s
    | some v =>
      if n = 0x800 then s.modBank bk fun b => { b with nrm := match op with
        | .write => nrmWrite b.nrm v
        | .set => nrmSet b.nrm v
        | .clear => nrmClear b.nrm v }
      else csrWrite s bk n (match op with
        | .write => v
        | .set => old ||| v
        | .clear => old &&& ~~~v)
  return s'.wx bk rd old

/-- CSRRW (R11). -/
def execCsrrw (rd : BitVec 5) (csr : BitVec 12) (rs1 : BitVec 5) (s : State) : Out :=
  perform s 4 (csrAccess s .write rd csr.toNat (some (s.rx s.me rs1)))

/-- CSRRS (R11). -/
def execCsrrs (rd : BitVec 5) (csr : BitVec 12) (rs1 : BitVec 5) (s : State) : Out :=
  perform s 4 (csrAccess s .set rd csr.toNat (if rs1 = 0 then none else some (s.rx s.me rs1)))

/-- CSRRC (R11). -/
def execCsrrc (rd : BitVec 5) (csr : BitVec 12) (rs1 : BitVec 5) (s : State) : Out :=
  perform s 4 (csrAccess s .clear rd csr.toNat (if rs1 = 0 then none else some (s.rx s.me rs1)))

/-- CSRRWI (R11). -/
def execCsrrwi (rd : BitVec 5) (csr : BitVec 12) (uimm : BitVec 5) (s : State) : Out :=
  perform s 4 (csrAccess s .write rd csr.toNat (some (uimm.setWidth 64)))

/-- CSRRSI (R11). -/
def execCsrrsi (rd : BitVec 5) (csr : BitVec 12) (uimm : BitVec 5) (s : State) : Out :=
  perform s 4 (csrAccess s .set rd csr.toNat (if uimm = 0 then none else some (uimm.setWidth 64)))

/-- CSRRCI (R11). -/
def execCsrrci (rd : BitVec 5) (csr : BitVec 12) (uimm : BitVec 5) (s : State) : Out :=
  perform s 4 (csrAccess s .clear rd csr.toNat (if uimm = 0 then none else some (uimm.setWidth 64)))

/-! ### The other instructions of RV64I, M, Zba and Zbb (R64) -/

/-- A 32-bit result sign-extended to 64 bits. -/
def sxw (v : Word) : Word := (v.setWidth 32).signExtend 64

/-- Signed division with the quotients of RISC-V: all ones by zero, the dividend on overflow. -/
def divS (w : Nat) (a b : Int) : Int :=
  if b = 0 then -1 else if a = -(2 ^ (w - 1) : Nat) ∧ b = -1 then a else a.tdiv b
def remS (w : Nat) (a b : Int) : Int :=
  if b = 0 then a else if a = -(2 ^ (w - 1) : Nat) ∧ b = -1 then 0 else a.tmod b
def divU (w a b : Nat) : Nat := if b = 0 then 2 ^ w - 1 else a / b
def remU (a b : Nat) : Nat := if b = 0 then a else a % b

/-- An integer as a word. -/
def ofI (i : Int) : Word := BitVec.ofInt 64 i

/-- Register-register operations. -/
def regOp (op : RegOp) (a b : Word) : Word :=
  let sh := bits b 5 0
  let shw := bits b 4 0
  let aw : BitVec 32 := a.setWidth 32
  let bw : BitVec 32 := b.setWidth 32
  let au : Word := aw.setWidth 64
  match op with
  | .add => a + b
  | .sub => a - b
  | .sll => a <<< sh
  | .slt => if a.slt b then 1 else 0
  | .sltu => if a.ult b then 1 else 0
  | .xor => a ^^^ b
  | .srl => a >>> sh
  | .sra => a.sshiftRight sh
  | .or => a ||| b
  | .and => a &&& b
  | .addw => sxw (a + b)
  | .subw => sxw (a - b)
  | .sllw => (aw <<< shw).signExtend 64
  | .srlw => (aw >>> shw).signExtend 64
  | .sraw => (aw.sshiftRight shw).signExtend 64
  | .mul => a * b
  | .mulh => ofI (a.toInt * b.toInt / (2 ^ 64 : Nat))
  | .mulhsu => ofI (a.toInt * (b.toNat : Int) / (2 ^ 64 : Nat))
  | .mulhu => w64 (a.toNat * b.toNat / 2 ^ 64)
  | .div => ofI (divS 64 a.toInt b.toInt)
  | .divu => w64 (divU 64 a.toNat b.toNat)
  | .rem => ofI (remS 64 a.toInt b.toInt)
  | .remu => w64 (remU a.toNat b.toNat)
  | .mulw => sxw (a * b)
  | .divw => sxw (ofI (divS 32 aw.toInt bw.toInt))
  | .divuw => sxw (w64 (divU 32 aw.toNat bw.toNat))
  | .remw => sxw (ofI (remS 32 aw.toInt bw.toInt))
  | .remuw => sxw (w64 (remU aw.toNat bw.toNat))
  | .sh1add => (a <<< 1) + b
  | .sh2add => (a <<< 2) + b
  | .sh3add => (a <<< 3) + b
  | .addUw => au + b
  | .sh1addUw => (au <<< 1) + b
  | .sh2addUw => (au <<< 2) + b
  | .sh3addUw => (au <<< 3) + b
  | .andn => a &&& ~~~b
  | .orn => a ||| ~~~b
  | .xnor => ~~~(a ^^^ b)
  | .max => if a.slt b then b else a
  | .maxu => if a.ult b then b else a
  | .min => if b.slt a then b else a
  | .minu => if b.ult a then b else a
  | .rol => a.rotateLeft sh
  | .ror => a.rotateRight sh
  | .rolw => (aw.rotateLeft shw).signExtend 64
  | .rorw => (aw.rotateRight shw).signExtend 64

/-- Register-immediate operations. -/
def immOp (op : ImmOp) (a i : Word) : Word :=
  match op with
  | .addi => a + i
  | .slti => if a.slt i then 1 else 0
  | .sltiu => if a.ult i then 1 else 0
  | .xori => a ^^^ i
  | .ori => a ||| i
  | .andi => a &&& i
  | .addiw => sxw (a + i)

/-- Shifts by an immediate. -/
def shOp (op : ShOp) (a : Word) (k : Nat) : Word :=
  match op with
  | .slli => a <<< k
  | .srli => a >>> k
  | .srai => a.sshiftRight k
  | .rori => a.rotateRight k
  | .slliUw => ((a.setWidth 32).setWidth 64) <<< k

/-- 32-bit shifts by an immediate. -/
def shwOp (op : ShwOp) (a : Word) (k : Nat) : Word :=
  let w : BitVec 32 := a.setWidth 32
  (match op with
   | .slliw => w <<< k
   | .srliw => w >>> k
   | .sraiw => w.sshiftRight k
   | .roriw => w.rotateRight k).signExtend 64

/-- One-operand operations. -/
def unOp (op : UnOp) (a : Word) : Word :=
  let w := bits a 31 0
  match op with
  | .clz => w64 (clzN 64 a.toNat)
  | .ctz => w64 (ctzN 64 a.toNat)
  | .cpop => w64 (popN 64 a.toNat)
  | .clzw => w64 (clzN 32 w)
  | .ctzw => w64 (ctzN 32 w)
  | .cpopw => w64 (popN 32 w)
  | .sextB => (a.setWidth 8).signExtend 64
  | .sextH => (a.setWidth 16).signExtend 64
  | .zextH => (a.setWidth 16).setWidth 64
  | .orcB => w64 (leVal ((leBytes 8 a.toNat).map fun b => if b = 0 then 0 else 0xFF))
  | .rev8 => w64 (bswapN 8 a.toNat)

/-- Whether a branch is taken. -/
def taken (op : BrOp) (a b : Word) : Bool :=
  match op with
  | .beq => a == b
  | .bne => a != b
  | .blt => a.slt b
  | .bge => !a.slt b
  | .bltu => a.ult b
  | .bgeu => !a.ult b

/-- A 20-bit or 12-bit offset that counts 2-byte units (JAL, branches). -/
def off2 {n : Nat} (o : BitVec n) : Word := sx64 o <<< 1

/-- RV64_INSTRUCTION (R64; R43 for control transfers). -/
def execRv64Instruction (op : RvOp) (s : State) : Out :=
  let bk := s.me
  let pc := (s.bank bk).pc
  let x := s.rx bk
  match op with
  | .lui rd i => perform s 4 (.ok (s.wx bk rd (((i ++ 0#12 : BitVec 32)).signExtend 64)))
  | .auipc rd i => perform s 4 (.ok (s.wx bk rd (pc + ((i ++ 0#12 : BitVec 32)).signExtend 64)))
  | .jal rd o => performJump s (.ok (s.wx bk rd (pc + 4), pc + off2 o))
  | .jalr rd rs1 i => performJump s (.ok (s.wx bk rd (pc + 4), (x rs1 + sx64 i) &&& ~~~1#64))
  | .branch op rs1 rs2 o => performJump s (.ok (s, if taken op (x rs1) (x rs2) then pc + off2 o else pc + 4))
  | .imm op rd rs1 i => perform s 4 (.ok (s.wx bk rd (immOp op (x rs1) (sx64 i))))
  | .sh op rd rs1 k => perform s 4 (.ok (s.wx bk rd (shOp op (x rs1) k.toNat)))
  | .shw op rd rs1 k => perform s 4 (.ok (s.wx bk rd (shwOp op (x rs1) k.toNat)))
  | .reg op rd rs1 rs2 => perform s 4 (.ok (s.wx bk rd (regOp op (x rs1) (x rs2))))
  | .un op rd rs1 => perform s 4 (.ok (s.wx bk rd (unOp op (x rs1))))

end Sys2Proof.Machine
end

