-- ==== Sys2Proof/Machine/Dispatch.lean ====
section
/-! DEFINITION. Machine/Dispatch.lean: the meaning of every row of the table. -/

namespace Sys2Proof.Machine

def exec (i : Instr) (s : State) : Host.Outcome State Fault Refusal :=
  match i with
  | .hold c => Sys2Proof.Machine.execHold c s
  | .catchCrew c f => Sys2Proof.Machine.execCatchCrew c f s
  | .easy c => Sys2Proof.Machine.execEasy c s
  | .launch c f => Sys2Proof.Machine.execLaunch c f s
  | .spawn c f => Sys2Proof.Machine.execSpawn c f s
  | .join c f => Sys2Proof.Machine.execJoin c f s
  | .tail c f => Sys2Proof.Machine.execTail c f s
  | .setpri c f => Sys2Proof.Machine.execSetpri c f s
  | .eqsendReserveNext c f => Sys2Proof.Machine.execEqsendReserveNext c f s
  | .eqsendReserve c f => Sys2Proof.Machine.execEqsendReserve c f s
  | .eqsendPublish c f => Sys2Proof.Machine.execEqsendPublish c f s
  | .eqsendClose c f => Sys2Proof.Machine.execEqsendClose c f s
  | .eqrecvTakeNext c f => Sys2Proof.Machine.execEqrecvTakeNext c f s
  | .eqrecvTake c f => Sys2Proof.Machine.execEqrecvTake c f s
  | .eqfree c f => Sys2Proof.Machine.execEqfree c f s
  | .eqinit c f => Sys2Proof.Machine.execEqinit c f s
  | .widf c f => Sys2Proof.Machine.execWidf c f s
  | .widins c f => Sys2Proof.Machine.execWidins c f s
  | .budget c f => Sys2Proof.Machine.execBudget c f s
  | .draw c f => Sys2Proof.Machine.execDraw c f s
  | .thallow c f => Sys2Proof.Machine.execThallow c f s
  | .slip c f => Sys2Proof.Machine.execSlip c f s
  | .lerr c f => Sys2Proof.Machine.execLerr c f s
  | .ntrap c f => Sys2Proof.Machine.execNtrap c f s
  | .tret c f => Sys2Proof.Machine.execTret c f s
  | .killLaunch c f => Sys2Proof.Machine.execKillLaunch c f s
  | .killContext c f => Sys2Proof.Machine.execKillContext c f s
  | .quiesce c f => Sys2Proof.Machine.execQuiesce c f s
  | .gate c f => Sys2Proof.Machine.execGate c f s
  | .wake c f => Sys2Proof.Machine.execWake c f s
  | .brk c f => Sys2Proof.Machine.execBrk c f s
  | .tlbinvAll c f => Sys2Proof.Machine.execTlbinvAll c f s
  | .tlbinvRange c f => Sys2Proof.Machine.execTlbinvRange c f s
  | .fltans c f => Sys2Proof.Machine.execFltans c f s
  | .vadd c f => Sys2Proof.Machine.execVadd c f s
  | .vsub c f => Sys2Proof.Machine.execVsub c f s
  | .vmul c f => Sys2Proof.Machine.execVmul c f s
  | .vfma c f => Sys2Proof.Machine.execVfma c f s
  | .vfms c f => Sys2Proof.Machine.execVfms c f s
  | .vfnma c f => Sys2Proof.Machine.execVfnma c f s
  | .vmin c f => Sys2Proof.Machine.execVmin c f s
  | .vmax c f => Sys2Proof.Machine.execVmax c f s
  | .vdiv c f => Sys2Proof.Machine.execVdiv c f s
  | .vamin c f => Sys2Proof.Machine.execVamin c f s
  | .vamax c f => Sys2Proof.Machine.execVamax c f s
  | .vsadd c f => Sys2Proof.Machine.execVsadd c f s
  | .vssub c f => Sys2Proof.Machine.execVssub c f s
  | .vmulh c f => Sys2Proof.Machine.execVmulh c f s
  | .vdot2 c f => Sys2Proof.Machine.execVdot2 c f s
  | .vdot4 c f => Sys2Proof.Machine.execVdot4 c f s
  | .vand c f => Sys2Proof.Machine.execVand c f s
  | .vor c f => Sys2Proof.Machine.execVor c f s
  | .vxor c f => Sys2Proof.Machine.execVxor c f s
  | .vandn c f => Sys2Proof.Machine.execVandn c f s
  | .vsll c f => Sys2Proof.Machine.execVsll c f s
  | .vsrl c f => Sys2Proof.Machine.execVsrl c f s
  | .vsra c f => Sys2Proof.Machine.execVsra c f s
  | .vsel c f => Sys2Proof.Machine.execVsel c f s
  | .vaddi c f => Sys2Proof.Machine.execVaddi c f s
  | .vmini c f => Sys2Proof.Machine.execVmini c f s
  | .vmaxi c f => Sys2Proof.Machine.execVmaxi c f s
  | .vandi c f => Sys2Proof.Machine.execVandi c f s
  | .vxori c f => Sys2Proof.Machine.execVxori c f s
  | .vslli c f => Sys2Proof.Machine.execVslli c f s
  | .vsrli c f => Sys2Proof.Machine.execVsrli c f s
  | .vsrai c f => Sys2Proof.Machine.execVsrai c f s
  | .vaddx c f => Sys2Proof.Machine.execVaddx c f s
  | .vsubx c f => Sys2Proof.Machine.execVsubx c f s
  | .vmulx c f => Sys2Proof.Machine.execVmulx c f s
  | .vfmax c f => Sys2Proof.Machine.execVfmax c f s
  | .vminx c f => Sys2Proof.Machine.execVminx c f s
  | .vmaxx c f => Sys2Proof.Machine.execVmaxx c f s
  | .vbcast c f => Sys2Proof.Machine.execVbcast c f s
  | .vscalex c f => Sys2Proof.Machine.execVscalex c f s
  | .vfn c f => Sys2Proof.Machine.execVfn c f s
  | .vneg c f => Sys2Proof.Machine.execVneg c f s
  | .vabs c f => Sys2Proof.Machine.execVabs c f s
  | .vclass c f => Sys2Proof.Machine.execVclass c f s
  | .vbits c f => Sys2Proof.Machine.execVbits c f s
  | .vcvt c f => Sys2Proof.Machine.execVcvt c f s
  | .vrint c f => Sys2Proof.Machine.execVrint c f s
  | .vrsum c f => Sys2Proof.Machine.execVrsum c f s
  | .vrmax c f => Sys2Proof.Machine.execVrmax c f s
  | .vrmin c f => Sys2Proof.Machine.execVrmin c f s
  | .vramax c f => Sys2Proof.Machine.execVramax c f s
  | .vscan c f => Sys2Proof.Machine.execVscan c f s
  | .vcmp c f => Sys2Proof.Machine.execVcmp c f s
  | .vld c f => Sys2Proof.Machine.execVld c f s
  | .vst c f => Sys2Proof.Machine.execVst c f s
  | .vgath c f => Sys2Proof.Machine.execVgath c f s
  | .vscat c f => Sys2Proof.Machine.execVscat c f s
  | .vscadd c f => Sys2Proof.Machine.execVscadd c f s
  | .rqrel c f => Sys2Proof.Machine.execRqrel c f s
  | .rqstat c f => Sys2Proof.Machine.execRqstat c f s
  | .vmov c f => Sys2Proof.Machine.execVmov c f s
  | .vperm c f => Sys2Proof.Machine.execVperm c f s
  | .vrev c f => Sys2Proof.Machine.execVrev c f s
  | .vzip c f => Sys2Proof.Machine.execVzip c f s
  | .vunzip c f => Sys2Proof.Machine.execVunzip c f s
  | .vtrn c f => Sys2Proof.Machine.execVtrn c f s
  | .vslide c f => Sys2Proof.Machine.execVslide c f s
  | .vrotl c f => Sys2Proof.Machine.execVrotl c f s
  | .vbcl c f => Sys2Proof.Machine.execVbcl c f s
  | .plog c f => Sys2Proof.Machine.execPlog c f s
  | .pcnt c f => Sys2Proof.Machine.execPcnt c f s
  | .pfirst c f => Sys2Proof.Machine.execPfirst c f s
  | .pfromx c f => Sys2Proof.Machine.execPfromx c f s
  | .ptox c f => Sys2Proof.Machine.execPtox c f s
  | .pwhile c f => Sys2Proof.Machine.execPwhile c f s
  | .loopb c f => Sys2Proof.Machine.execLoopb c f s
  | .vresume c => Sys2Proof.Machine.execVresume c s
  | .mmaE4m3 c f => Sys2Proof.Machine.execMmaE4m3 c f s
  | .mmaE5m2 c f => Sys2Proof.Machine.execMmaE5m2 c f s
  | .mmaInt8 c f => Sys2Proof.Machine.execMmaInt8 c f s
  | .mmaBf16 c f => Sys2Proof.Machine.execMmaBf16 c f s
  | .mmaFp16 c f => Sys2Proof.Machine.execMmaFp16 c f s
  | .mmaMxfp8 c f => Sys2Proof.Machine.execMmaMxfp8 c f s
  | .mmaMxfp6 c f => Sys2Proof.Machine.execMmaMxfp6 c f s
  | .mmaMxfp4 c f => Sys2Proof.Machine.execMmaMxfp4 c f s
  | .mmaMxint8 c f => Sys2Proof.Machine.execMmaMxint8 c f s
  | .mmaTern c f => Sys2Proof.Machine.execMmaTern c f s
  | .mclaim c f => Sys2Proof.Machine.execMclaim c f s
  | .mrel c f => Sys2Proof.Machine.execMrel c f s
  | .mload c f => Sys2Proof.Machine.execMload c f s
  | .mzero c f => Sys2Proof.Machine.execMzero c f s
  | .mresume c => Sys2Proof.Machine.execMresume c s
  | .astore c f => Sys2Proof.Machine.execAstore c f s
  | .astoreT c f => Sys2Proof.Machine.execAstoreT c f s
  | .aclr c f => Sys2Proof.Machine.execAclr c f s
  | .aload c f => Sys2Proof.Machine.execAload c f s
  | .copy c f => Sys2Proof.Machine.execCopy c f s
  | .binscat c f => Sys2Proof.Machine.execBinscat c f s
  | .migrate c f => Sys2Proof.Machine.execMigrate c f s
  | .cresume c f => Sys2Proof.Machine.execCresume c f s
  | .cstatTl c f => Sys2Proof.Machine.execCstatTl c f s
  | .cstatStatus c f => Sys2Proof.Machine.execCstatStatus c f s
  | .binset c f => Sys2Proof.Machine.execBinset c f s
  | .bindrop c f => Sys2Proof.Machine.execBindrop c f s
  | .sbind c f => Sys2Proof.Machine.execSbind c f s
  | .sunbind c f => Sys2Proof.Machine.execSunbind c f s
  | .sflush c f => Sys2Proof.Machine.execSflush c f s
  | .sskip c f => Sys2Proof.Machine.execSskip c f s
  | .smaxr c f => Sys2Proof.Machine.execSmaxr c f s
  | .smaxc c f => Sys2Proof.Machine.execSmaxc c f s
  | .sstat c f => Sys2Proof.Machine.execSstat c f s
  | .sptest c f => Sys2Proof.Machine.execSptest c f s
  | .spcast c f => Sys2Proof.Machine.execSpcast c f s
  | .grpsetWrite c f => Sys2Proof.Machine.execGrpsetWrite c f s
  | .grpsetClaim c f => Sys2Proof.Machine.execGrpsetClaim c f s
  | .grpsetRelease c f => Sys2Proof.Machine.execGrpsetRelease c f s
  | .grpgetStore c f => Sys2Proof.Machine.execGrpgetStore c f s
  | .grpgetWord c f => Sys2Proof.Machine.execGrpgetWord c f s
  | .allred c f => Sys2Proof.Machine.execAllred c f s
  | .redsc c f => Sys2Proof.Machine.execRedsc c f s
  | .allgat c f => Sys2Proof.Machine.execAllgat c f s
  | .bcast c f => Sys2Proof.Machine.execBcast c f s
  | .owrite c f => Sys2Proof.Machine.execOwrite c f s
  | .owred c f => Sys2Proof.Machine.execOwred c f s
  | .qparm c f => Sys2Proof.Machine.execQparm c f s
  | .rndwait c f => Sys2Proof.Machine.execRndwait c f s
  | .slackr c f => Sys2Proof.Machine.execSlackr c f s
  | .kresume c f => Sys2Proof.Machine.execKresume c f s
  | .fenceSc c f => Sys2Proof.Machine.execFenceSc c f s
  | .fenceRel c f => Sys2Proof.Machine.execFenceRel c f s
  | .fenceAcq c f => Sys2Proof.Machine.execFenceAcq c f s
  | .pfence c f => Sys2Proof.Machine.execPfence c f s
  | .efence c f => Sys2Proof.Machine.execEfence c f s
  | .vouch c f => Sys2Proof.Machine.execVouch c f s
  | .waittl c f => Sys2Proof.Machine.execWaittl c f s
  | .tlread c f => Sys2Proof.Machine.execTlread c f s
  | .semLd c f => Sys2Proof.Machine.execSemLd c f s
  | .semSt c f => Sys2Proof.Machine.execSemSt c f s
  | .semAdd c f => Sys2Proof.Machine.execSemAdd c f s
  | .semCas c f => Sys2Proof.Machine.execSemCas c f s
  | .semMax c f => Sys2Proof.Machine.execSemMax c f s
  | .semSwap c f => Sys2Proof.Machine.execSemSwap c f s
  | .semWait c f => Sys2Proof.Machine.execSemWait c f s
  | .bump c f => Sys2Proof.Machine.execBump c f s
  | .ldacq c f => Sys2Proof.Machine.execLdacq c f s
  | .strel c f => Sys2Proof.Machine.execStrel c f s
  | .illegalInstruction r => Sys2Proof.Machine.execIllegalInstruction r s
  | .rv64Load op rd rs1 imm => Sys2Proof.Machine.execRv64Load op rd rs1 imm s
  | .rv64Store op rs1 rs2 imm => Sys2Proof.Machine.execRv64Store op rs1 rs2 imm s
  | .amo op dbl aq rl rd rs1 rs2 => Sys2Proof.Machine.execAmo op dbl aq rl rd rs1 rs2 s
  | .lr dbl aq rl rd rs1 => Sys2Proof.Machine.execLr dbl aq rl rd rs1 s
  | .sc dbl aq rl rd rs1 rs2 => Sys2Proof.Machine.execSc dbl aq rl rd rs1 rs2 s
  | .rvFence fm pred succ rd rs1 => Sys2Proof.Machine.execRvFence fm pred succ rd rs1 s
  | .fenceI rd rs1 imm => Sys2Proof.Machine.execFenceI rd rs1 imm s
  | .csrrw rd csr rs1 => Sys2Proof.Machine.execCsrrw rd csr rs1 s
  | .csrrs rd csr rs1 => Sys2Proof.Machine.execCsrrs rd csr rs1 s
  | .csrrc rd csr rs1 => Sys2Proof.Machine.execCsrrc rd csr rs1 s
  | .csrrwi rd csr uimm => Sys2Proof.Machine.execCsrrwi rd csr uimm s
  | .csrrsi rd csr uimm => Sys2Proof.Machine.execCsrrsi rd csr uimm s
  | .csrrci rd csr uimm => Sys2Proof.Machine.execCsrrci rd csr uimm s
  | .rv64Instruction op => Sys2Proof.Machine.execRv64Instruction op s
  | .engineIssue core q => Sys2Proof.Machine.execEngineIssue core q s
  | .vectorIssue core => Sys2Proof.Machine.execVectorIssue core s
  | .vectorCompletion core bank => Sys2Proof.Machine.execVectorCompletion core bank s
  | .trapDelivery core bank => Sys2Proof.Machine.execTrapDelivery core bank s
  | .entryArrival core bank sn => Sys2Proof.Machine.execEntryArrival core bank sn s
  | .outputDrain core bank sn => Sys2Proof.Machine.execOutputDrain core bank sn s
  | .copyStart core tu => Sys2Proof.Machine.execCopyStart core tu s
  | .copyIteration core tu => Sys2Proof.Machine.execCopyIteration core tu s
  | .copyCompletion core tu => Sys2Proof.Machine.execCopyCompletion core tu s
  | .binscatToken core tu => Sys2Proof.Machine.execBinscatToken core tu s
  | .pageMove n => Sys2Proof.Machine.execPageMove n s
  | .migrateCompletion n => Sys2Proof.Machine.execMigrateCompletion n s
  | .tileSchedulerStart core => Sys2Proof.Machine.execTileSchedulerStart core s
  | .mclaimPerformed core bank => Sys2Proof.Machine.execMclaimPerformed core bank s
  | .mloadLine core bank => Sys2Proof.Machine.execMloadLine core bank s
  | .astoreEntry core bank => Sys2Proof.Machine.execAstoreEntry core bank s
  | .aloadEntry core bank => Sys2Proof.Machine.execAloadEntry core bank s
  | .puntyMark core array => Sys2Proof.Machine.execPuntyMark core array s
  | .matrixCompletion core bank => Sys2Proof.Machine.execMatrixCompletion core bank s
  | .matrixDeadlockPreemption core => Sys2Proof.Machine.execMatrixDeadlockPreemption core s
  | .pop core bank => Sys2Proof.Machine.execPop core bank s
  | .imageLoaded core bank => Sys2Proof.Machine.execImageLoaded core bank s
  | .park core bank => Sys2Proof.Machine.execPark core bank s
  | .waitConditionMet core bank => Sys2Proof.Machine.execWaitConditionMet core bank s
  | .eviction core bank => Sys2Proof.Machine.execEviction core bank s
  | .preEmption core bank => Sys2Proof.Machine.execPreEmption core bank s
  | .imageSaved core bank => Sys2Proof.Machine.execImageSaved core bank s
  | .ageStep uid => Sys2Proof.Machine.execAgeStep uid s
  | .retirement core => Sys2Proof.Machine.execRetirement core s
  | .preload core bank => Sys2Proof.Machine.execPreload core bank s
  | .budgetEnd ctx slot => Sys2Proof.Machine.execBudgetEnd ctx slot s
  | .controlFormPerformed core => Sys2Proof.Machine.execControlFormPerformed core s
  | .contributionSend core bank ch => Sys2Proof.Machine.execContributionSend core bank ch s
  | .contributionArrival n => Sys2Proof.Machine.execContributionArrival n s
  | .roundReduction group tag => Sys2Proof.Machine.execRoundReduction group tag s
  | .resultDelivery group tag rank => Sys2Proof.Machine.execResultDelivery group tag rank s
  | .closeNotice n => Sys2Proof.Machine.execCloseNotice n s
  | .workEntryFire core bank ch => Sys2Proof.Machine.execWorkEntryFire core bank ch s
  | .workEntryComplete core bank ch => Sys2Proof.Machine.execWorkEntryComplete core bank ch s
  | .replayReady core bank => Sys2Proof.Machine.execReplayReady core bank s
  | .gatedResponse n => Sys2Proof.Machine.execGatedResponse n s
  | .remoteResend n => Sys2Proof.Machine.execRemoteResend n s
  | .automaticWake core => Sys2Proof.Machine.execAutomaticWake core s
  | .qtlReached ctx => Sys2Proof.Machine.execQtlReached ctx s
  | .sealComplete core => Sys2Proof.Machine.execSealComplete core s
  | .resumption core => Sys2Proof.Machine.execResumption core s
  | .droopHalving quad => Sys2Proof.Machine.execDroopHalving quad s
  | .droopRestore quad => Sys2Proof.Machine.execDroopRestore quad s
  | .thermalMove core => Sys2Proof.Machine.execThermalMove core s
  | .rotateDeadline core => Sys2Proof.Machine.execRotateDeadline core s
  | .hbmRefresh stack => Sys2Proof.Machine.execHbmRefresh stack s
  | .refreshEnd stack => Sys2Proof.Machine.execRefreshEnd stack s
  | .uncorrectableError uid va write => Sys2Proof.Machine.execUncorrectableError uid va write s
  | .watchdog core eng => Sys2Proof.Machine.execWatchdog core eng s
  | .parityAlarm core eng => Sys2Proof.Machine.execParityAlarm core eng s
  | .protocolAlarm core eng => Sys2Proof.Machine.execProtocolAlarm core eng s
  | .vectorEngineReset core => Sys2Proof.Machine.execVectorEngineReset core s
  | .matrixEngineReset core => Sys2Proof.Machine.execMatrixEngineReset core s
  | .copyEngineReset core => Sys2Proof.Machine.execCopyEngineReset core s
  | .portProcessorReset port => Sys2Proof.Machine.execPortProcessorReset port s
  | .coreReset core => Sys2Proof.Machine.execCoreReset core s
  | .dieReset die => Sys2Proof.Machine.execDieReset die s
  | .computeDomainLoss quad => Sys2Proof.Machine.execComputeDomainLoss quad s
  | .lehrDomainLoss quad => Sys2Proof.Machine.execLehrDomainLoss quad s
  | .lehrPowerReturn quad => Sys2Proof.Machine.execLehrPowerReturn quad s
  | .scan passed => Sys2Proof.Machine.execScan passed s
  | .checkModeCompletion phys n other sig => Sys2Proof.Machine.execCheckModeCompletion phys n other sig s
  | .rotationSlice phys => Sys2Proof.Machine.execRotationSlice phys s
  | .cstateConfigure ctx => Sys2Proof.Machine.execCstateConfigure ctx s
  | .cstateRun ctx => Sys2Proof.Machine.execCstateRun ctx s
  | .cstateFree ctx => Sys2Proof.Machine.execCstateFree ctx s
  | .cstateKill ctx => Sys2Proof.Machine.execCstateKill ctx s
  | .cgrant ctx value => Sys2Proof.Machine.execCgrant ctx value s
  | .launchDoorbell ctx value => Sys2Proof.Machine.execLaunchDoorbell ctx value s
  | .lbud ctx value => Sys2Proof.Machine.execLbud ctx value s
  | .killl ctx value => Sys2Proof.Machine.execKilll ctx value s
  | .killc ctx value => Sys2Proof.Machine.execKillc ctx value s
  | .hans ctx value => Sys2Proof.Machine.execHans ctx value s
  | .fansRetry ctx tag => Sys2Proof.Machine.execFansRetry ctx tag s
  | .fansDeny ctx tag => Sys2Proof.Machine.execFansDeny ctx tag s
  | .semd ctx value => Sys2Proof.Machine.execSemd ctx value s
  | .registerWrite block off value => Sys2Proof.Machine.execRegisterWrite block off value s
  | .fwgo value => Sys2Proof.Machine.execFwgo value s
  | .firmwareVerification img => Sys2Proof.Machine.execFirmwareVerification img s
  | .schfw value => Sys2Proof.Machine.execSchfw value s
  | .partcfg value => Sys2Proof.Machine.execPartcfg value s
  | .preset value => Sys2Proof.Machine.execPreset value s
  | .ismelInitialisation failed => Sys2Proof.Machine.execIsmelInitialisation failed s
  | .hostRead part addr len => Sys2Proof.Machine.execHostRead part addr len s
  | .hostWrite part addr bytes => Sys2Proof.Machine.execHostWrite part addr bytes s
  | .linkRetrain full => Sys2Proof.Machine.execLinkRetrain full s
  | .portTraining port lanes => Sys2Proof.Machine.execPortTraining port lanes s
  | .flitReplay port => Sys2Proof.Machine.execFlitReplay port s
  | .quadrantThermalPowerDown quad => Sys2Proof.Machine.execQuadrantThermalPowerDown quad s
  | .quadrantThermalResume quad => Sys2Proof.Machine.execQuadrantThermalResume quad s
  | .stackOverheatHalving stack => Sys2Proof.Machine.execStackOverheatHalving stack s
  | .getCertificate slot offset len => Sys2Proof.Machine.execGetCertificate slot offset len s
  | .challenge slot nonce => Sys2Proof.Machine.execChallenge slot nonce s
  | .getMeasurements index nonce => Sys2Proof.Machine.execGetMeasurements index nonce s
  | .vendorDefinedRequest code => Sys2Proof.Machine.execVendorDefinedRequest code s
  | .unsupportedRequest code => Sys2Proof.Machine.execUnsupportedRequest code s
  | .stackOverheatRestore stack => Sys2Proof.Machine.execStackOverheatRestore stack s
  | .cdatDoeRequest entry => Sys2Proof.Machine.execCdatDoeRequest entry s
  | .hostCoherenceRequest addr => Sys2Proof.Machine.execHostCoherenceRequest addr s
  | .ecall => Sys2Proof.Machine.execEcall s
  | .ebreak => Sys2Proof.Machine.execEbreak s
  | .budgetTick => Sys2Proof.Machine.execBudgetTick s
  | .allowanceUpdate => Sys2Proof.Machine.execAllowanceUpdate s
  | .powerCapHalving => Sys2Proof.Machine.execPowerCapHalving s
  | .powerCapRestore => Sys2Proof.Machine.execPowerCapRestore s
  | .semaphoreScrub => Sys2Proof.Machine.execSemaphoreScrub s
  | .slackPublication => Sys2Proof.Machine.execSlackPublication s
  | .heldFaultPost => Sys2Proof.Machine.execHeldFaultPost s
  | .packageReset => Sys2Proof.Machine.execPackageReset s
  | .rollingReset => Sys2Proof.Machine.execRollingReset s
  | .moduleInputLoss => Sys2Proof.Machine.execModuleInputLoss s
  | .mpwrPowerDown => Sys2Proof.Machine.execMpwrPowerDown s
  | .mpwrWake => Sys2Proof.Machine.execMpwrWake s
  | .mpwrShutdown => Sys2Proof.Machine.execMpwrShutdown s
  | .boot => Sys2Proof.Machine.execBoot s
  | .functionLevelReset => Sys2Proof.Machine.execFunctionLevelReset s
  | .conventionalReset => Sys2Proof.Machine.execConventionalReset s
  | .linkDown => Sys2Proof.Machine.execLinkDown s
  | .thermalInputLoss => Sys2Proof.Machine.execThermalInputLoss s
  | .getVersion => Sys2Proof.Machine.execGetVersion s
  | .getCapabilities => Sys2Proof.Machine.execGetCapabilities s
  | .negotiateAlgorithms => Sys2Proof.Machine.execNegotiateAlgorithms s
  | .getDigests => Sys2Proof.Machine.execGetDigests s

end Sys2Proof.Machine
end

