-- ==== Sys2Proof/Machine/Loader.lean ====
section
/-!
DEFINITION. Machine/Loader.lean: choash objects (R72, R73), relocations (R74) and the loader (R75): the bytes that go to each
memory, or the rejection of the whole object, and a load into the machine.
-/

namespace Sys2Proof.Machine

/-! ### Objects (R72, R73) -/

/-- A section header (R73). -/
structure ObjSection where
  name : Nat
  /-- 0 text, 1 data, 2 cmd, 3 launch, 4 stream, 5 bss -/
  kind : Nat
  /-- log2 of the alignment -/
  align : Nat
  flags : Nat
  size : Nat
  fileoff : Nat
  /-- requested load address; 0 lets the loader place the section -/
  place : Nat
deriving DecidableEq, Repr

/-- A symbol (R73). -/
structure ObjSymbol where
  name : Nat
  sect : Nat
  /-- 0 local, 1 global, 2 undefined -/
  bind : Nat
  /-- 0 none, 1 code, 2 data, 3 task, 4 stream, 5 launch -/
  type : Nat
  value : Nat
  size : Nat
deriving DecidableEq, Repr

/-- A relocation (R73). -/
structure ObjReloc where
  offset : Nat
  sect : Nat
  kind : Nat
  sym : Nat
  addend : Int
deriving DecidableEq, Repr

/-- An object: its records, its string table, the symbol of its first launch header, and its file. -/
structure Obj where
  sections : List ObjSection
  symbols : List ObjSymbol
  relocs : List ObjReloc
  strings : List Byte
  /-- symbol index of the first launch header, or all ones -/
  entry : Nat
  file : List Byte
deriving DecidableEq, Repr

/-- A little-endian field of a file. -/
def objField (bs : List Byte) (off n : Nat) : Nat := leVal ((bs.drop off).take n)

/-- The section header at an offset. -/
def ObjSection.read (bs : List Byte) (o : Nat) : ObjSection :=
  let f (i n : Nat) : Nat := objField bs (o + i) n
  ⟨f 0 4, f 4 1, f 5 1, f 6 2, f 8 8, f 16 8, f 24 8⟩

/-- The symbol at an offset. -/
def ObjSymbol.read (bs : List Byte) (o : Nat) : ObjSymbol :=
  let f (i n : Nat) : Nat := objField bs (o + i) n
  ⟨f 0 4, f 4 2, f 6 1, f 7 1, f 8 8, f 16 8⟩

/-- The relocation at an offset. -/
def ObjReloc.read (bs : List Byte) (o : Nat) : ObjReloc :=
  let f (i n : Nat) : Nat := objField bs (o + i) n
  ⟨f 0 8, f 8 2, f 10 2, f 12 4, toSigned 64 (f 16 8)⟩

/-- Reading an object: none where its magic word or its version is another (R72). -/
def Obj.parse (bs : List Byte) : Option Obj :=
  let f (i n : Nat) : Nat := objField bs i n
  if f 0 4 != 0x31485356 || f 4 2 != 1 then none
  else some {
    sections := (List.range (f 8 4)).map fun i => ObjSection.read bs (f 24 8 + 32 * i)
    symbols := (List.range (f 12 4)).map fun i => ObjSymbol.read bs (f 32 8 + 24 * i)
    relocs := (List.range (f 16 4)).map fun i => ObjReloc.read bs (f 40 8 + 24 * i)
    strings := (bs.drop (f 48 8)).take (f 20 4)
    entry := f 56 8
    file := bs }

/-- The name at an offset of the string table: the bytes before its zero (R73). -/
def Obj.nameAt (o : Obj) (off : Nat) : List Byte := (o.strings.drop off).takeWhile (· != 0)

/-! ### Relocations (R74) -/

/-- Fitting into a signed or an unsigned field. -/
def fitsS (n : Nat) (v : Int) : Bool := decide (-(2 ^ (n - 1) : Nat) ≤ v) && decide (v < (2 ^ (n - 1) : Nat))
def fitsU (n : Nat) (v : Int) : Bool := decide (0 ≤ v) && decide (v < (2 ^ n : Nat))

/-- S, A and P of a relocation, the number of words of the context's semaphore allocation on the die that the place's handle
names, and for PCLO12I the distance that the auipc at S computes. -/
structure RelocArgs where
  s : Nat
  a : Int
  p : Nat
  /-- words allocated on the handle's die -/
  words : Nat
  /-- S + A − P of the PCHI20 at the address S, where there is one -/
  hi : Option Int
deriving DecidableEq, Repr

/-- The distance S + A − P, in 64-bit two's complement (R68). -/
def RelocArgs.dist (r : RelocArgs) : Int := toSigned 64 (wrapN 64 (r.s + r.a - r.p))

/-- The sum S + A, in 64-bit two's complement (R68). -/
def RelocArgs.sum (r : RelocArgs) : Int := toSigned 64 (wrapN 64 (r.s + r.a))

/-- The value that a relocation of a kind writes, or none where its check fails (R74). -/
def relocValue (kind : Nat) (r : RelocArgs) : Option Int :=
  let chk (ok : Bool) (v : Int) : Option Int := if ok then some v else none
  match kind with
  | 0 => some 0
  | 1 => some r.sum
  | 2 => chk (fitsU 32 r.sum) r.sum
  | 3 => chk (r.dist % 4 == 0 && fitsS 24 (r.dist / 4)) (r.dist / 4)
  | 4 => chk (r.dist % 2 == 0 && fitsS 13 r.dist) r.dist
  | 5 => chk (r.dist % 2 == 0 && fitsS 21 r.dist) r.dist
  | 6 => chk (fitsS 20 ((r.sum + 0x800) / 4096)) ((r.sum + 0x800) / 4096)
  | 7 => some (r.sum % 4096)
  | 8 => some (r.sum % 4096)
  | 9 => chk (fitsS 20 ((r.dist + 0x800) / 4096)) ((r.dist + 0x800) / 4096)
  | 10 => r.hi.map fun v => v % 4096
  | 11 => chk (fitsU 21 r.sum) r.sum
  | 12 => chk (fitsU 19 r.sum && decide (r.sum < r.words)) r.sum
  | _ => none

/-- Bytes of the place of a kind. -/
def relocWidth : Nat → Nat
  | 0 => 0
  | 1 | 3 | 11 => 8
  | _ => 4

/-- A field of a number replaced by bits of a value. -/
def putField (x lo n v : Nat) : Nat := x - bitsN x (lo + n - 1) lo * 2 ^ lo + v % 2 ^ n * 2 ^ lo

/-- The place with the value in its field (R74); an RV immediate is scattered as RISC-V says. -/
def relocPut (kind old : Nat) (value : Int) : Nat :=
  let v := wrapN 64 value
  match kind with
  | 0 => old
  | 1 => v
  | 2 => v % 2 ^ 32
  | 3 => putField old 40 24 v
  | 4 => putField (putField (putField (putField old 8 4 (bitsN v 4 1)) 25 6 (bitsN v 10 5)) 7 1 (bitsN v 11 11)) 31 1 (bitsN v 12 12)
  | 5 => putField (putField (putField (putField old 21 10 (bitsN v 10 1)) 20 1 (bitsN v 11 11)) 12 8 (bitsN v 19 12)) 31 1 (bitsN v 20 20)
  | 6 | 9 => putField old 12 20 v
  | 7 | 10 => putField old 20 12 v
  | 8 => putField (putField old 7 5 v) 25 7 (bitsN v 11 5)
  | 11 => putField old 28 21 v
  | 12 => putField old 0 19 v
  | _ => old

/-! ### The loader (R75) -/

/-- Where a section loads: the address it requests, or the loader's, moved up to the section's alignment (R73). -/
def Obj.placeOf (o : Obj) (places : List Nat) (i : Nat) : Nat :=
  match o.sections[i]? with
  | some x => if x.place = 0 then (places.getD i 0 + 2 ^ x.align - 1) / 2 ^ x.align * 2 ^ x.align else x.place
  | none => 0

/-- A text section ends within the instruction memory, a cmd section within the micro-program area (R75). -/
def Obj.fits (o : Obj) (places : List Nat) : Bool :=
  o.sections.zipIdx.all fun x =>
    (x.1.kind != 0 || decide (o.placeOf places x.2 + x.1.size ≤ 256 * 1024))
    && (x.1.kind != 2 || decide (o.placeOf places x.2 + x.1.size ≤ 30 * 1024))

/-- The bytes of a section in the file; those of a bss are zero. -/
def Obj.bytesOf (o : Obj) (i : Nat) : List Byte :=
  match o.sections[i]? with
  | some x => if x.kind = 5 then List.replicate x.size 0 else (o.file.drop x.fileoff).take x.size
  | none => []

/-- A symbol is undefined (R73). -/
def ObjSymbol.undefined (y : ObjSymbol) : Bool := y.bind == 2

/-- The loaded value of a symbol (R73). -/
def Obj.symValue (o : Obj) (places : List Nat) (n : Nat) : Nat :=
  match o.symbols[n]? with
  | some y => if y.sect = 0xFFFF then y.value else (o.placeOf places y.sect + y.value) % 2 ^ 64
  | none => 0

/-- S, A and P of a relocation. -/
def Obj.args (o : Obj) (places : List Nat) (words : Nat) (r : ObjReloc) : RelocArgs :=
  ⟨o.symValue places r.sym, r.addend, o.placeOf places r.sect + r.offset, words, none⟩

/-- The same, with what a PCLO12I takes from the PCHI20 at its S. -/
def Obj.fullArgs (o : Obj) (places : List Nat) (words : Nat) (r : ObjReloc) : RelocArgs :=
  let x := o.args places words r
  let hi := o.relocs.find? fun h => h.kind == 9 && o.placeOf places h.sect + h.offset == x.s
  { x with hi := hi.map fun h => (o.args places words h).dist }

/-- Words allocated on the die that a handle names (R40). -/
def diesWords (sem0 sem1 handle : Nat) : Nat := if bitsN handle 19 19 = 0 then sem0 else sem1

/-- Applying a relocation to the loaded bytes of the sections; none where its check fails. -/
def Obj.apply (o : Obj) (places : List Nat) (sem0 sem1 : Nat) (bs : List (List Byte)) (r : ObjReloc) : Option (List (List Byte)) :=
  let sec := bs.getD r.sect []
  let n := relocWidth r.kind
  let old := objField sec r.offset n
  (relocValue r.kind (o.fullArgs places (diesWords sem0 sem1 old) r)).map fun v =>
    bs.set r.sect (sec.take r.offset ++ leBytes n (relocPut r.kind old v) ++ sec.drop (r.offset + n))

/-- Loading an object into a context with `sem0` and `sem1` semaphore words: for each section its kind, its load address and
its bytes; none where the loader rejects the object (R75). -/
def Obj.load (o : Obj) (places : List Nat) (sem0 sem1 : Nat) : Option (List (Nat × Nat × List Byte)) :=
  if o.symbols.any ObjSymbol.undefined || !o.fits places then none
  else
    let raw := (List.range o.sections.length).map o.bytesOf
    (o.relocs.foldl (fun bs r => bs.bind fun bs => o.apply places sem0 sem1 bs r) (some raw)).map fun bs =>
      (o.sections.zip bs).zipIdx.map fun x => (x.1.1.kind, o.placeOf places x.2, x.1.2)

/-- Loading the bytes of a choash file (R72 to R75). -/
def loadObject (file : List Byte) (places : List Nat) (sem0 sem1 : Nat) : Option (List (Nat × Nat × List Byte)) :=
  (Obj.parse file).bind fun o => o.load places sem0 sem1

/-! ### Loading into the machine (R75) -/

/-- A loaded section in its memory (R73): text in the instruction memory of the given cores, a cmd section in their micro-program
areas, any other in the context's global memory. -/
def State.loadSection (s : State) (ctx : Nat) (cores : List Nat) (x : Nat × Nat × List Byte) : State :=
  match x.1 with
  | 0 => cores.foldl (fun s ck => s.writeLoc (imemLoc ck x.2.1) x.2.2) s
  | 2 => cores.foldl (fun s ck => s.writeLoc (microLoc ck x.2.1) x.2.2) s
  | _ => s.vxWrite ctx x.2.1 x.2.2

/-- The loader loads an object for a context and cores of its grant, or rejects it whole (R75). That it writes a text section itself,
where a program would copy it, stands for the load of the first program (DESIGN CHOICE: log 37). -/
def State.loadFile (s : State) (ctx : Nat) (cores places : List Nat) (file : List Byte) : State :=
  let x := s.ctx ctx
  match loadObject file places (bits x.sem0 18 0) (bits x.sem1 18 0) with
  | some l => l.foldl (fun s x => s.loadSection ctx cores x) s
  | none => s

end Sys2Proof.Machine
end

