-- ==== Sys2Proof/Machine/Policy.lean ====
section
/-!
DEFINITION. Machine/Policy.lean: who moves when no input says so (assumption log 1): a step of the table that is enabled and
that the VX7 takes by itself, else the running banks in turn.
-/

namespace Sys2Proof.Machine

/-- The step, where it is enabled. -/
def pick (r : Option State) (i : Instr) : Option Instr := if r.isSome then some i else none

/-- A step of one bank's scheduling, streams and channels. -/
def bankEvent (s : State) (ck b : Nat) : Option Instr :=
  pick (tryReplayReady ck b s) (.replayReady ck b)
  <|> pick (tryImageLoaded ck b s) (.imageLoaded ck b)
  <|> pick (tryImageSaved ck b s) (.imageSaved ck b)
  <|> pick (tryPreEmption ck b s) (.preEmption ck b)
  <|> pick (tryPop ck b s) (.pop ck b)
  <|> pick (tryWaitConditionMet ck b s) (.waitConditionMet ck b)
  <|> pick (tryPark ck b s) (.park ck b)
  <|> pick (tryEviction ck b s) (.eviction ck b)
  <|> pick (tryPreload ck b s) (.preload ck b)

/-- A step of one bank's engine commands. -/
def engineEvent (s : State) (ck b : Nat) : Option Instr :=
  let sns := ((s.bank (bankKey ck b)).streams ++ ((s.core ck).tracker.flatMap fun t => t.left.streams)).map (·.1)
  pick (tryVectorCompletion ck b s) (.vectorCompletion ck b)
  <|> pick (tryMatrixCompletion ck b s) (.matrixCompletion ck b)
  <|> pick (tryMclaimPerformed ck b s) (.mclaimPerformed ck b)
  <|> pick (tryMloadLine ck b s) (.mloadLine ck b)
  <|> pick (tryAstoreEntry ck b s) (.astoreEntry ck b)
  <|> pick (tryAloadEntry ck b s) (.aloadEntry ck b)
  <|> sns.findSome? (fun n => pick (tryEntryArrival ck b n s) (.entryArrival ck b n) <|> pick (tryOutputDrain ck b n s) (.outputDrain ck b n))
  <|> [0, 1].findSome? (fun ch =>
    pick (tryContributionSend ck b ch s) (.contributionSend ck b ch)
    <|> pick (tryWorkEntryFire ck b ch s) (.workEntryFire ck b ch)
    <|> pick (tryWorkEntryComplete ck b ch s) (.workEntryComplete ck b ch))

/-- A step of a core's queues. -/
def queueEvent (s : State) (ck : Nat) : Option Instr :=
  let c := s.core ck
  (if c.vq.isEmpty then none else pick (tryVectorIssue ck s) (.vectorIssue ck))
  <|> (if c.mq.isEmpty then none else
    pick (tryMatIssue ck s) (.engineIssue ck .mat)
    <|> pick (tryTileSchedulerStart ck s) (.tileSchedulerStart ck)
    <|> pick (tryMatrixDeadlockPreemption ck s) (.matrixDeadlockPreemption ck)
    <|> c.arrays.findSome? fun a => pick (tryPuntyMark ck a.1 s) (.puntyMark ck a.1))
  <|> c.cq.findSome? (fun q =>
    if q.2.isEmpty then none else
    pick (tryCopyIssue ck q.1 s) (.engineIssue ck (unitQueue q.1))
    <|> pick (tryCopyStart ck q.1 s) (.copyStart ck q.1)
    <|> pick (tryCopyIteration ck q.1 s) (.copyIteration ck q.1)
    <|> pick (tryBinscatToken ck q.1 s) (.binscatToken ck q.1)
    <|> pick (tryCopyCompletion ck q.1 s) (.copyCompletion ck q.1))
  <|> (if c.kq.isEmpty then none else
    pick (tryColIssue ck s) (.engineIssue ck .col) <|> pick (tryControlFormPerformed ck s) (.controlFormPerformed ck))
  <|> pick (tryRetirement ck s) (.retirement ck)

/-- A step of one core. -/
def coreEvent (s : State) (ck : Nat) : Option Instr :=
  let c := s.core ck
  if c.down then pick (tryResumption ck s) (.resumption ck)
  else if c.gated then pick (tryAutomaticWake ck s) (.automaticWake ck)
  else if !s.works ck then none
  else
    pick (trySealComplete ck s) (.sealComplete ck)
    <|> queueEvent s ck <|> engineEvent s ck 0 <|> engineEvent s ck 1 <|> bankEvent s ck 0 <|> bankEvent s ck 1

/-- A step of the collective traffic. -/
def trafficEvent (s : State) : Option Instr :=
  (List.range s.flights.length).findSome? (fun n => pick (tryContributionArrival n s) (.contributionArrival n))
  <|> (List.range s.notices.length).findSome? (fun n => pick (tryCloseNotice n s) (.closeNotice n))
  <|> s.groups.findSome? (fun g => g.2.rounds.findSome? fun r =>
    pick (tryRoundReduction g.1 r.1 s) (.roundReduction g.1 r.1)
    <|> (ranksOf g.2.members).findSome? fun m => pick (tryResultDelivery g.1 r.1 m s) (.resultDelivery g.1 r.1 m))

/-- A step of the module's own. -/
def moduleEvent (s : State) : Option Instr :=
  (if s.undervolted then some .moduleInputLoss else none)
  <|> pick (tryBudgetTick s) .budgetTick
  <|> s.ctxs.findSome? (fun c => c.2.launches.findSome? fun l => pick (tryBudgetEnd c.1 l.1 s) (.budgetEnd c.1 l.1))
  <|> s.tasks.findSome? (fun t => pick (tryAgeStep t.1 s) (.ageStep t.1))
  <|> s.ctxs.findSome? (fun c => pick (tryQtlReached c.1 s) (.qtlReached c.1))
  <|> pick (tryHeldFaultPost s) .heldFaultPost
  <|> pick (tryAllowanceUpdate s) .allowanceUpdate
  <|> pick (trySlackPublication s) .slackPublication
  <|> (List.range s.moves.length).findSome? (fun n =>
    pick (tryPageMove n s) (.pageMove n) <|> pick (tryMigrateCompletion n s) (.migrateCompletion n))
  <|> s.cores.findSome? (fun e => let k := e.1;
    pick (tryThermalMove k s) (.thermalMove k) <|> pick (tryRotateDeadline k s) (.rotateDeadline k))
  <|> (if s.lmap.any fun e => e.2 == 72 then (List.range 72).findSome? fun p => pick (tryRotationSlice p s) (.rotationSlice p)
    else none)
  <|> pick (tryRollingReset s) .rollingReset
  <|> s.banks.findSome? (fun b =>
    pick (tryGatedResponse b.1 s) (.gatedResponse b.1) <|> pick (tryRemoteResend b.1 s) (.remoteResend b.1))

/-- The logical cores of running contexts. -/
def State.liveCores (s : State) : List Nat :=
  s.ctxs.flatMap fun c =>
    if c.2.cstate = 0 then []
    else (List.range 64).filterMap fun l => if bitAt c.2.cgrant l then some (64 * c.2.part.toNat + l) else none

/-- A step that the VX7 takes by itself. -/
def autoEvent (s : State) : Option Instr :=
  moduleEvent s <|> trafficEvent s <|> s.liveCores.findSome? (coreEvent s)

/-- The next running bank after the current one. -/
def nextBank (s : State) : Option Nat :=
  let ready := (s.banks.filter fun e => e.2.st == .running && s.works (keyCore e.1)).map (·.1)
  match ready.find? fun k => decide (s.me < k) with
  | some k => some k
  | none => ready.head?

/-- Who moves. -/
def policy (s : State) : Input :=
  match s.ctxs.find? fun c => (tryWaitingPost c.1 s).isSome with
  | some c => .post c.1
  | none =>
    match (List.range 12).find? fun n => (tryRefreshEnd n s).isSome || (tryHbmRefresh n s).isSome with
    | some n => .refresh n
    | none =>
      match autoEvent s with
      | some i => .event i
      | none => match nextBank s with
        | some k => .run (keyCore k) (keyBank k)
        | none => .advance 0

end Sys2Proof.Machine
end

