-- ==== Sys2Proof/Machine/Fetch.lean ====
section
/-!
DEFINITION. Machine/Fetch.lean: which instruction or step comes next: fetching an instruction's parcels (R43 to R45),
the traps a bank takes before its next instruction (R276, R342), and the inputs from outside the machine.
-/

namespace Sys2Proof.Machine

/-- What a step does: it has been done, or an instruction is to be performed. -/
inductive Action
  | done (s : State)
  | act (i : Instr) (s : State)
deriving Repr

/-- A bank performs instructions: Running, on a core that has power. -/
def State.canRun (s : State) (bk : Nat) : Bool :=
  (s.bank bk).st == .running && s.works (keyCore bk)

/-- An instruction names a register still to be written: it stalls, by R199 where a control form will write it (R286). -/
def State.stallPending (s : State) (i : Instr) : State :=
  let bk := s.me
  let uid := (s.bank bk).uid.getD 0
  match (scalarFields i).find? fun r => r != 0 && !condHolds s (.formX (keyCore bk) uid r) with
  | some r => s.stallOn bk (.formX (keyCore bk) uid r)
  | none => s.stuckOn bk

/-- The next instruction of the current bank: a due trap first (R276, R342), then the word at pc, where a fetch beyond
the instruction memory traps (R45, R328); an instruction that names a register still to be written waits. -/
def fetch (s : State) : Action :=
  let bk := s.me
  let b := s.bank bk
  if !s.canRun bk then .done s
  else
  let s := s.stampMark (keyCore bk) 0
  if b.dueOther.isSome || s.budgetDue bk then .act (.trapDelivery s.curCore (s.curBank % 2)) s
  else if b.replayDue.isSome then .act (.replayReady s.curCore (s.curBank % 2)) s
  else
    let pc := b.pc.toNat
    if pc % 4 ≠ 0 then .done (takeTrap s bk 0 b.pc)
    else if 0x40000 ≤ pc then .done (takeTrap s bk 1 b.pc)
    else
      let p := s.parcel (keyCore bk) pc
      if parcelBytes p = 8 && decide (0x40000 ≤ pc + 4) then .done (takeTrap s bk 1 (b.pc + 4))
      else
        let q := if parcelBytes p = 8 then s.parcel (keyCore bk) (pc + 4) else 0
        let s := { s with ir := illegalTval p q }
        match decodeParcels p q with
        | .error r => .act (.illegalInstruction r) s
        | .ok i => if interlocked b i then .done (s.stallPending i) else .act i s

/-- The current bank. -/
def State.select (s : State) (core bank : Nat) : State := { s with curCore := core, curBank := bank % 2 }

/-- A sector leaves an L1 (R186, R187): a dirty one's data are at its home, and its narrow record stays in the directory. A
stale-marked one stays: R384 lets a copy be evicted before its mark, not after. -/
def State.evictSector (s : State) (core sec : Nat) : State :=
  if s.l1Of core sec = some .stale then s else s.dropL1 core sec

/-- Base-die cycles pass. -/
def State.advance (s : State) (n : Nat) : State := { s.countWork n with cycle := s.cycle + n }

/-- TEMPC (R401): the hottest core, the hottest stack and the coolant inlet, in whole degrees. -/
def State.tempc (s : State) : Word :=
  let hottest (ts : List Int) : Nat := wrapN 8 (ts.foldl max (ts.headD 0) / 16)
  w64 (hottest ((List.range 72).map fun p => (s.physCore p).temp16)
    + hottest ((List.range 12).map fun n => (SMap.get StackSt.reset s.hbm n).temp16) * 2 ^ 8 + wrapN 8 (s.modl.inlet16 / 16) * 2 ^ 16)

/-- A temperature reading of a physical core, an HBM stack or the coolant inlet (R283, R405). -/
def State.sense (s : State) (unit num : Nat) (t : Int) : State :=
  let s : State :=
    if unit = 0 then { s with phys := SMap.put s.phys num { s.physCore num with temp16 := t } }
    else if unit = 1 then { s with hbm := SMap.put s.hbm num { SMap.get StackSt.reset s.hbm num with temp16 := t } }
    else
      let s := if 50 * 16 < t ∧ s.modl.inlet16 ≤ 50 * 16 then s.stampPeriod 7 else s
      { s with modl := { s.modl with inlet16 := t } }
  { s with modl := { s.modl with tempc := s.tempc } }

/-- A reading of input power and voltage (R401 to R403): above 60 V the regulators remove power from every domain; below 44 V they do so
once that has lasted 10 µs. -/
def State.power (s : State) (w : Word) : State :=
  let above (x : Word) : Bool := decide (s.modl.pwrcap.toNat < bits x 31 0)
  let low := decide (bits w 47 32 < 4400)
  let high := decide (6000 < bits w 47 32)
  let s := if above w && !above s.modl.pwrnow then s.stampPeriod 6 else s
  let s : State := { s with modl := { s.modl with
    pwrnow := if s.powered then w else 0
    lowFrom := if low || high then some (s.modl.lowFrom.getD s.cycle) else none } }
  if high && s.powered then s.inputLoss else s

/-- A sector of CXL host memory answers with error completions from now on, or no longer does. -/
def State.hostAnswers (s : State) (sec : Nat) (bad : Bool) : State :=
  let others := s.hostBad.filter (· != sec)
  { s with hostBad := if bad && decide (sectorOf (hostLoc 0) ≤ sec) && decide (sec < sectorOf (spadLoc 0 0)) then sec :: others else others }

/-- What an input does. An instruction word is performed by a bank, which fetches it; an input names only steps. -/
def State.input (s : State) : Input → Action
  | .run core bank => fetch (s.select core bank)
  | .event i => if (encode i).isSome then .done s else .act i s
  | .evict core sec => .done (s.evictSector core sec)
  | .advance n => .done (s.advance n)
  | .post ctx => .done ((tryWaitingPost ctx s).getD s)
  | .refresh n => .done ((tryRefreshEnd n s).getD ((tryHbmRefresh n s).getD s))
  | .readReg block off => .done (s.hostRead block off)
  | .readBar off => .done (s.readBar off)
  | .writeBar off v => .done (s.writeBar off v)
  | .hostStore a bs => .done (s.hostStore a bs)
  | .hdmRead part a n => .done (s.hdmRead part a n)
  | .hdmWrite part a bs => .done (s.hdmWrite part a bs)
  | .coherence a => .done (s.hostAccess (.coherence a) (if s.modl.linkUp then some (s.giveBack a) else none))
  | .functionReset => .done (s.hostAccess .functionReset (tryFunctionLevelReset s))
  | .doe r => .done (s.doeAccess r)
  | .load ctx cores places file => .done (s.loadFile ctx cores places file)
  | .sensor unit num t => .done (s.sense unit num t)
  | .power w => .done (s.power w)
  | .hostError sec bad => .done (s.hostAnswers sec bad)

/-- A base-die cycle passes. -/
def State.pass (s : State) : State := { s.countWork 1 with cycle := s.cycle + 1 }

/-- What the machine does next: the oldest input; with none, what Machine/Policy.lean says. -/
def nextAction (s : State) : Action :=
  let s := s.pass
  match s.inputs with
  | a :: rest => State.input { s with inputs := rest } a
  | [] => State.input s (policy s)

/-- The machine with context 0 running a task on bank 0 of core 0, about to fetch the given bytes at offset 0 of its
instruction memory. -/
def State.placeWord (s : State) (bytes : List Byte) : State :=
  let b := s.bank 0
  let launch : Launch :=
    { ctrl := 0, entry := 0, det := false, prio := 0, vreg := 16, seed := 0, lcmask := 1, widths := 0,
      exts := [1, 1, 1, 1, 1, 1], framebase := 0, framesz := 0, budget := none, jdone := 0, equse := 0, eqdir := 0,
      eqs := [], total := 1, made := 1, spent := [], posted := 0, first := 0, ended := false, killed := false }
  let task : Task :=
    { ctx := 0, lslot := 0, wid := 0, frame := 0, code := 0, jh := 0, gated := false, stage := false, prio := 0,
      gen := 0, st := .running, since := 0, aged := 0, reached := 0, spawnPrio := 0, recq := none, fresh := false,
      home := some 0, image := none, errs := [], unverifiable := false, phys := [], vouch := 0, vouchAt := [], lastVouch := 0, vouchedAt := 0, provisional := false,
      lcore := 0, popEpoch := 0, parent := none, rerun := false, again := none }
  { s with
    inputs := [.run 0 0]
    fresh := 1
    mem := Memory.writeList s.mem (imemLoc 0 0) bytes
    tasks := SMap.put s.tasks 0 task }
  |>.setCtx 0 { s.ctx 0 with cstate := 2, cgrant := 1, launches := SMap.put (s.ctx 0).launches 0 launch }
  |>.setBank 0 { b with st := .running, uid := some 0, mode := .task, pc := 0, grant := 16, due := [], wait := none }

end Sys2Proof.Machine
end

