-- ==== Sys2Proof/Machine/Step.lean ====
section
/-!
DEFINITION. Machine/Step.lean: one step of the machine, and the state in which the next step runs a given instruction.
-/

namespace Sys2Proof.Machine

/-- One step: a bank performs one instruction, or one of the steps of the table happens, or an input arrives. -/
def step (s : State) : Host.Outcome State Fault Refusal :=
  match nextAction s with
  | .done t => .next t
  | .act i t => exec i t

/-- The machine about to run, on bank 0 of core 0, the instruction whose bits are `w`: `nbits` of them, the first parcel
in the low bits, and zeros up to eight bytes. -/
def State.withFetchWord (s : State) (nbits w : Nat) : State := s.placeWord (leBytes 8 (w % 2 ^ nbits))

end Sys2Proof.Machine
end

