-- ==== Sys2Proof/Safety.lean ====
section
/-!
DEFINITION. Safety.lean: what the claims call a sound state, a ready word and an unchanged remainder.
-/

namespace Sys2Proof

/-- Every memory of the machine is in its canonical form. -/
def MemOk (s : Machine.State) : Prop := Machine.Memory.wf s.mem = true

/-- An instruction answers a next state. -/
def Completes (i : Instr) (s : Machine.State) : Prop := ∃ t, Machine.exec i s = .next t

namespace Machine

/-- The bank that performs instructions. -/
def State.here (s : State) : Bank := s.bank s.me

/-- A word of queue cc may start (R48, R62 step 6, R280): the bank holds a task, V = 2 finds its crew, and it is the
word's turn. -/
structure Ready (s : State) (c : Ctl) : Prop where
  task : s.here.uid.isSome = true
  crew : crewOk s.here c .cc = true
  turn : mayIssue s s.me (s.here.uid.getD 0) .cc c = true

/-! ### What an instruction leaves alone -/

/-- A bank but for its pc, what its wait records, and its crew with its issue times. -/
def Bank.rest (b : Bank) : Bank :=
  { b with pc := 0, waitFrom := 0, waitCount := 0, wait := none, granted := false, stuck := false, vouching := none, prevMat := none, crew := none }

/-- The same but for the scalar registers too. -/
def Bank.restX (b : Bank) : Bank := { b.rest with x := [] }

/-- A core but for the issue times of its queues. -/
def Core.rest (c : Core) : Core := { c with lastIssue := [] }

/-- The same but for its caches of translations and of memory (R186, R337). -/
def Core.restCache (c : Core) : Core := { c.rest with tlb := [], l1 := [] }

/-- The same but for the preload buffer too, which holds copies of memory (R274). -/
def Core.restMem (c : Core) : Core := { c.restCache with preload := [] }

/-- The state in which a ready word of queue cc has been issued: its issue time recorded. -/
def State.issued (s : State) (c : Ctl) : State := stampIssue s s.me (s.here.uid.getD 0) .cc c

/-- The state but for its banks and cores. -/
def State.rest (s : State) : State := { s with banks := [], cores := [] }

/-- The same but for the second-level caches of translations (R337). -/
def State.restCache (s : State) : State := { s.rest with tlb2 := [] }

/-- The same but for memory, and what a store also ends or records: reservations (R197), narrow records (R187),
poisoned sectors (R370). -/
def State.restMem (s : State) : State := { s.restCache with mem := [], dir := [], resv := [], bad := [] }

/-- The same but for the semaphore words and the tasks that they gate (R254, R373). -/
def State.restSem (s : State) : State := { s.restMem with sem := [], tasks := [] }

/-- Every byte of memory reads as before, but for `n` bytes from location `loc`. -/
def SameMemBut (s t : State) (loc n : Nat) : Prop :=
  ∀ a, ¬(loc ≤ a ∧ a < loc + n) → Memory.read t.mem a = Memory.read s.mem a

/-- Every byte of memory reads as before. -/
def SameMem (s t : State) : Prop := ∀ a, Memory.read t.mem a = Memory.read s.mem a

/-- What `f` keeps of the state and `g` of a core stays, and every other bank stays. -/
structure Keeps (f : State → State) (g : Core → Core) (s t : State) : Prop where
  state : f t = f s
  others : ∀ bk, bk ≠ s.me → t.bank bk = s.bank bk
  core : ∀ k, g (t.core k) = g (s.core k)

/-- Nothing changes outside the current bank but the issue times of queues. -/
abbrev Local (s t : State) : Prop := Keeps State.rest Core.rest s t

/-- Nothing changes outside the current bank but the issue times of queues and the caches. -/
abbrev LocalCache (s t : State) : Prop := Keeps State.restCache Core.restCache s t

/-- Nothing changes outside the current bank but memory, the issue times of queues and the caches. -/
abbrev LocalMem (s t : State) : Prop := Keeps State.restMem Core.restMem s t

/-- Nothing changes outside the current bank but memory, semaphore words, tasks, issue times and the caches. -/
abbrev LocalSem (s t : State) : Prop := Keeps State.restSem Core.restMem s t

/-- Every semaphore word but one reads as before. -/
def SameSemBut (s t : State) (w : Nat) : Prop := ∀ k, k ≠ w → t.semRead k = s.semRead k

/-- Every semaphore word reads as before. -/
def SameSem (s t : State) : Prop := ∀ k, t.semRead k = s.semRead k

/-- The current bank passes an instruction of `len` bytes that writes only `rd`: x0 stays 0 (R28), every other scalar
register and everything else in the bank stays. -/
structure Writes (s t : State) (len : Nat) (rd : BitVec 5) (v : Word) : Prop where
  pc : (t.bank s.me).pc = s.here.pc + w64 len
  dest : (t.bank s.me).rx rd.toNat = if rd = 0 then 0 else v
  regs : ∀ r, r ≠ rd.toNat → (t.bank s.me).rx r = s.here.rx r
  bank : (t.bank s.me).restX = s.here.restX

/-- The current bank passes an instruction of `len` bytes that writes nothing of it. -/
structure Passes (s t : State) (len : Nat) : Prop where
  pc : (t.bank s.me).pc = s.here.pc + w64 len
  bank : (t.bank s.me).rest = s.here.rest

/-- The current bank passes an instruction of `len` bytes whose other effects are in `t`. -/
def passed (s t : State) (len : Nat) : State := t.modBank s.me fun b => b.pass (s.here.pc + w64 len)

/-- The instruction completes with no effect but on `rd`, the pc and issue times. -/
def WritesOnly (i : Instr) (s : State) (len : Nat) (rd : BitVec 5) (v : Word) : Prop :=
  ∃ t, exec i s = .next t ∧ Writes s t len rd v ∧ SameMem s t ∧ Local s t

/-- The instruction completes with no effect but on the pc and issue times. -/
def PassesOnly (i : Instr) (s : State) (len : Nat) : Prop :=
  ∃ t, exec i s = .next t ∧ Passes s t len ∧ SameMem s t ∧ Local s t

/-- The bank waits at its instruction for a condition (R199): its time starts with the wait, and goes on where it waits
already. -/
structure Waits (s t : State) (c : WaitCond) : Prop where
  pc : (t.bank s.me).pc = s.here.pc
  cond : (t.bank s.me).wait = some c
  since : (t.bank s.me).waitFrom = if s.here.wait.isSome then s.here.waitFrom else s.coreClock (keyCore s.me)
  regs : (t.bank s.me).x = s.here.x

/-- The instruction does not complete: it traps, waits, parks or stalls as `e` says. -/
def StopsWith (i : Instr) (s : State) (e : Stop) : Prop := exec i s = .next (settleStop s s.me e)

/-! ### Words of the engine queues -/

/-- A word of the vector queue may be performed (R62 step 6, R194, R219): the bank holds a task, V = 2 finds its crew, and no
stopped command or stream of the queue stands in the way. -/
structure VecReady (s : State) (c : Ctl) : Prop where
  task : s.here.uid.isSome = true
  crew : crewOk s.here c .vec = true
  going : trapV (s.core (keyCore s.me)) (s.here.uid.getD 0) = none
  flowing : stoppedVecStream (s.core (keyCore s.me)) s.here (s.here.uid.getD 0) = none

/-- The word is performed and changes nothing outside its core: only the bank's pc moves on by 8 among its program registers. -/
structure Queued (s t : State) : Prop where
  pc : (t.bank s.me).pc = s.here.pc + 8
  regs : (t.bank s.me).x = s.here.x
  vregs : (t.bank s.me).v = s.here.v ∧ (t.bank s.me).rot = s.here.rot ∧ (t.bank s.me).p = s.here.p
  csrs : (t.bank s.me).nrm = s.here.nrm ∧ (t.bank s.me).lc = s.here.lc ∧ (t.bank s.me).vrb = s.here.vrb
    ∧ (t.bank s.me).prb = s.here.prb ∧ (t.bank s.me).mode = s.here.mode
  others : ∀ bk, bk ≠ s.me → t.bank bk = s.bank bk
  cores : ∀ k, k ≠ keyCore s.me → t.core k = s.core k
  mem : SameMem s t
  rest : t.rest = s.rest

/-- The word enters the vector queue as its last command: `m` with the operands that its streams give (R51), its number the
next of tl4 (R111), which is now given out. -/
def EntersVec (i : Instr) (s : State) (c : Ctl) (m : VCmd) : Prop :=
  (s.core (keyCore s.me)).vq.length < 512 → ∀ va vb vd b1 b2 b3,
    takeLoc s.here m.va = .ok (va, b1) → takeLoc b1 m.vb = .ok (vb, b2) → takeLoc b2 m.vd = .ok (vd, b3) →
    ∃ t, exec i s = .next t
      ∧ (t.core (keyCore s.me)).vq = (s.core (keyCore s.me)).vq ++ [{ m with
          va := va, vb := vb, vd := vd, bank := s.me, uid := s.here.uid.getD 0, ctl := c, tl := s.here.tlNext 4,
          seq := s.here.seq, seed := ((s.myLaunch s.me).map (·.seed)).getD 0 }]
      ∧ (t.bank s.me).tlNext 4 = s.here.tlNext 4 + 1 ∧ (t.bank s.me).streams = b3.streams
      ∧ (t.bank s.me).pendX = (if m.xd = 0 then s.here.pendX else s.here.pendX ++ [m.xd])
      ∧ Queued s t

/-- A word of the tile queue enters it as its last command (R62, R148, R159, R160): `m` with the entries that its stream gives,
its number the next of tl5, the bank's claim mask `claim` afterwards. -/
def EntersMat (i : Instr) (s : State) (c : Ctl) (m : MCmd) (claim : BitVec 48) : Prop :=
  (s.core (keyCore s.me)).mq.length < 256 → ∀ e b', takeEntries s.here m.sn m.entries = .ok (e, b') →
    ∃ t, exec i s = .next t
      ∧ (t.core (keyCore s.me)).mq = (s.core (keyCore s.me)).mq ++ [{ m with
          bank := s.me, uid := s.here.uid.getD 0, ctx := s.ctxOf s.me, ctl := c, tl := s.here.tlNext 5, seq := s.here.seq,
          entry := e, seed := ((s.myLaunch s.me).map (·.seed)).getD 0, det := ((s.myLaunch s.me).map (·.det)).getD false }]
      ∧ (t.bank s.me).tlNext 5 = s.here.tlNext 5 + 1 ∧ (t.bank s.me).streams = b'.streams
      ∧ (t.bank s.me).claim = claim ∧ Queued s t

/-- A word of the tile queue may be performed (R62 step 6, R219). -/
structure MatReady (s : State) (c : Ctl) : Prop where
  task : s.here.uid.isSome = true
  crew : crewOk s.here c .mat = true
  flowing : stoppedMatStream (s.core (keyCore s.me)) s.here (s.here.uid.getD 0) = none

/-- The only command of a core's tile queue is `m`, of the task on bank `bk` of the core, which works. -/
structure OneMat (s : State) (core bk : Nat) (m : MCmd) : Prop where
  works : s.works core = true
  key : keyCore bk = core
  only : (s.core core).mq = [m]
  bank : m.bank = bk
  task : (s.bank bk).uid = some m.uid
  resident : (s.bank bk).st ≠ .restoring

/-- A byte in none of the memories of a core's own: scratchpad, instruction memory and microcode. -/
def OutsideCore (k a : Nat) : Prop :=
  ¬(spadLoc k 0 ≤ a ∧ a < spadLoc k 0 + 2 ^ 23) ∧ ¬(imemLoc k 0 ≤ a ∧ a < imemLoc k 0 + 2 ^ 18) ∧ ¬(microLoc k 0 ≤ a ∧ a < microLoc k 0 + 2 ^ 15)

/-- The served cores of `ks` go down as planned from `s` to `t`: a shadowed core of a grant that is up is sealed, in an epoch marked as
planned (R360), and is down afterwards; no state of a gated or unshadowed core goes, and memory outside the cores' own memories stays. -/
def PlannedDown (s t : State) (ks : Nat → Prop) : Prop :=
  (∀ k ∈ s.coreKeys, ∀ ctx, ks k → s.served k = true → (s.core k).shadowed = true → (s.core k).gated = false →
      s.grantee k = some ctx → (t.core k).down = true
        ∧ ((s.core k).down = false → ∃ j, j < 2 ∧ let h := t.slot k j
            h.flags = 1 ∧ h.owner = ownerWord k ctx ∧ h.commit = ~~~h.epoch ∧ h.hcrc = true ∧ h.blocksOk = true))
  ∧ (∀ k ∈ s.coreKeys, (s.core k).down = false → (s.core k).gated = true ∨ (s.core k).shadowed = false → (t.core k).down = false)
  ∧ ∀ a, (∀ k ∈ s.coreKeys, ks k → OutsideCore k a) → Memory.read t.mem a = Memory.read s.mem a

/-- R323: the limit of a plain register of a context block, which is kept only in CSTATE 1: a page table or the heap at a multiple of
its unit, and the registers 0x050 to 0x098 with none. -/
def RegisterLimit (off : Nat) (v : Word) : Prop :=
  off = 0x018 ∧ v.toNat % 4096 = 0 ∨ off ∈ [0x020, 0x028, 0x030] ∧ v.toNat % 65536 = 0
    ∨ off ∈ [0x050, 0x058, 0x060, 0x068, 0x070, 0x078, 0x080, 0x088, 0x090, 0x098]

/-- R39: a semaphore word lies in an allocation of a die; the wrap within the die is the model's choice (log entry 49). -/
def InAllocation (die : Nat) (w : Word) (k : Nat) : Prop :=
  k / 2 ^ 19 = die ∧ (k % 2 ^ 19 + 2 ^ 19 - bits w 50 32) % 2 ^ 19 < bits w 18 0

/-- R39, R398: where the byte at an address of a partition's logical memory lies for the host: in HBM, or, in a page that the partition pins to a
slice, there. -/
def HostSees (s : State) (part : Nat) : Prop :=
  let pins := (s.leaves part).filter fun x => bits x.2.1 6 5 == 2
  let holds (x : Nat × Word × Nat) (a : Nat) : Prop := bits x.2.1 55 16 * 2 ^ 16 ≤ a ∧ a < bits x.2.1 55 16 * 2 ^ 16 + 2 ^ levelShift x.2.2
  (∀ a, (∀ x ∈ pins, ¬holds x a) → hdmLoc part pins a = memLoc part a)
  ∧ (∀ a hid, (∃ x ∈ pins, holds x a) → (∀ x ∈ pins, holds x a → bits x.2.1 13 8 = hid) → hdmLoc part pins a = sliceLoc part hid a)
  ∧ ∀ a n, s.hdmLocs part a n = (List.range n).map fun i => hdmLoc part pins (a + i)

end Machine

end Sys2Proof
end

