-- ==== Sys2Proof/Certificates/Slice0/Obligations.lean ====
section
/-!
DEFINITION. Certificates/Slice0/Obligations.lean: the statements about the machine, family by family.
-/

open Sys2Proof Sys2Proof.Machine

/-! ### RV64 (R64, R65, R197, R244, R326 to R331) -/

/-- R64: every register-to-register, register-immediate and upper-immediate instruction of RV64I, M, Zba and Zbb writes its
result to rd and moves the pc by 4; memory, every other register and everything else stay. -/
def Obligations.Rv64RegisterForms : Prop :=
  ∀ (s : State) (rd rs1 rs2 : BitVec 5),
    let x := s.rx s.me
    let gives (op : RvOp) (v : Word) : Prop :=
      ∃ t, exec (.rv64Instruction op) s = .next t ∧ Writes s t 4 rd v ∧ SameMem s t ∧ Local s t
    (∀ o, gives (.reg o rd rs1 rs2) (regOp o (x rs1) (x rs2)))
    ∧ (∀ o (i : BitVec 12), gives (.imm o rd rs1 i) (immOp o (x rs1) (i.signExtend 64)))
    ∧ (∀ o (k : BitVec 6), gives (.sh o rd rs1 k) (shOp o (x rs1) k.toNat))
    ∧ (∀ o (k : BitVec 5), gives (.shw o rd rs1 k) (shwOp o (x rs1) k.toNat))
    ∧ (∀ o, gives (.un o rd rs1) (unOp o (x rs1)))
    ∧ (∀ (i : BitVec 20), gives (.lui rd i) ((i ++ 0#12).signExtend 64))
    ∧ (∀ (i : BitVec 20), gives (.auipc rd i) (s.here.pc + (i ++ 0#12).signExtend 64))

/-- R64: what the register-register and register-immediate operations compute: sums and differences modulo 2^64, the high
halves of the exact products, the quotients and remainders with their two corners, the 32-bit forms sign-extended, shifts
and rotations by the low bits of the second operand, bitwise operations, minima and maxima, the shift-and-add forms, and the
immediate forms, which compute what the register forms compute of the immediate. -/
def Obligations.Rv64IntegerResults : Prop :=
  ∀ a b : Word,
    let aw : BitVec 32 := a.setWidth 32
    let bw : BitVec 32 := b.setWidth 32
    let k := b.toNat % 64
    let kw := b.toNat % 32
    let sx (w : BitVec 32) : Word := w.signExtend 64
    (regOp .add a b).toNat = (a.toNat + b.toNat) % 2 ^ 64
    ∧ (regOp .sub a b).toNat = (2 ^ 64 + a.toNat - b.toNat) % 2 ^ 64
    ∧ (regOp .mul a b).toNat = a.toNat * b.toNat % 2 ^ 64
    ∧ (regOp .mulhu a b).toNat = a.toNat * b.toNat / 2 ^ 64
    ∧ (regOp .mulh a b).toInt = a.toInt * b.toInt / 2 ^ 64
    ∧ (regOp .mulhsu a b).toInt = a.toInt * (b.toNat : Int) / 2 ^ 64
    ∧ (regOp .divu a b).toNat = (if b.toNat = 0 then 2 ^ 64 - 1 else a.toNat / b.toNat)
    ∧ (regOp .remu a b).toNat = (if b.toNat = 0 then a.toNat else a.toNat % b.toNat)
    ∧ (regOp .div a b).toInt
        = (if b.toInt = 0 then -1 else if a.toInt = -2 ^ 63 ∧ b.toInt = -1 then -2 ^ 63 else a.toInt.tdiv b.toInt)
    ∧ (regOp .rem a b).toInt
        = (if b.toInt = 0 then a.toInt else if a.toInt = -2 ^ 63 ∧ b.toInt = -1 then 0 else a.toInt.tmod b.toInt)
    ∧ (regOp .addw a b).toInt = ((a.setWidth 32 + b.setWidth 32 : BitVec 32)).toInt
    ∧ (regOp .max a b).toInt = max a.toInt b.toInt
    ∧ (regOp .min a b).toInt = min a.toInt b.toInt
    ∧ (regOp .maxu a b).toNat = max a.toNat b.toNat
    ∧ (regOp .minu a b).toNat = min a.toNat b.toNat
    ∧ (regOp .slt a b).toNat = (if a.toInt < b.toInt then 1 else 0)
    ∧ (regOp .sltu a b).toNat = (if a.toNat < b.toNat then 1 else 0)
    ∧ (regOp .sh1add a b).toNat = (2 * a.toNat + b.toNat) % 2 ^ 64
    ∧ (regOp .sh2add a b).toNat = (4 * a.toNat + b.toNat) % 2 ^ 64
    ∧ (regOp .sh3add a b).toNat = (8 * a.toNat + b.toNat) % 2 ^ 64
    ∧ (regOp .addUw a b).toNat = (a.toNat % 2 ^ 32 + b.toNat) % 2 ^ 64
    ∧ (regOp .sh1addUw a b).toNat = (2 * (a.toNat % 2 ^ 32) + b.toNat) % 2 ^ 64
    ∧ (regOp .sh2addUw a b).toNat = (4 * (a.toNat % 2 ^ 32) + b.toNat) % 2 ^ 64
    ∧ (regOp .sh3addUw a b).toNat = (8 * (a.toNat % 2 ^ 32) + b.toNat) % 2 ^ 64
    ∧ regOp .subw a b = sx (aw - bw) ∧ regOp .mulw a b = sx (aw * bw)
    ∧ (regOp .divw a b).toInt
        = (if bw.toInt = 0 then -1 else if aw.toInt = -2 ^ 31 ∧ bw.toInt = -1 then -2 ^ 31 else aw.toInt.tdiv bw.toInt)
    ∧ (regOp .remw a b).toInt
        = (if bw.toInt = 0 then aw.toInt else if aw.toInt = -2 ^ 31 ∧ bw.toInt = -1 then 0 else aw.toInt.tmod bw.toInt)
    ∧ regOp .divuw a b = sx (BitVec.ofNat 32 (if bw.toNat = 0 then 2 ^ 32 - 1 else aw.toNat / bw.toNat))
    ∧ regOp .remuw a b = sx (BitVec.ofNat 32 (if bw.toNat = 0 then aw.toNat else aw.toNat % bw.toNat))
    ∧ (regOp .sll a b).toNat = a.toNat * 2 ^ k % 2 ^ 64 ∧ (regOp .srl a b).toNat = a.toNat / 2 ^ k
    ∧ (regOp .sra a b).toInt = a.toInt / 2 ^ k
    ∧ regOp .sllw a b = sx (aw <<< kw) ∧ regOp .srlw a b = sx (aw >>> kw) ∧ regOp .sraw a b = sx (aw.sshiftRight kw)
    ∧ regOp .rol a b = (a <<< k ||| a >>> (64 - k)) ∧ regOp .ror a b = (a >>> k ||| a <<< (64 - k))
    ∧ regOp .rolw a b = sx (aw <<< kw ||| aw >>> (32 - kw)) ∧ regOp .rorw a b = sx (aw >>> kw ||| aw <<< (32 - kw))
    ∧ (∀ i, i < 64 →
        (regOp .and a b).getLsbD i = (a.getLsbD i && b.getLsbD i) ∧ (regOp .or a b).getLsbD i = (a.getLsbD i || b.getLsbD i)
        ∧ (regOp .xor a b).getLsbD i = (a.getLsbD i != b.getLsbD i) ∧ (regOp .andn a b).getLsbD i = (a.getLsbD i && !b.getLsbD i)
        ∧ (regOp .orn a b).getLsbD i = (a.getLsbD i || !b.getLsbD i) ∧ (regOp .xnor a b).getLsbD i = (a.getLsbD i == b.getLsbD i))
    ∧ immOp .addi a b = regOp .add a b ∧ immOp .slti a b = regOp .slt a b ∧ immOp .sltiu a b = regOp .sltu a b
    ∧ immOp .xori a b = regOp .xor a b ∧ immOp .ori a b = regOp .or a b ∧ immOp .andi a b = regOp .and a b
    ∧ immOp .addiw a b = regOp .addw a b
    ∧ shOp .slli a k = regOp .sll a b ∧ shOp .srli a k = regOp .srl a b ∧ shOp .srai a k = regOp .sra a b
    ∧ shOp .rori a k = regOp .ror a b ∧ (shOp .slliUw a k).toNat = a.toNat % 2 ^ 32 * 2 ^ k % 2 ^ 64
    ∧ shwOp .slliw a kw = regOp .sllw a b ∧ shwOp .srliw a kw = regOp .srlw a b ∧ shwOp .sraiw a kw = regOp .sraw a b
    ∧ shwOp .roriw a kw = regOp .rorw a b
    ∧ (unOp .cpop a).toNat = ((List.range 64).filter fun i => a.getLsbD i).length
    ∧ (unOp .cpopw a).toNat = ((List.range 32).filter fun i => a.getLsbD i).length
    ∧ (∀ n, n < 64 → a.getLsbD n = true → (∀ i, i < n → a.getLsbD i = false) → (unOp .ctz a).toNat = n)
    ∧ (∀ n, n < 64 → a.getLsbD n = true → (∀ i, n < i → a.getLsbD i = false) → (unOp .clz a).toNat = 63 - n)
    ∧ (∀ n, n < 32 → a.getLsbD n = true → (∀ i, i < n → a.getLsbD i = false) → (unOp .ctzw a).toNat = n)
    ∧ (∀ n, n < 32 → a.getLsbD n = true → (∀ i, n < i → i < 32 → a.getLsbD i = false) → (unOp .clzw a).toNat = 31 - n)
    ∧ (unOp .clz 0).toNat = 64 ∧ (unOp .ctz 0).toNat = 64 ∧ (a.toNat % 2 ^ 32 = 0 → (unOp .clzw a).toNat = 32 ∧ (unOp .ctzw a).toNat = 32)
    ∧ unOp .sextB a = (a.setWidth 8).signExtend 64 ∧ unOp .sextH a = (a.setWidth 16).signExtend 64
    ∧ (unOp .zextH a).toNat = a.toNat % 2 ^ 16
    ∧ (∀ i, i < 8 → (unOp .rev8 a).toNat / 256 ^ i % 256 = a.toNat / 256 ^ (7 - i) % 256)
    ∧ (∀ i, i < 8 → (unOp .orcB a).toNat / 256 ^ i % 256 = (if a.toNat / 256 ^ i % 256 = 0 then 0 else 255))

/-- R43, R64: a jump or branch sets the pc to its target, jal and jalr write the address of the next instruction to rd, and
a target that is no multiple of 4 takes the instruction-address-misaligned trap with no other effect. -/
def Obligations.Rv64Control : Prop :=
  ∀ (s : State) (rd rs1 rs2 : BitVec 5),
    let x := s.rx s.me
    let pc := s.here.pc
    let goes (op : RvOp) (target link : Word) (rd : BitVec 5) : Prop :=
      (target.toNat % 4 = 0 →
        ∃ t, exec (.rv64Instruction op) s = .next t ∧ (t.bank s.me).pc = target
          ∧ (t.bank s.me).rx rd.toNat = (if rd = 0 then 0 else link)
          ∧ (∀ r, r ≠ rd.toNat → (t.bank s.me).rx r = s.here.rx r)
          ∧ (t.bank s.me).restX = s.here.restX ∧ SameMem s t ∧ Local s t)
      ∧ (target.toNat % 4 ≠ 0 → exec (.rv64Instruction op) s = .next (takeTrap s s.me 0 target))
    (∀ o : BitVec 20, goes (.jal rd o) (pc + o.signExtend 64 <<< 1) (pc + 4) rd)
    ∧ (∀ i : BitVec 12, goes (.jalr rd rs1 i) ((x rs1 + i.signExtend 64) &&& ~~~1#64) (pc + 4) rd)
    ∧ (∀ o : BitVec 12, goes (.branch .beq rs1 rs2 o) (if x rs1 = x rs2 then pc + o.signExtend 64 <<< 1 else pc + 4) 0 0)
    ∧ (∀ o : BitVec 12, goes (.branch .bne rs1 rs2 o) (if x rs1 = x rs2 then pc + 4 else pc + o.signExtend 64 <<< 1) 0 0)
    ∧ (∀ o : BitVec 12, goes (.branch .blt rs1 rs2 o)
        (if (x rs1).toInt < (x rs2).toInt then pc + o.signExtend 64 <<< 1 else pc + 4) 0 0)
    ∧ (∀ o : BitVec 12, goes (.branch .bge rs1 rs2 o)
        (if (x rs1).toInt < (x rs2).toInt then pc + 4 else pc + o.signExtend 64 <<< 1) 0 0)
    ∧ (∀ o : BitVec 12, goes (.branch .bltu rs1 rs2 o)
        (if (x rs1).toNat < (x rs2).toNat then pc + o.signExtend 64 <<< 1 else pc + 4) 0 0)
    ∧ (∀ o : BitVec 12, goes (.branch .bgeu rs1 rs2 o)
        (if (x rs1).toNat < (x rs2).toNat then pc + 4 else pc + o.signExtend 64 <<< 1) 0 0)

/-- R64, R193, R244: a load whose access passes the checks of R193 writes the little-endian bytes of its place, sign- or
zero-extended, to rd; memory stays. R64, R186, R187, R193, R244: a store whose access passes the checks of R193 puts the low
bytes of rs2, the least significant first, at its place; where an L1 may hold the sector it is there dirty, with a narrow
record of the task; every other byte of memory, every register and everything else of the bank stay. -/
def Obligations.Rv64LoadsAndStores : Prop :=
  (∀ (s : State) (op : LoadOp) (rd rs1 : BitVec 5) (imm : BitVec 12) (p : Place) (s1 : State),
     access s (s.agent s.me) .read false 4 (s.rx s.me rs1 + imm.signExtend 64) (loadSize op) = .ok (p, s1) →
     ∃ t, exec (.rv64Load op rd rs1 imm) s = .next t
       ∧ Writes s t 4 rd
           (let v := leVal (Memory.readList s.mem p.loc (loadSize op))
            match op with
            | .lb => (BitVec.ofNat 8 v).signExtend 64
            | .lh => (BitVec.ofNat 16 v).signExtend 64
            | .lw => (BitVec.ofNat 32 v).signExtend 64
            | .ld | .lbu | .lhu | .lwu => BitVec.ofNat 64 v)
       ∧ SameMem s t ∧ LocalCache s t)
  ∧
  (∀ (s : State) (op : StoreOp) (rs1 rs2 : BitVec 5) (imm : BitVec 12) (p : Place) (s1 : State),
     access s (s.agent s.me) .write false 6 (s.rx s.me rs1 + imm.signExtend 64) (storeSize op) = .ok (p, s1) →
     ∃ t, exec (.rv64Store op rs1 rs2 imm) s = .next t
       ∧ Passes s t 4
       ∧ (∀ i, i < storeSize op → Memory.read t.mem (p.loc + i) = BitVec.ofNat 8 ((s.rx s.me rs2).toNat / 256 ^ i))
       ∧ (p.cached = true → (SMap.find t.dir (sectorOf p.loc)).map (·.tag) = some (.task (s.agent s.me).uid)
           ∧ t.l1Of (keyCore s.me) (sectorOf p.loc) = some .dirty)
       ∧ SameMemBut s t p.loc (storeSize op)
       ∧ LocalMem s t)

/-- R197, R244: the atomics of 4 and 8 bytes whose access passes the checks of R193. An AMO returns the old value
sign-extended and leaves the new one at its place; LR returns the value and reserves its sector for the bank; SC stores and
returns 0 exactly where the bank holds a reservation on the sector, returns 1 and stores nothing otherwise, and ends the
bank's reservation. R197: the value an AMO leaves, as integers of its width. -/
def Obligations.Rv64AtomicInstructions : Prop :=
  (∀ (s : State) (dbl aq rl : Bool) (rd rs1 rs2 : BitVec 5) (p : Place) (s1 : State),
     let n := if dbl then 8 else 4
     let a := s.rx s.me rs1
     let old := leVal (Memory.readList s.mem p.loc n)
     let signed (v : Nat) : Word := if dbl then BitVec.ofNat 64 v else (BitVec.ofNat 32 v).signExtend 64
     let leaves (t : State) (v : Nat) : Prop :=
       (∀ i, i < n → Memory.read t.mem (p.loc + i) = BitVec.ofNat 8 (v / 256 ^ i)) ∧ SameMemBut s t p.loc n
     (∀ op, access s (s.agent s.me) .atomic true 6 a n = .ok (p, s1) →
       ∃ t, exec (.amo op dbl aq rl rd rs1 rs2) s = .next t ∧ Writes s t 4 rd (signed old)
         ∧ leaves t (amoValue op (8 * n) old (s.rx s.me rs2).toNat))
     ∧ (access s (s.agent s.me) .read true 4 a n = .ok (p, s1) →
       ∃ t, exec (.lr dbl aq rl rd rs1) s = .next t ∧ Writes s t 4 rd (signed old) ∧ SameMem s t
         ∧ (∀ sec, (s.me, sec) ∈ t.resv ↔ sec = sectorOf p.loc))
     ∧ (access s (s.agent s.me) .write true 6 a n = .ok (p, s1) → (s.me, sectorOf p.loc) ∈ s.resv →
       ∃ t, exec (.sc dbl aq rl rd rs1 rs2) s = .next t ∧ Writes s t 4 rd 0 ∧ leaves t (s.rx s.me rs2).toNat
         ∧ ∀ sec, (s.me, sec) ∉ t.resv)
     ∧ (access s (s.agent s.me) .write true 6 a n = .ok (p, s1) → (s.me, sectorOf p.loc) ∉ s.resv →
       ∃ t, exec (.sc dbl aq rl rd rs1 rs2) s = .next t ∧ Writes s t 4 rd 1 ∧ SameMem s t ∧ ∀ sec, (s.me, sec) ∉ t.resv))
  ∧
  (∀ (w old v : Nat), w = 32 ∨ w = 64 →
     let a := old % 2 ^ w
     let b := v % 2 ^ w
     let sa : Int := if a < 2 ^ (w - 1) then a else a - 2 ^ w
     let sb : Int := if b < 2 ^ (w - 1) then b else b - 2 ^ w
     amoValue .swap w old v = b ∧ amoValue .add w old v = (old + v) % 2 ^ w
     ∧ amoValue .xor w old v = a ^^^ b ∧ amoValue .and w old v = a &&& b ∧ amoValue .or w old v = a ||| b
     ∧ amoValue .min w old v = (if sb < sa then b else a) ∧ amoValue .max w old v = (if sa < sb then b else a)
     ∧ amoValue .minu w old v = min a b ∧ amoValue .maxu w old v = max a b)

/-- R197: a fence with an empty predecessor or successor set, and fence.i, only pass; any other fence publishes every narrow
record of the task and of its core that no unacquired engine write holds back, and drops the stale sectors of its core's L1.
R188, R189, R195: the fences of every scope. A release at task scope changes no narrow record, one at core scope hands the
task's own records to the core, and a wider one publishes every record of the task or its core that no unacquired engine
write holds back. An acquire at quadrant scope or above drops the stale sectors of the core's L1. A scope above system
traps. R196, R187, R190: ldacq and strel whose access passes the checks of R193. ldacq returns its 1, 2, 4 or 8 bytes
zero-extended; strel leaves the low bytes of x[xd] at its place. Where an L1 may hold the sector, strel at quadrant scope or
above publishes it: no narrow record is left, and the clean copy of every other core is stale; at core scope the sector's
record is tagged with the core, at task scope with the task. A scope above system traps. -/
def Obligations.FencesAndHomeAccesses : Prop :=
  (∀ (s : State) (fm pred succ : BitVec 4) (rd rs1 : BitVec 5) (imm : BitVec 12),
     (∃ t, exec (.fenceI rd rs1 imm) s = .next t ∧ Passes s t 4 ∧ SameMem s t ∧ Local s t)
     ∧ (pred = 0 ∨ succ = 0 →
         ∃ t, exec (.rvFence fm pred succ rd rs1) s = .next t ∧ Passes s t 4 ∧ SameMem s t ∧ Local s t)
     ∧ (pred ≠ 0 → succ ≠ 0 →
         ∃ t, exec (.rvFence fm pred succ rd rs1) s = .next t ∧ Passes s t 4 ∧ SameMem s t
           ∧ (∀ e ∈ t.dir, e ∈ s.dir ∧ coversTag (s.agent s.me).uid (keyCore s.me) e.2 = false)
           ∧ (∀ sec, t.l1Of (keyCore s.me) sec ≠ some .stale)))
  ∧
  (∀ (s : State) (c : Ctl) (f : FSc), Ready s c →
     let ag := s.agent s.me
     let k := f.scope.toNat
     let quiet (t : State) : Prop := Passes s t 8 ∧ SameMem s t ∧ SameSem s t ∧ LocalMem s t
     let covered (n : Narrow) : Bool := coversTag ag.uid ag.key n
     (5 < k → StopsWith (.fenceSc c f) s (.bad 24 0x18 61) ∧ StopsWith (.fenceRel c f) s (.bad 24 0x18 61)
       ∧ StopsWith (.fenceAcq c f) s (.bad 24 0x18 61))
     ∧ (k = 0 → PassesOnly (.fenceSc c f) s 8 ∧ PassesOnly (.fenceRel c f) s 8)
     ∧ (k ≤ 1 → PassesOnly (.fenceAcq c f) s 8)
     ∧ (k = 1 → ∃ t, exec (.fenceRel c f) s = .next t ∧ quiet t ∧ ∀ sec n, SMap.find s.dir sec = some n →
         SMap.find t.dir sec = some (if n.tag = .task ag.uid ∧ n.pend = [] then { n with tag := .core ag.key } else n))
     ∧ (k = 1 → ∃ t, exec (.fenceSc c f) s = .next t ∧ quiet t ∧ ∀ sec n, SMap.find s.dir sec = some n →
         SMap.find t.dir sec = some (if n.tag = .task ag.uid ∧ n.pend = [] then { n with tag := .core ag.key } else n))
     ∧ (2 ≤ k → k ≤ 5 → ∃ t, exec (.fenceRel c f) s = .next t ∧ quiet t ∧
         ∀ sec n, SMap.rising s.dir = true → SMap.find s.dir sec = some n →
           SMap.find t.dir sec = if covered n = true then none else some n)
     ∧ (2 ≤ k → k ≤ 5 → ∃ t, exec (.fenceAcq c f) s = .next t ∧ quiet t ∧ t.dir = s.dir ∧
         ∀ sec, t.l1Of ag.key sec ≠ some .stale)
     ∧ (2 ≤ k → k ≤ 5 → ∃ t, exec (.fenceSc c f) s = .next t ∧ quiet t ∧
         (∀ sec n, SMap.rising s.dir = true → SMap.find s.dir sec = some n →
           SMap.find t.dir sec = if covered n = true then none else some n)
         ∧ ∀ sec, t.l1Of ag.key sec ≠ some .stale))
  ∧
  (∀ (s : State) (c : Ctl) (f : FMa) (p : Place) (s1 : State), Ready s c →
     let ag := s.agent s.me
     let a := s.rx s.me f.xa + f.off.signExtend 64
     let n := 2 ^ f.sz.toNat
     (5 < f.scope.toNat → StopsWith (.ldacq c f) s (.bad 24 0x18 49) ∧ StopsWith (.strel c f) s (.bad 24 0x18 49))
     ∧ (f.scope.toNat ≤ 5 → access (s.issued c) ag .read true 4 a n = .ok (p, s1) →
         ∃ t, exec (.ldacq c f) s = .next t
           ∧ Writes s t 8 f.xd (BitVec.ofNat 64 (leVal (Memory.readList s.mem p.loc n))) ∧ SameMem s t ∧ SameSem s t)
     ∧ (f.scope.toNat ≤ 5 → access (s.issued c) ag .write true 6 a n = .ok (p, s1) →
         ∃ t, exec (.strel c f) s = .next t ∧ Passes s t 8
           ∧ (∀ i, i < n → Memory.read t.mem (p.loc + i) = BitVec.ofNat 8 ((s.rx s.me f.xd).toNat / 256 ^ i))
           ∧ (let sec := sectorOf p.loc
              p.cached = true → SMap.rising s.dir = true →
               (2 ≤ f.scope.toNat → SMap.find t.dir sec = none
                 ∧ ∀ k, k ≠ ag.key → s.l1Of k sec = some .clean → t.l1Of k sec = some .stale)
               ∧ (f.scope.toNat = 1 → (SMap.find t.dir sec).map (·.tag) = some (.core ag.key))
               ∧ (f.scope.toNat = 0 → (SMap.find t.dir sec).map (·.tag) = some (.task ag.uid)))
           ∧ SameMemBut s t p.loc n ∧ SameSem s t))

/-- R328 to R330: what taking a trap does in task mode of a context with a handler: sepc, scause and stval take the pc, the
cause and the trap value, the bank enters handler mode, Running, at stvec, its wait ends and its crew is suspended; no other
field of the bank, no other bank, no core, no byte of memory and nothing else changes. R37, R38: how a generic address
decodes by its top four bits: the global, quadrant-shared, scratchpad and private windows, each with its zero fields; any
other code, a one in a zero field, a core outside the context's grant, or a private offset at or beyond the frame's size is
no address. R37, R38, R191, R193, R328, R339: the traps of RV64 loads and stores, in the order of R193, with the address in
stval and no other effect: a window that is none raises cause 25, a scratchpad address of another core cause 26, a
misaligned address cause 4 or 6; a translation that faults posts or joins a fault record and parks the bank on it; a stale
copy in the L1 raises cause 28, and a narrow record of another task that is not retiring, or of another core, cause 29. R334
to R336: translation of a global address: the heap triple first; cause 7 with no root table; else a walk that reads one
entry of each level, by the bits of the address that index it, and stops with the first cause of R336 that holds, or at a
leaf that grants the access. A root table beyond the partition's memory is cause 5 (the model's choice, log 31). R39, R336,
R337: where a leaf places an address: a core's scratchpad, a slice, host memory, or memory, which an L1 may hold unless the
page is uncached or a scratchpad's. A core's translation uses a TLB entry that covers the address, of its own first level or
else of its partition's second; a walk that ends in a leaf lists it in both. -/
def Obligations.TrapEntry : Prop :=
  (∀ (s : State) (bk cause : Nat) (tval : Word),
     (s.bank bk).mode = .task → (s.ctx (s.ctxOf bk)).hvec ≠ 0 →
     let b := s.bank bk
     let t := takeTrap s bk cause tval
     t.bank bk = { b with
       mode := .handler, st := .running, sepc := b.pc &&& ~~~3#64, scause := BitVec.ofNat 64 cause, stval := tval
       pc := b.stvec &&& ~~~3#64, wait := none, waitCount := 0, granted := false
       crew := b.crew.map fun c => if c.suspended then c else { c with suspended := true, heldSeq := b.seq } }
     ∧ SameMem s t ∧ t.rest = s.rest ∧ t.cores = s.cores ∧ ∀ j, j ≠ bk → t.bank j = s.bank j)
  ∧
  (∀ (s : State) (ag : Agent) (va : Word),
     let n := va.toNat
     let near := 16 * (keyL ag.key / 16) + n / 2 ^ 53 % 16
     (n / 2 ^ 60 = 0 → n / 2 ^ 57 % 8 = 0 → parseWindow s ag va = some (0, .glob (n % 2 ^ 57)))
     ∧ (n / 2 ^ 60 = 0 → n / 2 ^ 57 % 8 ≠ 0 → parseWindow s ag va = none)
     ∧ (n / 2 ^ 60 = 0xC → n / 2 ^ 57 % 8 = 0 → n / 2 ^ 23 % 2 ^ 30 = 0 → s.granted ag.ctx near = true →
         parseWindow s ag va = some (1, .spad (64 * keyPart ag.key + near) (n % 2 ^ 23)))
     ∧ (n / 2 ^ 60 = 0xC → n / 2 ^ 57 % 8 ≠ 0 ∨ n / 2 ^ 23 % 2 ^ 30 ≠ 0 ∨ s.granted ag.ctx near = false → parseWindow s ag va = none)
     ∧ (n / 2 ^ 60 = 0xD → n / 2 ^ 23 % 2 ^ 31 = 0 →
         parseWindow s ag va = some (2, .spad (64 * keyPart ag.key + n / 2 ^ 54 % 64) (n % 2 ^ 23)))
     ∧ (n / 2 ^ 60 = 0xD → n / 2 ^ 23 % 2 ^ 31 ≠ 0 → parseWindow s ag va = none)
     ∧ (n / 2 ^ 60 = 0xE → n / 2 ^ 40 % 2 ^ 20 = 0 → n % 2 ^ 40 < ag.framesz →
         parseWindow s ag va = some (3, .glob ((ag.frame.toNat + n % 2 ^ 40) % 2 ^ 57)))
     ∧ (n / 2 ^ 60 = 0xE → n / 2 ^ 40 % 2 ^ 20 ≠ 0 ∨ ag.framesz ≤ n % 2 ^ 40 → parseWindow s ag va = none)
     ∧ (n / 2 ^ 60 ≠ 0 → n / 2 ^ 60 < 0xC ∨ n / 2 ^ 60 = 0xF → parseWindow s ag va = none))
  ∧
  (∀ (s : State) (l : LoadOp) (w : StoreOp) (rd rs1 rs2 : BitVec 5) (imm : BitVec 12),
     let ag := s.agent s.me
     let va := s.rx s.me rs1 + imm.signExtend 64
     let stops (i : Instr) (k : Access) (misaligned n : Nat) : Prop :=
       (parseWindow s ag va = none → exec i s = .next (takeTrap s s.me 25 va))
       ∧ (∀ key off, parseWindow s ag va = some (2, .spad key off) → key ≠ ag.key → exec i s = .next (takeTrap s s.me 26 va))
       ∧ (∀ t, window s ag va = .ok t → va.toNat % n ≠ 0 → exec i s = .next (takeTrap s s.me misaligned va))
       ∧ (∀ a, window s ag va = .ok (.glob a) → va.toNat % n = 0 → xlatRefreshed s ag.key ag.ctx k a = false →
           (∀ f, xlatCore s ag.key ag.ctx k va a = .error f →
             ∃ t, exec i s = .next t ∧ (t.bank s.me).st = .parked ∧ (t.bank s.me).pc = s.here.pc ∧ (t.bank s.me).x = s.here.x
               ∧ ∃ r ∈ t.faults ++ t.heldFaults, (t.bank s.me).wait = some (.fault r.tag)
                   ∧ r.ctx = ag.ctx ∧ r.page = f.page ∧ r.cause = f.cause ∧ r.kind = f.kind.code)
           ∧ (∀ p s1, xlatCore s ag.key ag.ctx k va a = .ok (p, s1) → p.core = none → s.refreshed p = false → p.cached = true →
               (s.l1Of ag.key (sectorOf p.loc) = some .stale → exec i s = .next (takeTrap s s.me 28 va))
               ∧ (s.l1Of ag.key (sectorOf p.loc) ≠ some .stale → ∀ r, SMap.find s.dir (sectorOf p.loc) = some r →
                   (match r.tag with
                     | .task u => u ≠ ag.uid ∧ s.retiring u = false
                     | .core c => c ≠ ag.key) →
                   exec i s = .next (takeTrap s s.me 29 va))))
     stops (.rv64Load l rd rs1 imm) .read 4 (loadSize l) ∧ stops (.rv64Store w rs1 rs2 imm) .write 6 (storeSize w))
  ∧
  (∀ (s : State) (ctx part : Nat) (k : Access) (va : Word) (a : Nat), a < 2 ^ 57 →
     let c := s.ctx ctx
     let inHeap := c.heapl ≠ 0 ∧ c.heapb.toNat ≤ a ∧ a < c.heapb.toNat + c.heapl.toNat
     let root := c.ptbr.toNat
     let index (l : Nat) : Nat := if l = 0 then a / 2 ^ 16 % 32 else a / 2 ^ (12 + 9 * l) % 512
     let span (l : Nat) : Nat := if l = 0 then 2 ^ 16 else 2 ^ (12 + 9 * l)
     let place (l table : Nat) : Nat := memLoc part (table + 8 * index l)
     let entry (l table : Nat) : Word := BitVec.ofNat 64 (s.readLoc (place l table) 8)
     let target (e : Word) : Nat := e.toNat / 2 ^ 16 % 2 ^ 40 * 2 ^ 16
     let bit (e : Word) (n : Nat) : Bool := e.getLsbD n
     let home (e : Word) : Nat := e.toNat / 2 ^ 5 % 4
     let hid (e : Word) : Nat := e.toNat / 2 ^ 8 % 64
     let bad4 (l : Nat) (e : Word) : Prop :=
       e.toNat / 2 ^ 56 ≠ 0 ∨ e.toNat / 2 ^ 14 % 4 ≠ 0 ∨ bit e 4 = true
       ∨ (bit e 1 = true ∧ bit e 3 = true ∧ bit e 2 = false) ∨ (bit e 1 = true ∧ 3 ≤ l) ∨ (bit e 1 = false ∧ l = 0)
       ∨ (bit e 1 = true ∧ target e % span l ≠ 0) ∨ (bit e 1 = false ∧ bit e 7 = true) ∨ (2 ≤ home e ∧ bit e 7 = true)
       ∨ (bit e 1 = true ∧ home e = 3 ∧ (l = 2 ∨ 2 ^ 23 ≤ target e)) ∨ (hid e ≠ 0 ∧ home e < 2)
     let bad5 (e : Word) : Prop :=
       (bit e 7 = false ∧ ¬(bit e 1 = true ∧ home e = 3) ∧ s.memSize ≤ target e)
       ∨ (bit e 1 = true ∧ home e = 2 ∧ 32 / s.parts ≤ hid e) ∨ (bit e 1 = true ∧ home e = 3 ∧ s.granted ctx (hid e) = false)
     let stops (l table cause : Nat) : Prop := ∀ ls, ∃ f, walk s part ctx k va a (l :: ls) table = .error f
       ∧ f.va = va ∧ f.cause = cause ∧ f.level = l ∧ f.kind = k ∧ f.page = a / span l * span l
       ∧ f.pte = (if cause = 6 then 0 else entry l table)
     (inHeap → xlatCtx s ctx part k va a = .ok ⟨memLoc part ((a + c.heapo.toNat) % 2 ^ 40), true, none⟩)
     ∧ (¬inHeap → root = 0 → ∃ f, xlatCtx s ctx part k va a = .error f ∧ f.cause = 7 ∧ f.pte = 0 ∧ f.page = a / 2 ^ 16 * 2 ^ 16)
     ∧ (¬inHeap → s.memSize ≤ root → root ≠ 0 → ∃ f, xlatCtx s ctx part k va a = .error f ∧ f.cause = 5)
     ∧ (¬inHeap → root ≠ 0 → root < s.memSize → xlatCtx s ctx part k va a
         = (match walk s part ctx k va a [4, 3, 2, 1, 0] root with
            | .error f => .error f
            | .ok (e, l) => .ok (leafPlace part e l a)))
     ∧ ∀ l table, l < 5 →
         let e := entry l table
         let bad := s.bad.contains (sectorOf (place l table)) = true
         let reserved := bad4 l e
         (bad → stops l table 6)
         ∧ (¬bad → bit e 0 = false → stops l table 1)
         ∧ (¬bad → bit e 0 = true → reserved → stops l table 4)
         ∧ (¬bad → bit e 0 = true → ¬reserved → bad5 e → stops l table 5)
         ∧ (¬bad → bit e 0 = true → ¬reserved → ¬bad5 e → bit e 1 = true →
             (k = .read → bit e 2 = false → stops l table 3)
             ∧ (k ≠ .read → bit e 3 = false → stops l table 2)
             ∧ ((if k = .read then bit e 2 else bit e 3) = true → ∀ ls, walk s part ctx k va a (l :: ls) table = .ok (e, l)))
         ∧ (¬bad → bit e 0 = true → ¬reserved → ¬bad5 e → bit e 1 = false → ∀ ls,
             walk s part ctx k va a (l :: ls) table = walk s part ctx k va a ls (target e)))
  ∧
  (∀ (s : State) (ck ctx : Nat) (k : Access) (va : Word) (a : Nat),
     let part := keyPart ck
     let span (l : Nat) : Nat := if l = 0 then 2 ^ 16 else 2 ^ (12 + 9 * l)
     (∀ (e : Word) (l : Nat),
       let pa := e.toNat / 2 ^ 16 % 2 ^ 40 * 2 ^ 16
       let home := e.toNat / 2 ^ 5 % 4
       let hid := e.toNat / 2 ^ 8 % 64
       leafPlace part e l a =
         (if home = 3 then ⟨spadLoc (64 * part + hid) (pa % 2 ^ 23 + a % span l), false, some (64 * part + hid)⟩
          else if home = 2 then ⟨sliceLoc part hid (pa + a % span l), true, none⟩
          else ⟨if e.getLsbD 7 then hostLoc (pa + a % span l) else memLoc part (pa + a % span l), home == 0, none⟩))
     ∧ (heapPlace s ctx part a = none → ∀ t, tlbFind (s.core ck).tlb ctx a = some t →
         pteCause s ctx (tlbLevel t) t.pte k = 0 → xlatCore s ck ctx k va a = .ok (leafPlace part t.pte (tlbLevel t) a, s))
     ∧ (heapPlace s ctx part a = none → tlbFind (s.core ck).tlb ctx a = none → ∀ t, tlbFind (SMap.get [] s.tlb2 part) ctx a = some t →
         pteCause s ctx (tlbLevel t) t.pte k = 0 → ∃ u, xlatCore s ck ctx k va a = .ok (leafPlace part t.pte (tlbLevel t) a, u)
           ∧ tlbFind (u.core ck).tlb ctx a = some t)
     ∧ (heapPlace s ctx part a = none → tlbFind (s.core ck).tlb ctx a = none → tlbFind (SMap.get [] s.tlb2 part) ctx a = none →
         (∀ f, walkCtx s ctx part k va a = .error f → xlatCore s ck ctx k va a = .error f)
         ∧ (∀ e l, walkCtx s ctx part k va a = .ok (e, l) → ∃ u, xlatCore s ck ctx k va a = .ok (leafPlace part e l a, u)
             ∧ (∀ n, a / span l * span l ≤ n → n < a / span l * span l + span l →
                 (tlbFind (u.core ck).tlb ctx n).map (·.pte) = some e
                 ∧ (tlbFind (SMap.get [] u.tlb2 part) ctx n).map (·.pte) = some e))))

/-- R328, R329: ecall and ebreak take the traps of causes 8 and 3 with stval 0 and sepc at the instruction; a bank in
handler mode, or of a context without a handler, has its task terminated. R60 to R63: a word that is no instruction, or
whose operands lie outside their limits, traps with cause 2 or 24, the instruction itself in stval and its reason and
offending field in NTDET, once the crew check of R62 and the privilege check of R326 that come before it have passed; where
one of those fails, its own trap is taken. The field of a crew failure is the one that names the word's issue queue: TU,
from bit 62, for a transfer unit's queue, else OPC, from bit 19 (R47, R63; log 12). -/
def Obligations.TrapsOfInstructions : Prop :=
  (∀ s : State,
     (∃ t, exec .ecall s = .next t
       ∧ (s.here.mode = .task → (s.ctx (s.ctxOf s.me)).hvec ≠ 0 →
           (t.bank s.me).mode = .handler ∧ (t.bank s.me).scause = 8 ∧ (t.bank s.me).stval = 0
           ∧ (t.bank s.me).sepc = s.here.pc &&& ~~~3#64 ∧ (t.bank s.me).pc = s.here.stvec &&& ~~~3#64 ∧ SameMem s t)
       ∧ (s.here.mode = .handler → t = s.terminate s.me 1 8 0)
       ∧ (s.here.mode = .task → (s.ctx (s.ctxOf s.me)).hvec = 0 → t = s.terminate s.me 2 8 0))
     ∧ (∃ t, exec .ebreak s = .next t
       ∧ (s.here.mode = .task → (s.ctx (s.ctxOf s.me)).hvec ≠ 0 →
           (t.bank s.me).mode = .handler ∧ (t.bank s.me).scause = 3 ∧ (t.bank s.me).stval = 0
           ∧ (t.bank s.me).sepc = s.here.pc &&& ~~~3#64 ∧ (t.bank s.me).pc = s.here.stvec &&& ~~~3#64 ∧ SameMem s t)
       ∧ (s.here.mode = .handler → t = s.terminate s.me 1 3 0)
       ∧ (s.here.mode = .task → (s.ctx (s.ctxOf s.me)).hvec = 0 → t = s.terminate s.me 2 3 0)))
  ∧
  (∀ (s : State) (r : Reject),
     s.here.mode = .task → (s.ctx (s.ctxOf s.me)).hvec ≠ 0 →
     let trapped (t : State) (cause : Word) : Prop :=
       (t.bank s.me).mode = .handler ∧ (t.bank s.me).scause = cause ∧ (t.bank s.me).stval = s.ir
       ∧ (t.bank s.me).sepc = s.here.pc &&& ~~~3#64 ∧ (t.bank s.me).x = s.here.x ∧ SameMem s t
     let crewFits := ∀ c q, r.ctl = some (c, q) → crewOk s.here c q = true
     (crewFits → r.priv = false →
       ∃ t, exec (.illegalInstruction r) s = .next t ∧ trapped t (if r.operand then 24 else 2)
         ∧ (t.bank s.me).ntdet = BitVec.ofNat 64 (r.field.toNat * 256 + r.reason.toNat))
     ∧ (crewFits → r.priv = true → ∃ t, exec (.illegalInstruction r) s = .next t ∧ trapped t 40)
     ∧ (∀ c q, r.ctl = some (c, q) → crewOk s.here c q = false →
       ∃ t, exec (.illegalInstruction r) s = .next t ∧ trapped t 2
         ∧ (t.bank s.me).ntdet = BitVec.ofNat 64 ((match q with
             | .c0 | .c1 | .c2 | .c3 => 62
             | .cc | .vec | .mat | .col => 19) * 256 + 3)))

/-- R333: brk is a trap of cause 3 whose value is its code, in both modes; in handler mode the nested trap terminates the
task. Its word has XD, XA and XB zero. -/
def Obligations.BrkWord : Prop :=
  (∀ p q c f, decodeParcels p q = .ok (.brk c f) → f.xd = 0 ∧ f.xa = 0 ∧ f.xb = 0)
  ∧ ∀ (s : State) (c : Ctl) (f : FSs), Ready s c →
    (∃ t, exec (.brk c f) s = .next t
      ∧ (s.here.mode = .handler → t = s.terminate s.me 1 3 (f.code.setWidth 64))
      ∧ (s.here.mode = .task → (s.ctx (s.ctxOf s.me)).hvec ≠ 0 →
          (t.bank s.me).mode = .handler ∧ (t.bank s.me).scause = 3 ∧ (t.bank s.me).stval = f.code.setWidth 64
          ∧ (t.bank s.me).sepc = s.here.pc &&& ~~~3#64 ∧ (t.bank s.me).pc = s.here.stvec &&& ~~~3#64
          ∧ (t.bank s.me).x = s.here.x ∧ SameMem s t ∧ ∀ bk, bk ≠ s.me → t.bank bk = s.bank bk))
    ∧ StopsWith (.brk c f) s (.trap 3 (f.code.setWidth 64))

/-- R11, R65, R326, R327: a CSR instruction on an implemented CSR that the mode may access writes the CSR's old value to rd
and the new value, formed from rs1 or the immediate by write, set or clear, to the CSR; x0 or a zero immediate as the source
of a set or clear writes nothing. NRM alone has its own rule (NrmAccess). An unimplemented number, or a write to 0xCC0 to
0xCFF, traps with reason 6, and a trap CSR in task mode with cause 40. -/
def Obligations.CsrInstructions : Prop :=
  ∀ (s : State) (csr : BitVec 12) (rd rs1 u : BitVec 5),
    let n := csr.toNat
    let written (i : Instr) (old new : Word) : Prop := ∃ t,
      exec i s = .next t ∧ t = ((csrWrite s s.me n new).wx s.me rd old).modBank s.me (fun b => b.pass (s.here.pc + 4))
    let kept (i : Instr) (old : Word) : Prop := ∃ t,
      exec i s = .next t ∧ Writes s t 4 rd old ∧ SameMem s t ∧ Local s t
    let stops (i : Instr) (e : Stop) : Prop := exec i s = .next (settleStop s s.me e)
    let readOnly := 0xCC0 ≤ n ∧ n ≤ 0xCFF
    (∀ old, csrRead s s.me n = some old → ¬(privCsr n = true ∧ s.here.mode = .task) →
      (¬readOnly → n ≠ 0x800 →
        written (.csrrw rd csr rs1) old (s.rx s.me rs1)
        ∧ written (.csrrwi rd csr u) old (u.setWidth 64)
        ∧ (rs1 ≠ 0 → written (.csrrs rd csr rs1) old (old ||| s.rx s.me rs1)
            ∧ written (.csrrc rd csr rs1) old (old &&& ~~~s.rx s.me rs1))
        ∧ (u ≠ 0 → written (.csrrsi rd csr u) old (old ||| u.setWidth 64)
            ∧ written (.csrrci rd csr u) old (old &&& ~~~(u.setWidth 64))))
      ∧ (rs1 = 0 → kept (.csrrs rd csr rs1) old ∧ kept (.csrrc rd csr rs1) old)
      ∧ (u = 0 → kept (.csrrsi rd csr u) old ∧ kept (.csrrci rd csr u) old)
      ∧ (readOnly → stops (.csrrw rd csr rs1) (.bad 2 6 20) ∧ stops (.csrrwi rd csr u) (.bad 2 6 20)
          ∧ (rs1 ≠ 0 → stops (.csrrs rd csr rs1) (.bad 2 6 20) ∧ stops (.csrrc rd csr rs1) (.bad 2 6 20))
          ∧ (u ≠ 0 → stops (.csrrsi rd csr u) (.bad 2 6 20) ∧ stops (.csrrci rd csr u) (.bad 2 6 20))))
    ∧ (csrRead s s.me n = none →
        stops (.csrrw rd csr rs1) (.bad 2 6 20) ∧ stops (.csrrs rd csr rs1) (.bad 2 6 20)
        ∧ stops (.csrrc rd csr rs1) (.bad 2 6 20) ∧ stops (.csrrwi rd csr u) (.bad 2 6 20)
        ∧ stops (.csrrsi rd csr u) (.bad 2 6 20) ∧ stops (.csrrci rd csr u) (.bad 2 6 20))
    ∧ (privCsr n = true → s.here.mode = .task →
        stops (.csrrw rd csr rs1) (.trap 40 s.ir) ∧ stops (.csrrs rd csr rs1) (.trap 40 s.ir)
        ∧ stops (.csrrc rd csr rs1) (.trap 40 s.ir) ∧ stops (.csrrwi rd csr u) (.trap 40 s.ir)
        ∧ stops (.csrrsi rd csr u) (.trap 40 s.ir) ∧ stops (.csrrci rd csr u) (.trap 40 s.ir))

/-- R65, R66, R327, R11, R12: what a written CSR reads as: each field takes its own bits, reserved bits read 0, VRB is taken
modulo the rotating grant and PRB modulo 48, and a write to one CSR leaves every other CSR, every register and memory as
they were. R11, R66: NRM. csrrw stores RM and clears each sticky flag written as 1; csrrs sets bits of RM and changes no
flag; csrrc clears bits of RM, and a flag exactly where the source has a 1. -/
def Obligations.CsrValues : Prop :=
  (∀ (s : State) (bk n : Nat) (v : Word), n ≠ 0x800 → ¬(0xCC0 ≤ n ∧ n ≤ 0xCFF) → (csrRead s bk n).isSome = true →
     csrRead (csrWrite s bk n v) bk n = some
       (if 0x801 ≤ n ∧ n ≤ 0x807 then v &&& 0x3FF#64
        else if n = 0x808 then
          (if (s.bank bk).grant = 0 then 0 else BitVec.ofNat 64 (v.toNat % 256 % (s.bank bk).grant % 256))
        else if n = 0x809 then BitVec.ofNat 64 (v.toNat % 64 % 48)
        else if n = 0x810 then v &&& 0x1FF#64
        else if n = 0x818 ∨ n = 0x820 ∨ n = 0x828 ∨ n = 0x830 ∨ n = 0x838 then v &&& 0x81FF#64
        else if n = 0x819 ∨ n = 0x81A ∨ n = 0x81B ∨ n = 0x841 ∨ n = 0x843 ∨ n = 0x5C0 then v &&& 0xFFFF#64
        else if n = 0x105 ∨ n = 0x141 then v &&& ~~~3#64
        else if n = 0x142 then v &&& 0x7FFFFFFFFFFFFFFF#64
        else if n = 0x140 ∨ n = 0x143 then v
        else v &&& 0xFFFFFFFF#64)
     ∧ (∀ m, m ≠ n → csrRead (csrWrite s bk n v) bk m = csrRead s bk m)
     ∧ (∀ r, ((csrWrite s bk n v).bank bk).rx r = (s.bank bk).rx r)
     ∧ SameMem s (csrWrite s bk n v))
  ∧
  (∀ (s : State) (rd rs1 u : BitVec 5),
     let old := s.here.nrm
     let leaves (i : Instr) (new : Word) : Prop := ∃ t, exec i s = .next t ∧ (t.bank s.me).nrm = new
       ∧ (t.bank s.me).rx rd.toNat = (if rd = 0 then 0 else old) ∧ (t.bank s.me).pc = s.here.pc + 4
       ∧ (∀ r, r ≠ rd.toNat → (t.bank s.me).rx r = s.here.rx r)
       ∧ { (t.bank s.me).restX with nrm := 0 } = { s.here.restX with nrm := 0 } ∧ SameMem s t ∧ Local s t
     let stored (v : Word) : Word := (v &&& 7#64) ||| (old &&& ~~~v &&& 0xF8#64)
     let joined (v : Word) : Word := old ||| (v &&& 7#64)
     let cleared (v : Word) : Word := old &&& ~~~v &&& 0xFF#64
     leaves (.csrrw rd 0x800#12 rs1) (stored (s.rx s.me rs1))
     ∧ leaves (.csrrwi rd 0x800#12 u) (stored (u.setWidth 64))
     ∧ (rs1 ≠ 0 → leaves (.csrrs rd 0x800#12 rs1) (joined (s.rx s.me rs1))
         ∧ leaves (.csrrc rd 0x800#12 rs1) (cleared (s.rx s.me rs1)))
     ∧ (u ≠ 0 → leaves (.csrrsi rd 0x800#12 u) (joined (u.setWidth 64))
         ∧ leaves (.csrrci rd 0x800#12 u) (cleared (u.setWidth 64))))

/-! ### Crews, launches, tasks and edges (R247 to R283) -/

/-- R280, R278, R279: hold only passes. catch, once its queues have issued and no exposed result is open, opens the crew of
its mask at crew cycle 0; an empty mask, or a crew that the bank already has, raises reason 0x19. easy ends an active crew
whose members have issued, and has no effect without one; before they have, the bank is marked as held there (R280). R258: a
tail of a task with nothing stopped, no open control form and an empty replay queue ends the task's time on its bank: the
bank is Empty, or Held while 16 tracker entries are in use, and holds no task; the record is Retiring; and a tracker entry
with the join's handle takes the task's commands. -/
def Obligations.CrewAndTailWords : Prop :=
  (∀ (s : State) (c : Ctl) (f : FCr), Ready s c →
     let busy (m : BitVec 8) : Bool := maskBusy (s.core (keyCore s.me)) (s.here.uid.getD 0) m
     PassesOnly (.hold c) s 8
     ∧ (f.mask ≠ 0 → s.here.crew = none → busy f.mask = false → s.here.exposed = [] →
         ∃ t, exec (.catchCrew c f) s = .next t ∧ Passes s t 8
           ∧ (t.bank s.me).crew = some ⟨f.mask, 0, [], false, 0⟩ ∧ SameMem s t ∧ Local s t)
     ∧ (f.mask = 0 ∨ s.here.crew ≠ none → StopsWith (.catchCrew c f) s (.bad 24 0x19 56))
     ∧ (f.mask ≠ 0 → s.here.crew = none → busy f.mask = true → exec (.catchCrew c f) s = .next s)
     ∧ (∀ w, s.here.crew = some w → w.suspended = false → busy w.mask = false →
         ∃ t, exec (.easy c) s = .next t ∧ Passes s t 8 ∧ (t.bank s.me).crew = none ∧ SameMem s t ∧ Local s t)
     ∧ (∀ w, s.here.crew = some w → w.suspended = false → busy w.mask = true →
         exec (.easy c) s = .next (s.modBank s.me fun b => { b with stuck := true }))
     ∧ (s.here.crew = none ∨ (∃ w, s.here.crew = some w ∧ w.suspended = true) → PassesOnly (.easy c) s 8))
  ∧
  (∀ (s : State) (c : Ctl) (f : FTk) (u : Nat) (tk : Task), Ready s c →
     s.here.uid = some u → s.task u = some tk → tk.errs = [] → s.here.crew = none → s.here.replay = [] → s.here.exposed = [] →
     (f.xa ≠ 0 → semOk s (s.ctxOf s.me) ((s.rx s.me f.xa).setWidth 32) = true) →
     tailStopped s s.me u = .ok () → formsPerformed (s.core (keyCore s.me)) u = true →
     ∃ t, exec (.tail c f) s = .next t
       ∧ (t.bank s.me).uid = none
       ∧ (t.bank s.me).st = (if 16 ≤ (s.core (keyCore s.me)).tracker.length then .held else .empty)
       ∧ (t.bank s.me).tl = s.here.tl ∧ (t.bank s.me).grant = 0
       ∧ (t.task u).map (·.st) = some .retiring
       ∧ (t.core (keyCore s.me)).tracker.map (·.uid) = (s.core (keyCore s.me)).tracker.map (·.uid) ++ [u]
       ∧ (t.core (keyCore s.me)).tracker.map (·.join) = (s.core (keyCore s.me)).tracker.map (·.join)
           ++ [if f.xa = 0 then none else some ((s.rx s.me f.xa).setWidth 32)]
       ∧ SameMem s t ∧ SameSem s t)

/-- R248, R249: launch reads the header at x[xa]. An accepted one takes the lowest free launch slot, sets the word at CTRL
to the number of its initial records, and returns CTRL; a refused one returns 2^63 plus its code and creates nothing. A
header that is no multiple of 128 is a misaligned load, and without a free slot the launch waits. -/
def Obligations.LaunchWord : Prop :=
  ∀ (s : State) (c : Ctl) (f : FTk), Ready s c →
    let ag := s.agent s.me
    let a := s.rx s.me f.xa
    (a.toNat % 128 ≠ 0 → StopsWith (.launch c f) s (.trap 4 a))
    ∧ (a.toNat % 128 = 0 → (s.ctx ag.ctx).freeSlot = none → StopsWith (.launch c f) s (.wait (.launchFree ag.ctx)))
    ∧ (∀ h s2 i, a.toNat % 128 = 0 → (s.ctx ag.ctx).freeSlot = some i → readWords (s.issued c) ag 16 a = .ok (h, s2) →
        let code := launchCheck s ag.ctx h ((s.myTask s.me).map (·.prio))
        let ctrl : BitVec 32 := (Header.dw h 1).setWidth 32
        (code = 0 → ∀ k, semKey s ag.ctx ctrl = some (some k) →
          ∃ t, exec (.launch c f) s = .next t ∧ Writes s t 8 f.xd (ctrl.setWidth 64)
            ∧ SMap.find (t.ctx ag.ctx).launches i = some (Header.launch h s.cycle s.fresh)
            ∧ (∀ j, j ≠ i → SMap.find (t.ctx ag.ctx).launches j = SMap.find (s.ctx ag.ctx).launches j)
            ∧ t.semRead k = BitVec.ofNat 64 (Header.total h) ∧ SameSemBut s t k ∧ SameMem s t)
        ∧ (code ≠ 0 →
          ∃ t, exec (.launch c f) s = .next t ∧ Writes s t 8 f.xd (BitVec.ofNat 64 (2 ^ 63 + code))
            ∧ (t.ctx ag.ctx).launches = (s.ctx ag.ctx).launches ∧ t.tasks = s.tasks ∧ SameSem s t ∧ SameMem s t))

/-- R254: spawn makes one record of the running task's launch with the identifier x[xb], the frame x[xa], the code IMM, the
join counter x[xd][31:0] and the task's spawn priority; it is gated where flag 0 is set and the counter is not 0, and
eligible otherwise; LIVE rises by one, and the 32 bytes of the record stand at its place in the record queue where the
context's translation grants the write, a part on either side of a 64 KiB border by its own translation (R253; their order,
and the lowest free place, are the model's choice: log entries 52 and 53). A flag above bit 1, a bad handle and a bad code
address trap; a full record queue is a wait. R268, R283, R277, R250: setpri returns the task's spawn priority and sets it;
thallow returns an allowance word; slip returns the slip counter and clears it where asked; lerr returns a status word. -/
def Obligations.SpawnAndReadings : Prop :=
  (∀ (s : State) (c : Ctl) (f : FTk), Ready s c →
     let ag := s.agent s.me
     let w := s.rx s.me f.xd
     let jh : BitVec 32 := w.setWidth 32
     (w.toNat / 2 ^ 34 ≠ 0 → StopsWith (.spawn c f) s (.bad 24 0x19 59))
     ∧ (w.toNat / 2 ^ 34 = 0 → semKey s ag.ctx jh = some none → StopsWith (.spawn c f) s (.trap 27 (jh.setWidth 64)))
     ∧ (∀ k, w.toNat / 2 ^ 34 = 0 → semKey s ag.ctx jh = some (some k) →
         let codeOk := f.imm.toNat % 4 = 0 ∧ f.imm.toNat < 0x40000
         let room := s.queuedRecords ag.ctx < (s.ctx ag.ctx).recqn.toNat
         (¬codeOk → StopsWith (.spawn c f) s (.bad 24 0x19 28))
         ∧ ∀ tk l, s.myTask s.me = some tk → s.launchOf tk = some l → tk.ctx = ag.ctx → l.ended = false →
           (codeOk → ¬room → StopsWith (.spawn c f) s (.wait (.recqFree ag.ctx tk.lslot)))
           ∧ (∀ sk, codeOk → room →
             s.statusKey tk.ctx l = some sk → s.semRead sk + 1 ≠ 0 →
             ∃ t r, exec (.spawn c f) s = .next t ∧ Passes s t 8 ∧ t.fresh = s.fresh + 1
               ∧ t.task s.fresh = some r
               ∧ r.ctx = tk.ctx ∧ r.lslot = tk.lslot ∧ r.wid = s.rx s.me f.xb ∧ r.frame = s.rx s.me f.xa
               ∧ r.code.toNat = f.imm.toNat ∧ r.jh = jh ∧ r.prio = tk.spawnPrio ∧ r.spawnPrio = tk.spawnPrio
               ∧ r.stage = w.getLsbD 33 ∧ r.gen = 0
               ∧ r.st = (if w.getLsbD 32 = true ∧ s.semRead k ≠ 0 then .gated else .eligible)
               ∧ (∀ u, u ≠ s.fresh → t.task u = s.task u)
               ∧ r.recq = some (s.recqIndex ag.ctx)
               ∧ t.semRead sk = s.semRead sk + 1 ∧ SameSemBut s t sk
               ∧ (let va := (s.ctx ag.ctx).recq.toNat + 32 * s.recqIndex ag.ctx
                  (va % 65536 + 32 ≤ 65536 →
                   match xlatCtx s ag.ctx (s.ctx ag.ctx).part.toNat .write (w64 va) (va % 2 ^ 57) with
                   | .ok p => Memory.readList t.mem p.loc 32 = r.recordBytes ∧ SameMemBut s t p.loc 32
                   | .error _ => SameMem s t)
                  ∧ (65536 < va % 65536 + 32 →
                   let m := 65536 - va % 65536
                   t.mem = ((s.vxPiece ag.ctx va (r.recordBytes.take m)).vxPiece ag.ctx (va + m) (r.recordBytes.drop m)).mem)))))
  ∧
  (∀ (s : State) (c : Ctl) (f : FTk) (tk : Task) (l : Launch), Ready s c →
     s.myTask s.me = some tk → s.launchOf tk = some l →
     let a := s.rx s.me f.xa
     let ctx := s.ctxOf s.me
     let part := keyPart (keyCore s.me)
     let hbm := 12 / s.parts
     (a.toNat ≤ l.prio →
       ∃ t, exec (.setpri c f) s = .next t ∧ Writes s t 8 f.xd (BitVec.ofNat 64 tk.spawnPrio)
         ∧ t.task (s.here.uid.getD 0) = some { tk with spawnPrio := a.toNat }
         ∧ (∀ u, u ≠ s.here.uid.getD 0 → t.task u = s.task u) ∧ SameMem s t ∧ SameSem s t)
     ∧ (l.prio < a.toNat → StopsWith (.setpri c f) s (.bad 24 0x19 54))
     ∧ (f.imm = 0 → a.toNat ≤ 63 → WritesOnly (.thallow c f) s 8 f.xd (s.core (64 * part + a.toNat)).allow)
     ∧ (f.imm = 1 → a.toNat < hbm →
         WritesOnly (.thallow c f) s 8 f.xd (SMap.get StackSt.reset s.hbm (part * hbm + a.toNat)).allow)
     ∧ (f.imm = 0 → 63 < a.toNat → StopsWith (.thallow c f) s (.bad 24 0x19 54))
     ∧ (f.imm = 1 → hbm ≤ a.toNat → StopsWith (.thallow c f) s (.bad 24 0x19 54))
     ∧ (1 < f.imm.toNat → StopsWith (.thallow c f) s (.bad 24 0x19 28))
     ∧ (f.imm = 0 → WritesOnly (.slip c f) s 8 f.xd (s.ctx ctx).slip)
     ∧ (f.imm = 1 → ∃ t, exec (.slip c f) s = .next t ∧ Writes s t 8 f.xd (s.ctx ctx).slip
         ∧ t.ctx ctx = { s.ctx ctx with slip := 0 } ∧ (∀ n, n ≠ ctx → t.ctx n = s.ctx n) ∧ SameMem s t ∧ SameSem s t)
     ∧ (1 < f.imm.toNat → StopsWith (.slip c f) s (.bad 24 0x19 28))
     ∧ (∀ k, semKey s ctx (a.setWidth 32) = some (some k) →
         ∃ t, exec (.lerr c f) s = .next t ∧ Writes s t 8 f.xd (s.semRead k) ∧ SameSem s t ∧ SameMem s t))

/-- R255, R254: join lowers its counter by one, returns the new value, and makes every record gated by the counter eligible
where it reaches 0; a counter that reads 0 raises CAUSE_JOIN_ZERO with no effect. -/
def Obligations.JoinWord : Prop :=
  ∀ (s : State) (c : Ctl) (f : FTk) (k : Nat), Ready s c →
    semKey s (s.ctxOf s.me) ((s.rx s.me f.xa).setWidth 32) = some (some k) →
    let old := s.semRead k
    (old = 0 → StopsWith (.join c f) s (.trap 34 0))
    ∧ (old ≠ 0 → ∃ t, exec (.join c f) s = .next t ∧ Writes s t 8 f.xd (old - 1)
        ∧ t.semRead k = old - 1 ∧ SameSemBut s t k ∧ SameMem s t ∧ LocalSem s t
        ∧ (∀ u r, s.task u = some r → r.st = .gated → semKey s r.ctx r.jh = some (some k) → old = 1 →
            (t.task u).map (·.st) = some .eligible)
        ∧ (∀ u r, s.task u = some r → (semKey s r.ctx r.jh ≠ some (some k) ∨ old ≠ 1) →
            (t.task u).map (·.st) = some r.st))

/-- R251: widf extracts a field of a work identifier; its word has XB zero. -/
def Obligations.WidfWord : Prop :=
  (∀ p q c f, decodeParcels p q = .ok (.widf c f) → f.xb = 0)
  ∧ ∀ (s : State) (c : Ctl) (f : FTk), Ready s c →
    let w := widthOf s.widths f.imm.toNat
    let o := (List.range f.imm.toNat).foldl (fun n g => n + widthOf s.widths g) 0
    (f.imm.toNat ≤ 5 → WritesOnly (.widf c f) s 8 f.xd (BitVec.ofNat 64 ((s.rx s.me f.xa).toNat / 2 ^ o % 2 ^ w)))
    ∧ (5 < f.imm.toNat → StopsWith (.widf c f) s (.bad 24 0x19 28))

/-- R252: widins replaces a field of a work identifier. -/
def Obligations.WidinsWord : Prop :=
  ∀ (s : State) (c : Ctl) (f : FTk), Ready s c →
    let w := widthOf s.widths f.imm.toNat
    let o := (List.range f.imm.toNat).foldl (fun n g => n + widthOf s.widths g) 0
    let v := (s.rx s.me f.xb).toNat
    let x := (s.rx s.me f.xa).toNat
    (5 < f.imm.toNat → StopsWith (.widins c f) s (.bad 24 0x19 28))
    ∧ (f.imm.toNat ≤ 5 → 2 ^ w ≤ v → StopsWith (.widins c f) s (.bad 24 0x19 49))
    ∧ (f.imm.toNat ≤ 5 → v < 2 ^ w →
        WritesOnly (.widins c f) s 8 f.xd
          (BitVec.ofNat 64 (x / 2 ^ (o + w) * 2 ^ (o + w) + v * 2 ^ o + x % 2 ^ o)))

/-- R270: draw returns the drawn bits of its operands and the launch's seed. -/
def Obligations.DrawWord : Prop :=
  ∀ (s : State) (c : Ctl) (f : FTk) (l : Launch), Ready s c → s.myLaunch s.me = some l →
    WritesOnly (.draw c f) s 8 f.xd
      ((srgen (l.seed ^^^ s.rx s.me f.xa) (s.rx s.me f.xb) (f.imm.setWidth 32)).setWidth 64)

/-- R275: budget returns the launch's remaining ticks, or all ones where its header had BUDGET = 0; its word uses XD only.
-/
def Obligations.BudgetWord : Prop :=
  (∀ (s : State) (c : Ctl) (f : FTk) (l : Launch), Ready s c → s.myLaunch s.me = some l →
    WritesOnly (.budget c f) s 8 f.xd (match l.budget with
      | some n => BitVec.ofNat 64 n
      | none => 0xFFFFFFFFFFFFFFFF))
  ∧ (∀ (h : Header) (now first : Nat),
      (Header.launch h now first).budget = if (h.dw 9).toNat / 2 ^ 32 = 0 then none else some ((h.dw 9).toNat / 2 ^ 32))
  ∧ ∀ p q c f, decodeParcels p q = .ok (.budget c f) → f.xa = 0 ∧ f.xb = 0 ∧ f.imm = 0

/-- R261: the producing end of an edge queue, whose word CAP is w. A reservation waits for a free slot and takes the next
one, or the slot x[xa] in its turn; a closed queue raises CAUSE_EDGE. A publication of slot s raises PUBD to s + 1, in the
order of the slots, and closing sets CLOSED once every reserved slot is published. R261: the consuming end of an edge queue.
A take waits for a published slot and advances RPOS, or returns all ones once the queue is closed and the slot will never be
published; a slot is freed in the order of the slots. R261, R198: eqinit sets the six words of an edge queue: CAP to x[xb],
the others to 0; a capacity of 0 or above 2^24 raises reason 0x19. -/
def Obligations.EdgeQueueWords : Prop :=
  (∀ (s : State) (c : Ctl) (f : FTk) (ks : List Nat), Ready s c → edgeWords s f true = .ok ks → ks.Nodup →
     let word (i : Nat) : Nat := ks.getD i 0
     let n := s.rx s.me f.xa
     let cap := (s.semRead (word 0)).toNat
     let wpos := (s.semRead (word 1)).toNat
     let pubd := (s.semRead (word 2)).toNat
     let freed := (s.semRead (word 4)).toNat
     let closed := s.semRead (word 5) = 1
     let sets (i : Instr) (k : Nat) (v : Word) : Prop :=
       ∃ t, exec i s = .next t ∧ Passes s t 8 ∧ t.semRead k = v ∧ SameSemBut s t k ∧ SameMem s t ∧ LocalSem s t
     let takes (i : Instr) (k : Nat) (v r : Word) : Prop :=
       ∃ t, exec i s = .next t ∧ Writes s t 8 f.xd r ∧ t.semRead k = v ∧ SameSemBut s t k ∧ SameMem s t ∧ LocalSem s t
     (¬closed → wpos - freed < cap →
       takes (.eqsendReserveNext c f) (word 1) (BitVec.ofNat 64 (wpos + 1)) (BitVec.ofNat 64 wpos))
     ∧ (¬closed → cap ≤ wpos - freed → StopsWith (.eqsendReserveNext c f) s (.wait (.edge 0 ks 0)))
     ∧ (closed → StopsWith (.eqsendReserveNext c f) s (.trap 35 0))
     ∧ (¬closed → wpos = n.toNat → wpos - freed < cap → takes (.eqsendReserve c f) (word 1) (n + 1) n)
     ∧ (¬closed → (wpos ≠ n.toNat ∨ cap ≤ wpos - freed) → StopsWith (.eqsendReserve c f) s (.wait (.edge 1 ks n)))
     ∧ (closed → StopsWith (.eqsendReserve c f) s (.trap 35 0))
     ∧ (n.toNat < wpos → pubd = n.toNat → sets (.eqsendPublish c f) (word 2) (n + 1))
     ∧ (n.toNat < wpos → pubd < n.toNat → StopsWith (.eqsendPublish c f) s (.wait (.edge 2 ks n)))
     ∧ (wpos ≤ n.toNat ∨ n.toNat < pubd → StopsWith (.eqsendPublish c f) s (.trap 35 0))
     ∧ (pubd = wpos → sets (.eqsendClose c f) (word 5) 1)
     ∧ (pubd ≠ wpos → StopsWith (.eqsendClose c f) s (.wait (.edge 3 ks 0))))
  ∧
  (∀ (s : State) (c : Ctl) (f : FTk) (ks : List Nat), Ready s c → edgeWords s f false = .ok ks → ks.Nodup →
     let word (i : Nat) : Nat := ks.getD i 0
     let n := s.rx s.me f.xa
     let pubd := (s.semRead (word 2)).toNat
     let rpos := (s.semRead (word 3)).toNat
     let freed := (s.semRead (word 4)).toNat
     let closed := s.semRead (word 5) = 1
     let none : Word := 0xFFFFFFFFFFFFFFFF
     let sets (i : Instr) (k : Nat) (v : Word) : Prop :=
       ∃ t, exec i s = .next t ∧ Passes s t 8 ∧ t.semRead k = v ∧ SameSemBut s t k ∧ SameMem s t ∧ LocalSem s t
     let takes (i : Instr) (k : Nat) (v r : Word) : Prop :=
       ∃ t, exec i s = .next t ∧ Writes s t 8 f.xd r ∧ t.semRead k = v ∧ SameSemBut s t k ∧ SameMem s t ∧ LocalSem s t
     (rpos < pubd → takes (.eqrecvTakeNext c f) (word 3) (BitVec.ofNat 64 (rpos + 1)) (BitVec.ofNat 64 rpos))
     ∧ (closed → rpos = pubd → takes (.eqrecvTakeNext c f) (word 3) (s.semRead (word 3)) none)
     ∧ (pubd ≤ rpos → ¬(closed ∧ rpos = pubd) → StopsWith (.eqrecvTakeNext c f) s (.wait (.edge 4 ks 0)))
     ∧ (rpos = n.toNat → n.toNat < pubd → takes (.eqrecvTake c f) (word 3) (n + 1) n)
     ∧ (closed → pubd ≤ n.toNat → takes (.eqrecvTake c f) (word 3) (s.semRead (word 3)) none)
     ∧ ((n.toNat < pubd ∧ rpos ≠ n.toNat) ∨ (pubd ≤ n.toNat ∧ ¬closed) →
         StopsWith (.eqrecvTake c f) s (.wait (.edge 5 ks n)))
     ∧ (n.toNat < rpos → freed = n.toNat → sets (.eqfree c f) (word 4) (n + 1))
     ∧ (n.toNat < rpos → freed < n.toNat → StopsWith (.eqfree c f) s (.wait (.edge 6 ks n)))
     ∧ (rpos ≤ n.toNat ∨ n.toNat < freed → StopsWith (.eqfree c f) s (.trap 35 0)))
  ∧
  (∀ (s : State) (c : Ctl) (f : FTk) (ks : List Nat), Ready s c →
     semRun s (s.ctxOf s.me) ((s.rx s.me f.xa).setWidth 32) 54 6 0 = .ok ks → ks.Nodup →
     let cap := s.rx s.me f.xb
     (cap ≠ 0 → cap.toNat ≤ 2 ^ 24 →
       ∃ t, exec (.eqinit c f) s = .next t ∧ Passes s t 8 ∧ SameMem s t
         ∧ ks.map t.semRead = [cap, 0, 0, 0, 0, 0] ∧ (∀ k, k ∉ ks → t.semRead k = s.semRead k))
     ∧ (cap = 0 ∨ 2 ^ 24 < cap.toNat → StopsWith (.eqinit c f) s (.bad 24 0x19 49)))

/-! ### Semaphores and timeline counters (R198 to R201) -/

/-- R198, R41: the semaphore instructions on the word k that x[xh] names, at a scope up to system: sem.ld and the
read-modify-writes return the old word, sem.st and the read-modify-writes leave the new one, and every other word stays.
R40, R56, R198: a handle with a one in [31:20] raises reason 0x1A, an index beyond the context's allocation the
semaphore-range fault, and a scope above system reason 0x18: for every semaphore instruction. R198, R199: sem.wait passes
once the word is at least x[xa], and waits until then. -/
def Obligations.SemaphoreInstructions : Prop :=
  (∀ (s : State) (c : Ctl) (f : FSm) (k : Nat), Ready s c →
     semKey s (s.ctxOf s.me) ((s.rx s.me f.xh).setWidth 32) = some (some k) → f.scope.toNat ≤ 5 →
     let old := s.semRead k
     let a := s.rx s.me f.xa
     let b := s.rx s.me f.xb
     let returns (i : Instr) (new : Word) : Prop := ∃ t, exec i s = .next t ∧ Writes s t 8 f.xd old ∧ t.semRead k = new
       ∧ SameSemBut s t k ∧ SameMem s t ∧ LocalSem s t
     returns (.semLd c f) old
     ∧ returns (.semAdd c f) (old + a)
     ∧ returns (.semCas c f) (if old = a then b else old)
     ∧ returns (.semMax c f) (if old.toNat < a.toNat then a else old)
     ∧ returns (.semSwap c f) a
     ∧ ∃ t, exec (.semSt c f) s = .next t ∧ Passes s t 8 ∧ t.semRead k = a ∧ SameSemBut s t k ∧ SameMem s t ∧ LocalSem s t)
  ∧
  (∀ (s : State) (c : Ctl) (f : FSm), Ready s c →
     let h : BitVec 32 := (s.rx s.me f.xh).setWidth 32
     ∀ i ∈ [Instr.semLd c f, .semSt c f, .semAdd c f, .semCas c f, .semMax c f, .semSwap c f, .semWait c f, .bump c f],
       (h.toNat / 2 ^ 20 ≠ 0 → StopsWith i s (.bad 24 0x1A 54))
       ∧ (h.toNat / 2 ^ 20 = 0 →
           (let die := h.toNat / 2 ^ 19
            let alloc := if die = 0 then (s.ctx (s.ctxOf s.me)).sem0 else (s.ctx (s.ctxOf s.me)).sem1
            alloc.toNat % 2 ^ 19 ≤ h.toNat % 2 ^ 19) → StopsWith i s (.trap 27 (h.setWidth 64)))
       ∧ (∀ k, semKey s (s.ctxOf s.me) h = some (some k) → 5 < f.scope.toNat → StopsWith i s (.bad 24 0x18 41)))
  ∧
  (∀ (s : State) (c : Ctl) (f : FSm) (k : Nat), Ready s c →
     semKey s (s.ctxOf s.me) ((s.rx s.me f.xh).setWidth 32) = some (some k) → f.scope.toNat ≤ 5 →
     let v := s.rx s.me f.xa
     (v.toNat ≤ (s.semRead k).toNat →
       ∃ t, exec (.semWait c f) s = .next t ∧ Passes s t 8 ∧ SameSem s t ∧ SameMem s t ∧ LocalMem s t)
     ∧ ((s.semRead k).toNat < v.toNat → s.here.granted = false → s.waited s.me < 1024 →
       ∃ t, exec (.semWait c f) s = .next t ∧ Waits s t (.semGe k v) ∧ SameSem s t ∧ SameMem s t))

/-- R200: bump adds x[xa] to its word and returns the old word where the sum, taken without wrap, is at most x[xb], and
returns all ones and changes nothing where it is not; so also with x[xa] = 0 at a word above the limit (the model's reading,
log entry 10). -/
def Obligations.BumpWord : Prop :=
  ∀ (s : State) (c : Ctl) (f : FSm) (k : Nat), Ready s c →
    semKey s (s.ctxOf s.me) ((s.rx s.me f.xh).setWidth 32) = some (some k) → f.scope.toNat ≤ 5 →
    let old := (s.semRead k).toNat
    let sum := old + (s.rx s.me f.xa).toNat
    let limit := (s.rx s.me f.xb).toNat
    (sum ≤ limit → ∃ t, exec (.bump c f) s = .next t ∧ Writes s t 8 f.xd (s.semRead k)
        ∧ (t.semRead k).toNat = sum ∧ SameSemBut s t k ∧ SameMem s t ∧ LocalSem s t)
    ∧ (limit < sum → ∃ t, exec (.bump c f) s = .next t ∧ Writes s t 8 f.xd 0xFFFFFFFFFFFFFFFF
        ∧ SameSem s t ∧ SameMem s t ∧ LocalSem s t)

/-- R201, R199: tlread returns the counter. waittl, with no stopped command or stream of the counter's engine in the way,
returns the counter once it is at least x[xa] and acquires the bank's engine operations numbered x[xa] or less; it waits
until then. -/
def Obligations.TimelineWords : Prop :=
  ∀ (s : State) (c : Ctl) (f : FTl), Ready s c →
    let k := f.tln.toNat
    let v := s.rx s.me f.xa
    let val := (SMap.get Timeline.reset s.here.tl k).val
    let uid := s.here.uid.getD 0
    let clear := stoppedOn (s.core (keyCore s.me)) k uid = none
      ∧ stoppedStreamOn (s.core (keyCore s.me)) s.here k uid v.toNat = none
    WritesOnly (.tlread c f) s 8 f.xd (BitVec.ofNat 64 val)
    ∧ (clear → v.toNat ≤ val →
        ∃ t, exec (.waittl c f) s = .next t ∧ Writes s t 8 f.xd (BitVec.ofNat 64 val) ∧ SameMem s t ∧ SameSem s t
          ∧ (∀ e ∈ t.dir, ∀ p ∈ e.2.pend, p.1 = s.me → p.2.1 = k → v.toNat < p.2.2)
          ∧ ∀ sec, t.l1Of (keyCore s.me) sec ≠ some .stale)
    ∧ (clear → val < v.toNat → s.waited s.me < 1024 →
        ∃ t, exec (.waittl c f) s = .next t ∧ Waits s t (.tlGe s.me k v) ∧ SameSem s t ∧ SameMem s t)

/-! ### The handler's words, seals and vouches (R326 to R347, R356, R371, R374) -/

/-- R331, R326: tret returns from handler mode to task mode at sepc; the suspended crew is active again, a wait ends, and a
stream whose stopped fault the trap took is free again (R219). No other field of the bank, no byte of memory and nothing
outside the bank but issue times changes. In task mode it traps with cause 40. R326: the privileged words trap with cause 40
in task mode, whatever their operands. R332: ntrap in task mode is a trap of cause 42 whose value holds the code and
x[xa][47:0]. In handler mode it releases, posts the request with its code, core, bank and x[xa][31:0] and waits for the
answer, which it returns once the host has given it; while another request of the context is unanswered it has released, and
waits to post. R347: quiesce returns the quiesce counter once it is at least x[xa], and waits until then. -/
def Obligations.HandlerWords : Prop :=
  (∀ (s : State) (c : Ctl) (f : FSs), Ready s c →
     let b := (s.issued c).bank s.me
     (s.here.mode = .task → StopsWith (.tret c f) s (.trap 40 s.ir))
     ∧ (s.here.mode = .handler → ∃ t, exec (.tret c f) s = .next t
         ∧ t.bank s.me = { b with
             mode := .task, pc := b.sepc, wait := none, waitCount := 0, granted := false, prevMat := none
             crew := b.crew.map (fun w => { w with suspended := false })
             streams := b.streams.map fun e => (e.1, { e.2 with hold := false }) }
         ∧ b.rest = s.here.rest ∧ (t.bank s.me).pc = s.here.sepc
         ∧ SameMem s t ∧ Local s t))
  ∧
  (∀ (s : State) (c : Ctl) (f : FSs), Ready s c → s.here.mode = .task →
     ∀ i ∈ [Instr.tret c f, .killLaunch c f, .killContext c f, .gate c f, .wake c f, .tlbinvAll c f, .tlbinvRange c f,
         .fltans c f],
       StopsWith i s (.trap 40 s.ir))
  ∧
  (∀ (s : State) (c : Ctl) (f : FSs), Ready s c →
     let ctx := s.ctxOf s.me
     let a := s.rx s.me f.xa
     let mine : HostReq := ⟨some (s.me, s.here.uid.getD 0)⟩
     let released (t : State) : Prop := SameMem s t ∧ SameSem s t ∧
       ∀ e ∈ t.dir, e ∈ s.dir ∧ coversTag (s.agent s.me).uid (keyCore s.me) e.2 = false
     (s.here.mode = .task →
       StopsWith (.ntrap c f) s (.trap 42 (BitVec.ofNat 64 (f.code.toNat * 2 ^ 48 + a.toNat % 2 ^ 48))))
     ∧ (∀ v, s.here.mode = .handler → s.here.hans = some v →
         ∃ t, exec (.ntrap c f) s = .next t ∧ (t.bank s.me).pc = s.here.pc + 8 ∧ (t.bank s.me).hans = none
           ∧ (t.bank s.me).rx f.xd.toNat = (if f.xd = 0 then 0 else v)
           ∧ (∀ r, r ≠ f.xd.toNat → (t.bank s.me).rx r = s.here.rx r) ∧ SameMem s t ∧ Local s t)
     ∧ (s.here.mode = .handler → s.here.hans = none → (s.ctx ctx).req = none →
         ∃ t, exec (.ntrap c f) s = .next t ∧ (t.bank s.me).pc = s.here.pc ∧ (t.bank s.me).wait = some (.hans ctx s.me)
           ∧ (t.ctx ctx).hreq = BitVec.ofNat 64 (f.code.toNat * 2 ^ 48 + (keyCore s.me) % 64 * 2 ^ 40
               + s.me % 2 * 2 ^ 39 + a.toNat % 2 ^ 32)
           ∧ (t.ctx ctx).req = some mine ∧ t.msix = s.msix ++ [4 * ctx + 2] ∧ released t)
     ∧ (s.here.mode = .handler → s.here.hans = none → (s.ctx ctx).req = some mine →
         StopsWith (.ntrap c f) s (.wait (.hans ctx s.me)))
     ∧ (∀ r, s.here.mode = .handler → s.here.hans = none → (s.ctx ctx).req = some r → r ≠ mine →
         ∃ t, exec (.ntrap c f) s = .next t ∧ (t.bank s.me).pc = s.here.pc ∧ (t.bank s.me).wait = some (.hreqFree ctx)
           ∧ t.ctx ctx = s.ctx ctx ∧ t.msix = s.msix ∧ released t))
  ∧
  (∀ (s : State) (c : Ctl) (f : FSs), Ready s c →
     let ctx := s.ctxOf s.me
     let v := s.rx s.me f.xa
     (v.toNat ≤ (s.ctx ctx).qtl →
       ∃ t, exec (.quiesce c f) s = .next t ∧ Writes s t 8 f.xd (BitVec.ofNat 64 (s.ctx ctx).qtl)
         ∧ SameMem s t ∧ SameSem s t ∧ LocalMem s t)
     ∧ ((s.ctx ctx).qtl < v.toNat → StopsWith (.quiesce c f) s (.wait (.qtlGe ctx v))))

/-- R345, R346: the kill instructions return the kill's number, the next of the context's quiesce counter, and end every
record of the launch named, or of every live launch of the context, in the same step; a context kill sets CSTATE to 3. A
handle that fails R40 traps. -/
def Obligations.KillWords : Prop :=
  ∀ (s : State) (c : Ctl) (f : FSs), Ready s c → s.here.mode = .handler →
    let ctx := s.ctxOf s.me
    let h : BitVec 32 := (s.rx s.me f.xa).setWidth 32
    let q := (s.ctx ctx).qtlLast + 1
    let ended (t : State) (u : Nat) : Prop := ∃ r, t.task u = some r ∧ (r.st = .retired ∨ r.st = .retiring)
    let numbered (t : State) : Prop :=
      (t.ctx ctx).qtlLast = q ∧ (t.bank s.me).rx f.xd.toNat = if f.xd = 0 then 0 else BitVec.ofNat 64 q
    ((∃ k, semKey s ctx h = some (some k)) →
      ∃ t, exec (.killLaunch c f) s = .next t ∧ numbered t
        ∧ ∀ slot l u r, s.slotOf ctx h = some slot → SMap.find (s.ctx ctx).launches slot = some l → s.task u = some r →
            r.ctx = ctx → r.lslot = slot → l.first ≤ u → ended t u)
    ∧ (semKey s ctx h = none → StopsWith (.killLaunch c f) s (.bad 24 0x1A 54))
    ∧ (semKey s ctx h = some none → StopsWith (.killLaunch c f) s (.trap 27 (h.setWidth 64)))
    ∧ ∃ t, exec (.killContext c f) s = .next t ∧ numbered t ∧ (t.ctx ctx).cstate = 3
        ∧ ∀ slot l u r, SMap.find (s.ctx ctx).launches slot = some l → s.task u = some r → r.ctx = ctx → r.lslot = slot →
            l.first ≤ u → ended t u

/-- R343: gate powers a core of the grant down and returns 0, its caches empty, or returns 1 where it is gated already; it
waits for a core that is down and for the end of a seal of the core. wake powers a gated core up and returns 0, returns 1
where the core was not gated, and waits until the core can pop. A core outside the grant, and the own core in gate, raise
reason 0x19. R338: a page-table update drops every cached translation of the context that meets its range, in every core of
the partition and in the partition's second level, and every other one stays; it publishes the narrow-dirty sectors of the
range and drops their copies: no sector that such a translation names keeps a narrow record or a copy in any core. Memory
stays. R342: fltans answers the unanswered record of the context that x[xa][31:0] names, which leaves the fault buffer, and
returns 0; without such a record it returns 1; an answer above 1 raises reason 0x19. -/
def Obligations.GateAndTranslationWords : Prop :=
  (∀ (s : State) (c : Ctl) (f : FSs), Ready s c → s.here.mode = .handler →
     let n := (s.rx s.me f.xa).toNat
     let k := 64 * keyPart (keyCore s.me) + n
     let x := s.core k
     let named := n ≤ 63 ∧ s.granted (s.ctxOf s.me) n = true
     let sealing := ∃ y ∈ s.seals, y.core = k
     (¬named → StopsWith (.gate c f) s (.bad 24 0x19 54) ∧ StopsWith (.wake c f) s (.bad 24 0x19 54))
     ∧ (named → k = keyCore s.me → StopsWith (.gate c f) s (.bad 24 0x19 54))
     ∧ (named → k ≠ keyCore s.me → x.gated = true → WritesOnly (.gate c f) s 8 f.xd 1)
     ∧ (named → k ≠ keyCore s.me → x.gated = false → x.awake = false → StopsWith (.gate c f) s (.wait (.awake k)))
     ∧ (named → k ≠ keyCore s.me → x.awake = true → sealing → StopsWith (.gate c f) s (.wait (.sealed [k])))
     ∧ (named → k ≠ keyCore s.me → x.awake = true → ¬sealing →
         ∃ t, exec (.gate c f) s = .next t ∧ (t.bank s.me).pc = s.here.pc + 8
           ∧ (t.bank s.me).rx f.xd.toNat = 0
           ∧ (t.core k).gated = true ∧ (t.core k).l1 = [] ∧ (t.core k).tlb = [] ∧ (t.core k).preload = [])
     ∧ (named → x.down = true ∨ x.halted = true → StopsWith (.wake c f) s (.wait (.powered k)))
     ∧ (named → x.down = false → x.halted = false → x.gated = false → WritesOnly (.wake c f) s 8 f.xd 1)
     ∧ (named → x.down = false → x.halted = false → x.gated = true →
         ∃ t, exec (.wake c f) s = .next t ∧ Writes s t 8 f.xd 0 ∧ (t.core k).gated = false ∧ SameMem s t ∧ SameSem s t))
  ∧
  (∀ (s : State) (c : Ctl) (f : FSs), Ready s c → s.here.mode = .handler →
     let ctx := s.ctxOf s.me
     let part := keyPart (keyCore s.me)
     let done (i : Instr) (lo n : Nat) : Prop := ∃ t, exec i s = .next t ∧ Passes s t 8 ∧ SameMem s t ∧ SameSem s t
       ∧ (∀ k, keyPart k = part → ∀ e ∈ (t.core k).tlb, e.ctx = ctx → spansMeet lo n e.page e.size = false)
       ∧ (∀ e ∈ SMap.get [] t.tlb2 part, e.ctx = ctx → spansMeet lo n e.page e.size = false)
       ∧ (∀ k, ∀ e ∈ (s.core k).tlb, (keyPart k ≠ part ∨ e.ctx ≠ ctx ∨ spansMeet lo n e.page e.size = false) → e ∈ (t.core k).tlb)
       ∧ (∀ p, ∀ e ∈ SMap.get [] s.tlb2 p, (p ≠ part ∨ e.ctx ≠ ctx ∨ spansMeet lo n e.page e.size = false) → e ∈ SMap.get [] t.tlb2 p)
       ∧ (∀ k, keyPart k = part → ∀ e ∈ (s.core k).tlb, e.ctx = ctx → spansMeet lo n e.page e.size = true →
           pteCause s ctx (tlbLevel e) e.pte .read = 0 → ∀ a m sec, leafSpan part (e.page, tlbLevel e, e.pte) = some (a, m) →
           spansMeet a m (32 * sec) 32 = true → SMap.find t.dir sec = none ∧ ∀ j, t.l1Of j sec = none)
     done (.tlbinvAll c f) 0 (2 ^ 57) ∧ done (.tlbinvRange c f) (s.rx s.me f.xa).toNat (s.rx s.me f.xb).toNat)
  ∧
  (∀ (s : State) (c : Ctl) (f : FSs), Ready s c → s.here.mode = .handler →
     let ctx := s.ctxOf s.me
     let tag := (s.rx s.me f.xa).toNat % 2 ^ 32
     (1 < (s.rx s.me f.xb).toNat → StopsWith (.fltans c f) s (.bad 24 0x19 49))
     ∧ ((s.rx s.me f.xb).toNat ≤ 1 → s.unanswered ctx tag = none →
         ∃ t, exec (.fltans c f) s = .next t ∧ Writes s t 8 f.xd 1 ∧ t.faults = s.faults ∧ SameMem s t ∧ SameSem s t)
     ∧ (∀ fr, (s.rx s.me f.xb).toNat ≤ 1 → s.unanswered ctx tag = some fr → fr.waiters = [] →
         ∃ t, exec (.fltans c f) s = .next t ∧ (t.bank s.me).pc = s.here.pc + 8
           ∧ (t.bank s.me).rx f.xd.toNat = 0 ∧ (∀ fr' ∈ t.faults, fr'.tag ≠ tag) ∧ SameMem s t)
     ∧ (∀ fr, (s.rx s.me f.xb).toNat ≤ 1 → s.unanswered ctx tag = some fr →
         exec (.fltans c f) s = .next (passed s
           ((((s.issued c).release (s.agent s.me) 4).answerFault fr ((s.rx s.me f.xb).toNat == 1)).wx s.me f.xd 0) 8)))

/-- R356: a pfence that has begun returns the number of its epoch once no seal of its set is in progress, with bit 63 set
where a core of the set resumed meanwhile; at package scope the partition's count of seals rises. One that begins on a
shadowed core starts a seal of every shadowed core of the context in its instance, and waits; that every core's content is
cut when the seals begin is the model's choice (log 6). R371: efence waits until no engine command of the task is
outstanding. With x[xa] = 1, or with no pending error, it returns the number of pending errors and clears them; with x[xa] =
0 it traps for the oldest, with cause 7 for a write and 5 for a read. R374: vouch returns, once none of the tasks that had
retired in its scope when it began is provisional, the flags that have risen since the task's last vouch, and REPAIRED since
its pop too; until then it waits, and the scans it needs go ahead of the rotation. Scope 5 acts as the package, a bit rises
at a moment of its own, and the set is that of the first attempt (the model's choices, log 29). -/
def Obligations.RecoveryFences : Prop :=
  (∀ (s : State) (c : Ctl) (f : FSc),
     let ck := keyCore s.me
     let set := s.pfenceSet ck (s.ctxOf s.me) f.scope.toNat
     (∀ e torn, s.here.pf = some (e, torn) → (∀ x ∈ s.seals, x.core ∉ set) →
       ∃ t, exec (.pfence c f) s = .next t ∧ (t.bank s.me).pc = s.here.pc + 8 ∧ (t.bank s.me).pf = none
         ∧ (t.bank s.me).rx f.xd.toNat = (if f.xd = 0 then 0 else BitVec.ofNat 64 (e + if torn then 2 ^ 63 else 0))
         ∧ (∀ r, r ≠ f.xd.toNat → (t.bank s.me).rx r = s.here.rx r)
         ∧ (f.scope = 4 → SMap.get 0 t.sealCount (keyPart ck) = SMap.get 0 s.sealCount (keyPart ck) + 1)
         ∧ (f.scope ≠ 4 → t.sealCount = s.sealCount) ∧ SameMem s t ∧ SameSem s t)
     ∧ (Ready s c → s.here.pf = none → 1 ≤ f.scope.toNat → f.scope.toNat ≤ 4 → (s.core ck).shadowed = true →
         (∀ x ∈ s.seals, x.core ∉ set) →
         ∃ t, exec (.pfence c f) s = .next t ∧ (t.bank s.me).pc = s.here.pc
           ∧ (t.bank s.me).wait = some (.sealed set)
           ∧ t.seals.map (·.core) = s.seals.map (·.core) ++ set ∧ SameMem s t ∧ SameSem s t)
     ∧ (Ready s c → s.here.pf = none → f.scope.toNat = 0 ∨ 4 < f.scope.toNat ∨ (s.core ck).shadowed = false →
         StopsWith (.pfence c f) s (.bad 24 0x18 61)))
  ∧
  (∀ (s : State) (c : Ctl) (f : FSc) (u : Nat) (tk : Task), Ready s c → s.here.uid = some u → s.task u = some tk →
     let v := (s.rx s.me f.xa).toNat
     let quiet := condHolds s (.idle u) = true
     (f.scope ≠ 0 → StopsWith (.efence c f) s (.bad 24 0x18 61))
     ∧ (f.scope = 0 → 1 < v → StopsWith (.efence c f) s (.bad 24 0x19 51))
     ∧ (f.scope = 0 → v ≤ 1 → ¬quiet → StopsWith (.efence c f) s (.wait (.idle u)))
     ∧ (f.scope = 0 → v ≤ 1 → quiet → (v = 1 ∨ tk.errs = []) →
         ∃ t, exec (.efence c f) s = .next t ∧ Writes s t 8 f.xd (BitVec.ofNat 64 tk.errs.length)
           ∧ t.task u = some { tk with errs := [] } ∧ SameMem s t ∧ SameSem s t)
     ∧ (∀ a w es, f.scope = 0 → v = 0 → quiet → tk.errs = (a, w) :: es →
         exec (.efence c f) s
           = .next (takeTrap (s.modTask u fun t => { t with errs := es }) s.me (if w then 7 else 5) a)))
  ∧
  (∀ (s : State) (c : Ctl) (f : FSc), Ready s c → f.scope.toNat ≤ 5 →
     let us := s.vouchSet s.me f.scope.toNat
     let since (i : Nat) : Nat := ((s.task (s.here.uid.getD 0)).map fun t => if i = 0 then t.lastVouch else t.vouchedAt).getD 0
     let settled := ∀ u ∈ us, ∀ r, s.task u = some r → r.provisional = false
     (settled →
       ∃ t v, exec (.vouch c f) s = .next t ∧ Writes s t 8 f.xd v ∧ SameMem s t ∧ SameSem s t
         ∧ (∀ i, i < 3 → (v.getLsbD i = true ↔ ∃ e ∈ s.tasks, e.1 ∈ us ∧ since i ≤ SMap.get 0 e.2.vouchAt i ∧ e.2.vouch.getLsbD i = true))
         ∧ (∀ i, 3 ≤ i → v.getLsbD i = false))
     ∧ (¬settled →
       ∃ t, exec (.vouch c f) s = .next t ∧ (t.bank s.me).pc = s.here.pc
         ∧ (∀ e ∈ s.tasks, e.1 ∈ us → e.2.provisional = true → ∀ p ∈ e.2.phys, p ∈ t.modl.scanAhead)
         ∧ (t.bank s.me).wait = some (.settled us) ∧ SameMem s t ∧ SameSem s t))

/-! ### The vector engine (R32, R49 to R52, R105 to R143) -/

/-- R49, R50, R112, R51, R52: a 9-bit register field. Codes 0 to 63 name static registers; 64 to 319 rotating ones through
VRB, beyond the grant reason 0x14; 320 to 351 streams, which accumulating and VT fields refuse with reason 0x12, and which
must be bound (0x13), of the right direction (0x12) and of an accepted format (0x15); codes above 351 raise 0x11. An
instruction takes the next entry of a stream it names, and one at the end of the pattern raises CAUSE_STREAM_END. Predicates
16 to 63 are renamed through PRB. -/
def Obligations.VectorOperandFields : Prop :=
  ∀ (b : Bank) (code : BitVec 9) (use : Use) (fmts : List Nat) (field : Nat) (st : Stream),
    let k := code.toNat
    let f := vField b code use fmts none field
    (k < 64 → f = .ok (.stat k))
    ∧ (64 ≤ k → k < 320 → k < 64 + b.grant → f = .ok (.rot ((k - 64 + b.vrb.toNat) % b.grant)))
    ∧ (64 ≤ k → k < 320 → 64 + b.grant ≤ k → f = .error (.bad 24 0x14 field))
    ∧ (352 ≤ k → f = .error (.bad 24 0x11 field))
    ∧ (320 ≤ k → k < 352 → use = .acc ∨ use = .reg → f = .error (.bad 24 0x12 field))
    ∧ (320 ≤ k → k < 352 → use = .read ∨ use = .write →
        let out := use = .write
        (b.stream (k - 320) = none → f = .error (.bad 24 0x13 field))
        ∧ (b.stream (k - 320) = some st → (st.dir = 1 ↔ ¬out) → f = .error (.bad 24 0x12 field))
        ∧ (b.stream (k - 320) = some st → (st.dir = 1 ↔ out) → st.fmt.toNat ∉ fmts → f = .error (.bad 24 0x15 field))
        ∧ (b.stream (k - 320) = some st → (st.dir = 1 ↔ out) → st.fmt.toNat ∈ fmts → f = .ok (.stream (k - 320) 0)))
    ∧ (∀ n, b.stream n = some st → st.stop = 0 →
        (st.issue < st.total →
          takeLoc b (.stream n 0) = .ok (.stream n st.issue, b.setStream n { st with issue := st.issue + 1 }))
        ∧ (st.total ≤ st.issue → takeLoc b (.stream n 0) = .error (.trap 32 0)))
    ∧ (∀ q : BitVec 6, pgField b q = if q = 0 then none
        else some (if q.toNat < 16 then q.toNat else 16 + (q.toNat - 16 + b.prb.toNat) % 48))

/-- R62, R57, R32, R111: a word of format VVV with legal operands of a type its instruction accepts enters the vector queue.
R62, R57, R120 to R131, R135: the words of formats VVI, VVX, VRD and VCV with legal operands enter the vector queue; a
scalar operand is read now. R132 to R134, R136 to R138: the words of formats PVV, PPP, PXF, VMA and VG with legal operands
enter the vector queue. The scalars are read now, and x[xd] of a predicate count waits for its result. The addresses of vld
and vst are checked now, each active element in its window and aligned, once no queued command and no exposed result that
the word is to see has still to write the governing predicate. The formats that the VI of a stream may have, and the types
of vneg and vabs, are the model's choices (log 51). -/
def Obligations.VectorArithmeticAndMemoryWords : Prop :=
  (∀ (s : State) (c : Ctl) (f : FVvv) (vd va vb : VLoc) (rm : Nat), VecReady s c →
     ∀ e ∈ [(Instr.vadd, VOp.add), (.vsub, .sub), (.vmul, .mul), (.vfma, .fma), (.vfms, .fms), (.vfnma, .fnma), (.vmin, .min),
         (.vmax, .max), (.vdiv, .div), (.vamin, .amin), (.vamax, .amax), (.vsadd, .sadd), (.vssub, .ssub), (.vmulh, .mulh),
         (.vdot2, .dot2), (.vdot4, .dot4), (.vand, .and), (.vor, .or), (.vxor, .xor), (.vandn, .andn), (.vsll, .sll),
         (.vsrl, .srl), (.vsra, .sra), (.vsel, .sel), (.vperm, .perm), (.vzip, .zip), (.vunzip, .unzip), (.vtrn, .trn)],
       f.ty.toNat ≤ 6 → e.2.accepts f.ty.toNat = true →
       vField s.here f.vd e.2.dest [e.2.resultTy f.ty.toNat] none 55 = .ok vd →
       vField s.here f.va .read [f.ty.toNat] none 46 = .ok va → vField s.here f.vb .read [f.ty.toNat] none 37 = .ok vb →
       vecMode s.here e.2 f.ty.toNat vd = .ok rm →
       EntersVec (e.1 c f) s c
         { VCmd.blank e.2 with vd := vd, va := va, vb := vb, pg := pgField s.here f.pg, ty := f.ty.toNat, rm := rm })
  ∧
  (∀ (s : State) (c : Ctl) (vd va : VLoc) (rm : Nat), VecReady s c →
     (∀ f : FVvi, ∀ e ∈ [(Instr.vaddi, VOp.addi), (.vmini, .mini), (.vmaxi, .maxi), (.vandi, .andi), (.vxori, .xori),
         (.vslli, .slli), (.vsrli, .srli), (.vsrai, .srai), (.vslide, .slide), (.vrotl, .rotl), (.vbcl, .bcl)],
       f.ty.toNat ≤ 6 → e.2.accepts f.ty.toNat = true → immOk e.2 f.ty.toNat f.imm = true →
       vField s.here f.vd .write [f.ty.toNat] none 55 = .ok vd → vField s.here f.va .read [f.ty.toNat] none 46 = .ok va →
       EntersVec (e.1 c f) s c
         { VCmd.blank e.2 with vd := vd, va := va, pg := pgField s.here f.pg, ty := f.ty.toNat, imm := f.imm.toInt })
     ∧ (∀ f : FVvx, ∀ e ∈ [(Instr.vaddx, VOp.addx), (.vsubx, .subx), (.vmulx, .mulx), (.vfmax, .fmax), (.vminx, .minx),
         (.vmaxx, .maxx), (.vscalex, .scalex)],
       f.ty.toNat ≤ 6 → e.2.accepts f.ty.toNat = true → vField s.here f.vd e.2.dest [f.ty.toNat] none 55 = .ok vd →
       vField s.here f.va .read [f.ty.toNat] none 46 = .ok va → vecMode s.here e.2 f.ty.toNat vd = .ok rm →
       EntersVec (e.1 c f) s c { VCmd.blank e.2 with
         vd := vd, va := va, pg := pgField s.here f.pg, ty := f.ty.toNat, rm := rm, sx := s.rx s.me f.xs })
     ∧ (∀ f : FVvx, f.ty.toNat ≤ 6 → vField s.here f.vd .write [f.ty.toNat] none 55 = .ok vd →
       EntersVec (.vbcast c f) s c { VCmd.blank .bcast with
         vd := vd, pg := pgField s.here f.pg, ty := f.ty.toNat, sx := s.rx s.me f.xs })
     ∧ (∀ f : FVrd, ∀ e ∈ [(Instr.vfn, VOp.fn), (.vneg, .neg), (.vabs, .abs), (.vclass, .cls), (.vbits, .bits), (.vrsum, .rsum),
         (.vrmax, .rmax), (.vrmin, .rmin), (.vramax, .ramax), (.vscan, .scan), (.vmov, .mov), (.vrev, .rev)],
       f.ty.toNat ≤ 6 → e.2.accepts f.ty.toNat = true → fnOk e.2 f.fn.toNat = true →
       vField s.here f.vd .write [e.2.resultTy f.ty.toNat] none 55 = .ok vd →
       vField s.here f.va .read [f.ty.toNat] none 46 = .ok va → vecMode s.here e.2 f.ty.toNat vd = .ok rm →
       EntersVec (e.1 c f) s c { VCmd.blank e.2 with
         vd := vd, va := va, pg := pgField s.here f.pg, ty := f.ty.toNat, rm := rm, fn := f.fn.toNat })
     ∧ (∀ f : FVcv, cvtPair f.ets.toNat f.etd.toNat = true →
       (f.pg = 0 ∨ (isMxEt f.ets.toNat = false ∧ isMxEt f.etd.toNat = false)) →
       vField s.here f.vd .write [f.etd.toNat] (mxBlocks f.etd.toNat f.ets.toNat) 55 = .ok vd →
       vField s.here f.va .read [f.ets.toNat] (mxBlocks f.ets.toNat f.etd.toNat) 46 = .ok va →
       fieldMode s.here f.rm.toNat vd.isStream 29 = .ok rm →
       EntersVec (.vcvt c f) s c { VCmd.blank .cvt with
         vd := vd, va := va, pg := pgField s.here f.pg, ty := f.ets.toNat, etd := f.etd.toNat, rm := rm, sat := f.sat == 1 })
     ∧ (∀ f : FVcv, f.ets = f.etd → f.ets.toNat ≤ 2 → f.sat = 0 →
       vField s.here f.vd .write [f.etd.toNat] none 55 = .ok vd → vField s.here f.va .read [f.ets.toNat] none 46 = .ok va →
       fieldMode s.here f.rm.toNat vd.isStream 29 = .ok rm →
       EntersVec (.vrint c f) s c { VCmd.blank .rint with
         vd := vd, va := va, pg := pgField s.here f.pg, ty := f.ets.toNat, etd := f.etd.toNat, rm := rm }))
  ∧
  (∀ (s : State) (c : Ctl), VecReady s c →
     let pd (b : BitVec 6) : Nat := if b.toNat < 16 then b.toNat else 16 + (b.toNat - 16 + s.here.prb.toNat) % 48
     (∀ (f : FPvv) va vb, f.ty.toNat ≤ 6 → (f.ty.toNat ≤ 4 ∨ f.cc.toNat ≤ 5) →
       vField s.here f.va .read [f.ty.toNat] none 49 = .ok va → vField s.here f.vb .read [f.ty.toNat] none 40 = .ok vb →
       EntersVec (.vcmp c f) s c { VCmd.blank .cmp with
         va := va, vb := vb, pg := pgField s.here f.pg, pd := pd f.pd, ty := f.ty.toNat, fn := f.cc.toNat })
     ∧ (∀ f : FPpp, EntersVec (.plog c f) s c { VCmd.blank .plog with
         pd := pd f.pd, pa := pd f.pa, pb := pd f.pb, pc := pd f.pc, fn := f.tt.toNat })
     ∧ (∀ f : FPxf, ∀ e ∈ [(Instr.pcnt, VOp.pcnt, true), (.pfirst, .pfirst, true), (.ptox, .ptox, true), (.pfromx, .pfromx, false),
           (.pwhile, .pwhile, false)],
       f.ty.toNat ≤ 6 → pxfFn e.2.1 f.ty.toNat f.fn.toNat = true →
       EntersVec (e.1 c f) s c { VCmd.blank e.2.1 with
         pd := pd f.pd, ty := f.ty.toNat, fn := f.fn.toNat, sx := s.rx s.me f.xa, sy := s.rx s.me f.xd,
         xd := if e.2.2 then f.xd else 0 })
     ∧ (∀ (f : FVma) vt, ∀ e ∈ [(Instr.vld, VOp.ld, 4), (.vst, .st, 6)],
       f.et.toNat ≤ 6 → vField s.here f.vt .reg [] none 55 = .ok vt →
       let a := s.rx s.me f.xb + f.off.signExtend 64 * 256
       ∀ read : Option PReg,
       (pgField s.here f.pg).map (predFor (s.core (keyCore s.me)) s.here (s.agent s.me).uid c) = read.map some →
       checkRun s (s.agent s.me) read (etWidth f.et.toNat) e.2.2 a (List.range (lanes (etWidth f.et.toNat))) = .ok () →
       EntersVec (e.1 c f) s c { VCmd.blank e.2.1 with
         vd := vt, pg := pgField s.here f.pg, ty := f.et.toNat, sx := a, range := runRange s (s.agent s.me) a })
     ∧ (∀ p uid, s.here.exposed = [] →
         predFor (s.core (keyCore s.me)) s.here uid c p
           = if predPending (s.core (keyCore s.me)) uid p = true then none else some (s.here.readP p))
     ∧ (∀ (f : FVg) vt vi, ∀ e ∈ [(Instr.vgath, VOp.gath), (.vscat, .scat), (.vscadd, .scadd)],
       f.et.toNat ≤ 6 → e.2.accepts f.et.toNat = true → vField s.here f.vt .reg [] none 55 = .ok vt →
       vField s.here f.vi .read (indexFmts f.et.toNat) none 41 = .ok vi →
       EntersVec (e.1 c f) s c { VCmd.blank e.2 with
         vd := vt, vb := vi, pg := pgField s.here f.pg, ty := f.et.toNat, sx := s.rx s.me f.xb, fn := f.sh.toNat,
         range := some none }))

/-- R140, R141, R143, R114: the words of the vector queue that the control core or the replay controller performs. rqrel and
rqstat act in their turn, after the earlier vector commands of the task that can issue (log 43), and once their gap has
passed (R48); until then they stall. rqrel returns the number of entries it releases, rqstat the count, an entry's address
or its descriptor; both refuse other codes with reason 0x19. vresume with no mark has no effect of its own; with a mark that
fits the oldest command and lies within its elements it names that command (log 14), and one that does not fit raises reason
0x19. loopb counts lc down, renames and jumps while it is above 1, and falls through otherwise. -/
def Obligations.VectorControlWords : Prop :=
  ∀ (s : State) (c : Ctl) (f : FPxf) (g : FBr), VecReady s c →
    let b := s.here
    let ck := keyCore s.me
    let uid := b.uid.getD 0
    let a := (s.rx s.me f.xa).toNat
    let turn := replayTurn s s.me uid = true ∧ mayIssue s s.me uid .vec c = true
    let writes (i : Instr) (v : Word) (t : State) : Prop := exec i s = .next t ∧ (t.bank s.me).pc = b.pc + 8
      ∧ (t.bank s.me).rx f.xd.toNat = (if f.xd = 0 then 0 else v)
    let n := if f.fn = 0 then b.replay.length else min a b.replay.length
    (f.fn.toNat ≤ 1 → turn → ∃ t, writes (.rqrel c f) (BitVec.ofNat 64 n) t)
    ∧ (f.fn.toNat ≤ 1 → ¬turn → StopsWith (.rqrel c f) s .stall)
    ∧ (1 < f.fn.toNat → StopsWith (.rqrel c f) s (.bad 24 0x19 41))
    ∧ (f.fn.toNat ≤ 2 → turn →
        ∃ t, writes (.rqstat c f) (if f.fn = 0 then BitVec.ofNat 64 b.replay.length
            else if f.fn = 1 then (b.replay[a]?.map (·.va)).getD 0 else (b.replay[a]?.map Replay.word).getD 0) t
          ∧ (∀ r, r ≠ f.xd.toNat → (t.bank s.me).rx r = b.rx r) ∧ (t.bank s.me).replay = b.replay
          ∧ (t.bank s.me).tlNext 4 = b.tlNext 4 + 1 ∧ SameMem s t ∧ Local s t)
    ∧ (f.fn.toNat ≤ 2 → ¬turn → StopsWith (.rqstat c f) s .stall)
    ∧ (2 < f.fn.toNat → StopsWith (.rqstat c f) s (.bad 24 0x19 41))
    ∧ (b.vupc = 0 → (s.core ck).vq.length < 512 →
        ∃ t m, exec (.vresume c) s = .next t ∧ Queued s t ∧ (t.core ck).vq = (s.core ck).vq ++ [m]
          ∧ m.op = .resume ∧ m.pa = 0 ∧ m.tl = b.tlNext 4)
    ∧ (∀ v, b.vupc ≠ 0 → (s.core ck).vq.find? (fun v => v.uid == uid) = some v →
        let count := if v.op.isMem = true then 2048 / etWidth v.ty
          else if v.op ≠ .cvt then 2048 / v.op.width v.ty
          else if isMxEt v.etd = true then 2048 / etWidth v.ty
          else if isMxEt v.ty = true then 2048 / etWidth v.etd
          else 2048 / max (etWidth v.ty) (etWidth v.etd)
        (v.opc = b.vupc.toNat → b.vl0.toNat ≤ count → (s.core ck).vq.length < 512 →
          ∃ t m, exec (.vresume c) s = .next t ∧ Queued s t ∧ (t.core ck).vq = (s.core ck).vq ++ [m]
            ∧ m.op = .resume ∧ m.pa = v.tl ∧ m.sx = b.vl0.setWidth 64)
        ∧ (v.opc ≠ b.vupc.toNat ∨ count < b.vl0.toNat → StopsWith (.vresume c) s (.bad 24 0x19 0)))
    ∧ (b.vupc ≠ 0 → (s.core ck).vq.find? (fun v => v.uid == uid) = none → StopsWith (.vresume c) s (.bad 24 0x19 0))
    ∧ (crewOf b .vec = none ∨ maskBusy (s.core ck) uid 2 = false → mayIssue s s.me uid .vec c = true →
        let goes (pc : Word) (lc : BitVec 32) (vrb : BitVec 8) (prb : BitVec 6) : Prop :=
          ∃ t, exec (.loopb c g) s = .next t ∧ (t.bank s.me).pc = pc ∧ (t.bank s.me).lc = lc ∧ (t.bank s.me).vrb = vrb
            ∧ (t.bank s.me).prb = prb ∧ (t.bank s.me).x = b.x ∧ (t.bank s.me).v = b.v ∧ (t.bank s.me).p = b.p
            ∧ (t.bank s.me).rot = b.rot ∧ SameMem s t ∧ Local s t
        let next := b.pc + 8
        let target := b.pc + g.off.signExtend 64 * 4
        (next.toNat % 4 = 0 → b.lc = 0 → goes next 0 b.vrb b.prb)
        ∧ (next.toNat % 4 = 0 → b.lc = 1 → goes next 0 b.vrb b.prb)
        ∧ (target.toNat % 4 = 0 → 2 ≤ b.lc.toNat →
            goes target (b.lc - 1)
              (BitVec.ofNat 8 (if b.grant = 0 then 0 else (b.vrb.toNat + b.grant - 1) % b.grant))
              (BitVec.ofNat 6 ((b.prb.toNat + 47) % 48))))

/-- R106, R117: the integer instructions, lane by lane. An active lane takes the result, exact or wrapped to its width as
the rule says; an inactive lane keeps its bits in a register and is zero in a stream entry. R132 to R134: predicates, bit by
bit. plog looks each bit up in its table; vcmp sets every bit of the byte lanes of an active element whose compare is true
and clears every other; pwhile and pfromx do so for the elements below their limit; pcnt counts the active elements. R91,
R117, R121, R122: the floating instructions of FP32, BF16 and FP16, lane by lane. An active lane takes the exact result
rounded to its type by the mode given; min and max pick by value; neg and abs act on the sign bit, and a NaN becomes the
canonical one. The sum, product and quotient before rounding are exact, a NaN operand gives NaN, and so do infinities of
both signs and zero times infinity. R119, R126 to R131, R135: permutes, conversions, dot products, reductions and scans,
element by element: a permute's element is the one of its sources that the rule names; a conversion between integers wraps,
clamps or extends, one of a type to itself keeps the bits, with the canonical NaN, and any other rounds the element's value;
an integer dot product, sum and scan are exact modulo 2^32; the integer maximum and minimum are those of the active
elements. R136, R138, R139, R142: one element access of a vld, vst, vgath, vscat or vscadd whose access passes the checks of
R193: its address, the bytes a load puts into its element and no other, the bytes a store leaves, the updated sum a
scatter-add leaves once; and an engine's pass over the elements in ascending order, which leaves out inactive ones and
performs each active one that no parked entry stands in the way of. One that faults in translation parks in the replay queue
while that has fewer than 64 entries. -/
def Obligations.VectorLanesAndPredicates : Prop :=
  (∀ (ty i rm fn : Nat) (imm : Int) (sx : Word) (x : VIn), ty = 5 ∨ ty = 6 →
     let w := etWidth ty
     i < lanes w →
     let a := elem w i x.a
     let b := elem w i x.b
     let lane (op : VOp) : Nat := elem w i (computeV op ty 0 rm false imm fn sx x).v
     let clamp (v : Int) : Int := max (-2 ^ (w - 1)) (min (2 ^ (w - 1) - 1) v)
     (active x.p w i = false →
       ∀ op ∈ [VOp.add, .sub, .mul, .min, .max, .sadd, .ssub, .and, .or, .xor, .andn, .sll, .srl, .sra],
         lane op = if x.stream = true then 0 else elem w i x.d)
     ∧ (active x.p w i = true →
         lane .add = (a + b) % 2 ^ w ∧ lane .sub = (2 ^ w + a - b) % 2 ^ w ∧ lane .mul = a * b % 2 ^ w
         ∧ toSigned w (lane .min) = min (toSigned w a) (toSigned w b)
         ∧ toSigned w (lane .max) = max (toSigned w a) (toSigned w b)
         ∧ toSigned w (lane .sadd) = clamp (toSigned w a + toSigned w b)
         ∧ toSigned w (lane .ssub) = clamp (toSigned w a - toSigned w b)
         ∧ lane .and = a &&& b ∧ lane .or = a ||| b ∧ lane .xor = a ^^^ b
         ∧ lane .sll = a * 2 ^ (b % w) % 2 ^ w ∧ lane .srl = a / 2 ^ (b % w)
         ∧ toSigned w (lane .sra) = toSigned w a / 2 ^ (b % w)))
  ∧
  (∀ (ty j fn : Nat) (sx sy : Word) (x : VIn), ty ≤ 6 → j < 256 →
     let w := etWidth ty
     let i := 8 * j / w
     let bit (op : VOp) : Option Bool := (computeP op ty fn sx sy x).map fun q => q.getLsbD j
     bit .plog = some (Nat.testBit fn ((if x.pa.getLsbD j then 4 else 0) + (if x.pb.getLsbD j then 2 else 0)
       + (if x.pc.getLsbD j then 1 else 0)))
     ∧ bit .cmp = some (active x.p w i && compareElem fn ty (elem w i x.a) (elem w i x.b))
     ∧ bit .pwhile = some (decide (sx.toNat + i < sy.toNat))
     ∧ (fn = 0 → bit .pfromx = some (decide (i < sx.toNat)))
     ∧ computeX .pcnt ty fn x
         = some (BitVec.ofNat 64 ((List.range (2048 / w)).filter fun k => x.pd.getLsbD (w * k / 8)).length))
  ∧
  ((∀ (ty i rm fn : Nat) (imm : Int) (sx : Word) (x : VIn) (f : Fmt), ty ≤ 2 → fmtOf ty = some f →
     let w := etWidth ty
     i < lanes w → active x.p w i = true →
     let p := decodeNum f (elem w i x.a)
     let q := decodeNum f (elem w i x.b)
     let r := decodeNum f (elem w i x.d)
     let k := decodeNum f (sx.toNat % 2 ^ w)
     let down := decide (rm = 2)
     let lane (op : VOp) : Nat := elem w i (computeV op ty 0 rm false imm fn sx x).v
     let rounds (n : Machine.Num) : Nat := (roundTo f n rm false (x.us.getD i 0)).1 % 2 ^ w
     let picks (n : Machine.Num) : Nat := (roundTo f n 0 false 0).1 % 2 ^ w
     lane .add = rounds (Machine.Num.add down p q).1 ∧ lane .sub = rounds (Machine.Num.add down p q.neg).1 ∧ lane .mul = rounds (Machine.Num.mul p q).1
     ∧ lane .fma = rounds (Machine.Num.fma down p q r).1 ∧ lane .fms = rounds (Machine.Num.fma down p q r.neg).1
     ∧ lane .fnma = rounds (Machine.Num.fma down p.neg q r).1 ∧ lane .div = rounds (Machine.Num.div p q).1
     ∧ lane .addx = rounds (Machine.Num.add down p k).1 ∧ lane .subx = rounds (Machine.Num.add down p k.neg).1 ∧ lane .mulx = rounds (Machine.Num.mul p k).1
     ∧ lane .fmax = rounds (Machine.Num.fma down p k r).1
     ∧ lane .min = picks (Machine.Num.min p q) ∧ lane .max = picks (Machine.Num.max p q)
     ∧ (p = .nan → lane .neg = f.cnan % 2 ^ w ∧ lane .abs = f.cnan % 2 ^ w)
     ∧ (p ≠ .nan → lane .neg = (elem w i x.a ^^^ 2 ^ (f.e + f.m)) % 2 ^ w ∧ lane .abs = elem w i x.a % 2 ^ (f.e + f.m) % 2 ^ w))
   ∧ (∀ (down s t : Bool) (m d n e : Nat), 0 < d → 0 < e →
       let signed (s : Bool) (n : Nat) : Int := if s then -(n : Int) else n
       (∃ u k c, Machine.Num.add down (.fin s m d) (.fin t n e) = (.fin u k c, 0) ∧ 0 < c
         ∧ signed u k * (d * e : Nat) = (signed s m * e + signed t n * d) * c)
       ∧ (∃ u k c, Machine.Num.mul (.fin s m d) (.fin t n e) = (.fin u k c, 0) ∧ 0 < c
         ∧ signed u k * (d * e : Nat) = signed s m * signed t n * c)
       ∧ (n ≠ 0 → ∃ u k c, Machine.Num.div (.fin s m d) (.fin t n e) = (.fin u k c, 0) ∧ 0 < c
         ∧ signed u k * (signed t n * d) = signed s m * e * c)
       ∧ (Machine.Num.add down (.inf s) (.inf !s)).1 = .nan ∧ (Machine.Num.mul (.inf s) (.fin t 0 e)).1 = .nan
       ∧ ∀ v, (Machine.Num.add down .nan v).1 = .nan ∧ (Machine.Num.add down v .nan).1 = .nan ∧ (Machine.Num.mul .nan v).1 = .nan ∧ (Machine.Num.mul v .nan).1 = .nan))
  ∧
  (∀ (ty i rm fn : Nat) (imm : Int) (sx : Word) (x : VIn), ty ≤ 6 →
     let w := etWidth ty
     let n := lanes w
     let a (j : Nat) : Nat := elem w j x.a
     let b (j : Nat) : Nat := elem w j x.b
     let lane (op : VOp) : Nat := elem w i (computeV op ty 0 rm false imm fn sx x).v
     let on := (List.range n).filter fun j => active x.p w j
     let whole (op : VOp) : Nat := (computeV op ty 0 rm false imm fn sx x).v.toNat
     (i < n → lane .sel = if active x.p w i then a i else b i)
     ∧ (i < n → active x.p w i = true →
         lane .perm = a (b i % n) ∧ lane .rev = a (n - 1 - i)
         ∧ lane .zip = (if i % 2 = 0 then a (i / 2) else b (i / 2))
         ∧ lane .unzip = (if 2 * i < n then a (2 * i) else b (2 * i - n))
         ∧ lane .trn = (if i % 2 = 0 then a i else b (i - 1))
         ∧ lane .slide = (if 0 ≤ (i : Int) + imm ∧ (i : Int) + imm < n then a ((i : Int) + imm).toNat else 0)
         ∧ lane .rotl = a (((i : Int) + imm) % n).toNat ∧ (0 ≤ imm → imm < n → lane .bcl = a imm.toNat))
     ∧ (∀ ets etd sat, ets ≤ 6 → etd ≤ 6 →
         let wide := max (etWidth ets) (etWidth etd)
         let res := elem (etWidth etd) i (computeV .cvt ets etd rm sat imm fn sx x).v
         let v := elem (etWidth ets) i x.a
         i < lanes wide → active x.p wide i = true →
           (ets = 5 → etd = 6 → sat = false → res = v % 2 ^ 8)
           ∧ (ets = 5 → etd = 6 → sat = true → toSigned 8 res = max (-128) (min 127 (toSigned 32 v)))
           ∧ (ets = 6 → etd = 5 → toSigned 32 res = toSigned 8 v)
           ∧ (ets = etd → ∀ f, fmtOf ets = some f → res = (if decodeNum f v = .nan then f.cnan else v) % 2 ^ etWidth etd)
           ∧ (ets ≠ etd → ets ≤ 4 ∨ etd ≤ 4 → res = (toElem etd (elemNum ets v) rm sat (x.us.getD i 0)).1 % 2 ^ etWidth etd))
     ∧ (ty = 6 → i < 64 → active x.p 32 i = true →
         toSigned 32 (elem 32 i (computeV .dot4 ty 0 rm false imm fn sx x).v)
           = toSigned 32 (wrapN 32 (((range2 (4 * i) 4).map fun j => toSigned 8 (a j) * toSigned 8 (b j)).foldl (· + ·)
               (toSigned 32 (elem 32 i x.d)))))
     ∧ (ty = 5 ∨ ty = 6 →
         whole .rsum = wrapN 32 ((on.map fun j => toSigned w (a j)).foldl (· + ·) 0)
         ∧ toSigned 32 (whole .rmax) = (on.map fun j => toSigned w (a j)).foldl max (-2 ^ 31)
         ∧ toSigned 32 (whole .rmin) = (on.map fun j => toSigned w (a j)).foldl min (2 ^ 31 - 1)
         ∧ whole .ramax = ((on.map fun j => (toSigned w (a j)).natAbs).foldl max 0))
     ∧ (ty = 5 → i < 64 →
         lane .scan = ((((List.range (i + 1)).filter fun j => active x.p w j).map a).foldl (· + ·) 0) % 2 ^ 32))
  ∧
  (∀ (s : State) (ag : Agent) (m : VCmd) (vt vi : VReg) (p : Option PReg) (i : Nat) (is : List Nat),
     let w := etWidth m.ty
     let va := m.elemAddr vi i
     let n := w / 8
     let b := (s.home m.bank m.uid).getD Bank.reset
     let kind : Access := match m.op with
       | .ld | .gath => .read
       | .scadd => .atomic
       | _ => .write
     m.op.isMem = true → m.ty ≤ 6 → i < lanes w → (s.bank m.bank).uid = some m.uid → keyCore m.bank = ag.key →
     (m.op = .ld ∨ m.op = .st → va = m.sx + BitVec.ofNat 64 (i * n))
     ∧ (m.op = .gath ∨ m.op = .scat ∨ m.op = .scadd → va = m.sx + BitVec.ofNat 64 (elem w i vi * 2 ^ m.fn))
     ∧ (∀ q s1, access s ag kind false 30 va n = .ok (q, s1) →
         let old := leVal (Memory.readList s.mem q.loc n)
         let leaves (t : State) (v : Nat) : Prop :=
           (∀ j, j < n → Memory.read t.mem (q.loc + j) = BitVec.ofNat 8 (v / 256 ^ j)) ∧ SameMemBut s t q.loc n
         (m.op = .ld ∨ m.op = .gath → ∀ k, m.vd = .stat k → ∃ t, elemAccess s ag m vt vi i = .ok t ∧ SameMem s t
           ∧ elem w i ((t.bank m.bank).readV m.vd) = old
           ∧ ∀ j, j ≠ i → j < lanes w → elem w j ((t.bank m.bank).readV m.vd) = elem w j (b.readV m.vd))
         ∧ (m.op = .st ∨ m.op = .scat → ∃ t, elemAccess s ag m vt vi i = .ok t ∧ leaves t (elem w i vt))
         ∧ (m.op = .scadd → s.tagged m i = false → ∃ t, elemAccess s ag m vt vi i = .ok t
             ∧ leaves t (match fmtOf m.ty with
                 | some f => (roundTo f (Machine.Num.add false (decodeNum f old) (decodeNum f (elem w i vt))).1 0 false 0).1
                 | none => (old + elem w i vt) % 2 ^ 32))
         ∧ (m.op = .scadd → s.tagged m i = true → ∃ t, elemAccess s ag m vt vi i = .ok t ∧ SameMem s t))
     ∧ (active p w i = false → runElems ag m vt vi p (i :: is) none s = runElems ag m vt vi p is none s)
     ∧ (active p w i = true → b.replay = [] →
         (∀ t, elemAccess s ag m vt vi i = .ok t → runElems ag m vt vi p (i :: is) none s = runElems ag m vt vi p is none t)
         ∧ (∀ f, elemAccess s ag m vt vi i = .error (.page f) →
             ∃ t x, runElems ag m vt vi p (i :: is) none s = x
               ∧ ((t.bank m.bank).replay.map fun r => (r.kind, r.first, r.va, r.cause, r.tl)) = [(m.op.replayKind, i, va, f.cause, m.tl)]
               ∧ x = (if m.op = .scadd then (t, .held (i + 1) false) else runElems ag m vt vi p is (some f.page) t))))

/-- R109, R110, R107, R142, R31: the vector engine. The oldest command of a bank issues with the operands it reads then; at
completion its destination, flags and number change together and it leaves the queue; an engine reset of a running module
that is not the third within 1 ms (R366) leaves every command that is no memory instruction to be redone with the same
operands. -/
def Obligations.VectorEngineSteps : Prop :=
  ∀ (s : State) (core bank : Nat) (m : VCmd) (u : Nat), s.works core = true → bank ≤ 1 →
    let bk := bankKey core bank
    let b := s.bank bk
    (s.core core).vq = [m] → m.bank = bk → m.uid = u → b.uid = some u → b.st ≠ .restoring → m.op.isMem = false → m.op ≠ .resume →
    (m.issued = false → m.stop = none → b.crew = none → b.exposed = [] → gapPassed s bk .vec m.ctl = true →
      (m.ctl.v = 0 → rangeOk (s.core core) bk u m.seq m.range = true) →
      m.va.arrived b = true → m.vb.arrived b = true →
      ∀ i ∈ [Instr.vectorIssue core, .engineIssue core .vec],
        ∃ t, exec i s = .next t ∧ (t.core core).vq = [{ m with issued := true, res := some (m.result b) }]
          ∧ SameMem s t ∧ t.rest = s.rest ∧ t.banks = s.banks)
    ∧ (∀ r, m.issued = true → m.stop = none → m.res = some r → resultFits b m = true →
      ∃ t, exec (.vectorCompletion core bank) s = .next t ∧ (t.core core).vq = []
        ∧ (∀ n v, m.vd = .stat n → r.vd = some v → (t.bank bk).readV (.stat n) = v)
        ∧ (∀ n, m.vd ≠ .stat n → (t.bank bk).readV (.stat n) = b.readV (.stat n))
        ∧ (∀ p, r.pd = some p → (t.bank bk).readP m.pd = p)
        ∧ (∀ p, p ≠ m.pd ∨ r.pd = none → (t.bank bk).readP p = b.readP p)
        ∧ (∀ n, n ≠ m.xd.toNat ∨ r.xd = none → (t.bank bk).rx n = b.rx n)
        ∧ (t.bank bk).nrm = b.nrm ||| (r.flags &&& 0xF8#8).setWidth 64
        ∧ (b.timeline 4 = ⟨m.tl - 1, (b.timeline 4).last, []⟩ → 0 < m.tl → ((t.bank bk).timeline 4).val = m.tl)
        ∧ (t.bank bk).pc = b.pc ∧ SameMem s t ∧ t.rest = s.rest)
    ∧ (s.running = true → (∀ r ∈ s.modl.resets, r.1 = core → r.2.1 = 1 → r.2.2 + 1000000 < s.cycle) → (∀ j, j / 2 = core → (s.bank j).crew = none) →
        ∃ t, exec (.vectorEngineReset core) s = .next t ∧ (t.core core).vq = [m] ∧ SameMem s t ∧ (∀ j, t.bank j = s.bank j)
          ∧ t.tasks = s.tasks ∧ t.ctxs = s.ctxs ∧ t.sem = s.sem)

/-! ### The matrix engine (R145 to R178) -/

/-- R62, R148, R153 to R155, R159, R162: a word of format MT with legal tile, slots and geometry, whose slots the bank has
claimed and, in deterministic operation, whose course does not fall within the tile's round, enters the tile queue; a tile
above 11 or a slot above 47 raises reason 0x17, a bad geometry 0x19. -/
def Obligations.MultiplyWords : Prop :=
  ∀ (s : State) (c : Ctl) (f : FMt), MatReady s c →
    ∀ e ∈ [(Instr.mmaE4m3, 0x0C0), (.mmaE5m2, 0x0C1), (.mmaInt8, 0x0C2), (.mmaBf16, 0x0C3), (.mmaFp16, 0x0C4),
        (.mmaMxfp8, 0x0C5), (.mmaMxfp6, 0x0C6), (.mmaMxfp4, 0x0C7), (.mmaMxint8, 0x0C8), (.mmaTern, 0x0C9)],
      let m := MCmd.blank e.2 (encMt f) (s.rx s.me f.xg)
      let det := ((s.myLaunch s.me).map (·.det)).getD false
      (f.acc.toNat < 12 → f.ma.toNat < 48 → f.mb.toNat < 48 → geoOk m = true →
        (∀ n ∈ m.mmaSlots, s.here.claim.getLsbD n = true) →
        (det = true → m.empty = false →
          roundCourse (s.core (keyCore s.me)) (s.here.uid.getD 0) m.acc ≤ m.course) →
        EntersMat (e.1 c f) s c m s.here.claim)
      ∧ (12 ≤ f.acc.toNat → StopsWith (e.1 c f) s (.bad 24 0x17 60))
      ∧ (f.acc.toNat < 12 → 48 ≤ f.ma.toNat → StopsWith (e.1 c f) s (.bad 24 0x17 54))
      ∧ (f.acc.toNat < 12 → f.ma.toNat < 48 → 48 ≤ f.mb.toNat → StopsWith (e.1 c f) s (.bad 24 0x17 48))
      ∧ (f.acc.toNat < 12 → f.ma.toNat < 48 → f.mb.toNat < 48 → geoOk m = false →
          StopsWith (e.1 c f) s (.bad 24 0x19 43))

/-- R148, R150 to R152, R165 to R170, R177: the other words of the tile queue. mclaim and mrel set and clear the slot's bit
of the bank's claim mask; mload and mzero need it set; a slot above 47 and a tile above 11 raise reason 0x17. mload takes
128 entries of an input stream of its type, astore, astore.t and aload the entries of their corner. mresume enters behind
the command that it resumes, whatever command that is where MUPC has no mark, and a mark applies from the entries it stands
behind on (the model's choices, logs 16 and 46); one whose mark does not fit raises reason 0x19. -/
def Obligations.TileQueueWords : Prop :=
  ∀ (s : State) (c : Ctl) (f : FMs) (g : FAs), MatReady s c →
    let ms := f.ms.toNat
    let et := g.etd.toNat
    let x := s.rx s.me g.xg
    (ms < 48 → EntersMat (.mclaim c f) s c (MCmd.blank 0x0CA (encMs f) 0) (setBit s.here.claim ms true))
    ∧ (ms < 48 → EntersMat (.mrel c f) s c (MCmd.blank 0x0CB (encMs f) 0) (setBit s.here.claim ms false))
    ∧ (ms < 48 → s.here.claim.getLsbD ms = true →
        EntersMat (.mzero c f) s c (MCmd.blank 0x0CD (encMs f) 0) s.here.claim)
    ∧ (∀ st, ms < 48 → s.here.claim.getLsbD ms = true → s.here.stream f.sr.toNat = some st → st.dir = 0 →
        st.fmt.toNat = f.et.toNat → f.et.toNat ≠ 7 → f.et.toNat ≠ 15 →
        EntersMat (.mload c f) s c { MCmd.blank 0x0CC (encMs f) 0 with sn := f.sr.toNat, entries := 128 } s.here.claim)
    ∧ (48 ≤ ms → ∀ i ∈ [Instr.mclaim c f, .mrel c f, .mload c f, .mzero c f], StopsWith i s (.bad 24 0x17 58))
    ∧ (ms < 48 → s.here.claim.getLsbD ms = false → ∀ i ∈ [Instr.mload c f, .mzero c f], StopsWith i s (.bad 24 0x19 58))
    ∧ (g.acc.toNat < 12 → EntersMat (.aclr c g) s c (MCmd.blank 0x0D2 (encAs g) 0) s.here.claim)
    ∧ (∀ st rm, g.acc.toNat < 12 → streamField s.here g.sr.toNat true [et] (blocksPerEntry et) 55 = .ok st →
        fieldMode s.here g.rm.toNat true 43 = .ok rm → (et ≤ 6 ∨ (isMxEt et = true ∧ geoInt x = false)) →
        (asGeoOk x et (geoN x) = true →
          EntersMat (.astore c g) s c { MCmd.blank 0x0D0 (encAs g) x with
            sn := g.sr.toNat, entries := entriesOf et (geoM x * geoN x), rm := rm } s.here.claim)
        ∧ (asGeoOk x et (geoM x) = true →
          EntersMat (.astoreT c g) s c { MCmd.blank 0x0D1 (encAs g) x with
            sn := g.sr.toNat, entries := entriesOf et (geoM x * geoN x), rm := rm } s.here.claim))
    ∧ (∀ st rm, g.acc.toNat < 12 → streamField s.here g.sr.toNat false [et] (blocksPerEntry et) 55 = .ok st →
        fieldMode s.here g.rm.toNat true 43 = .ok rm → asGeoOk x et (geoN x) = true →
        (if geoInt x = true then et = 5 ∨ et = 6 else et ≤ 4 ∨ isMxEt et = true) →
        EntersMat (.aload c g) s c { MCmd.blank 0x0D3 (encAs g) x with
          sn := g.sr.toNat, entries := entriesOf et (geoM x * geoN x), rm := rm } s.here.claim)
    ∧ (12 ≤ g.acc.toNat → ∀ i ∈ [Instr.astore c g, .astoreT c g, .aclr c g, .aload c g], StopsWith i s (.bad 24 0x17 60))
    ∧ (let at1 := (s.here.row.toNat, s.here.col.toNat, s.here.depth.toNat)
       let target := (s.here.prevMat.map (·.tl)).getD 0
       let fits := ∃ m, s.here.prevMat = some m ∧ m.opc = s.here.mupc.toNat % 2 ^ 9 ∧ progressOk m at1.1 at1.2.1 at1.2.2 = true
       (s.here.mupc.getLsbD 15 = false →
          EntersMat (.mresume c) s c { MCmd.blank 0x0CE 0 0 with resume := ⟨target, none⟩ } s.here.claim)
       ∧ (s.here.mupc.getLsbD 15 = true → fits →
          EntersMat (.mresume c) s c { MCmd.blank 0x0CE 0 0 with resume := ⟨target, some at1⟩ } s.here.claim)
       ∧ (s.here.mupc.getLsbD 15 = true → ¬fits → StopsWith (.mresume c) s (.bad 24 0x19 0)))

/-- R48, R148 to R151, R160 to R164, R169: entry to the tile queue, the tile scheduler, and the commands that are done in
one step: mclaim holds its slot, cleared first where another context held it last; mzero zeroes its slot's 128 lines, aclr
its tile; a completed command leaves the queue and tl5 may pass its number, and an aload's tile takes its elements; a reset
of a running module that is not the third within 1 ms (R366) keeps the queue, the tiles and the slots. -/
def Obligations.MatrixCommandSteps : Prop :=
  ∀ (s : State) (core bank : Nat) (m : MCmd), let bk := bankKey core bank
    OneMat s core bk m →
    let b := s.bank bk
    let c := s.core core
    (m.entered = false → m.opc ≠ 0x0CE → b.crew = none → gapPassed s bk .mat m.ctl = true →
      ∃ t, exec (.engineIssue core .mat) s = .next t ∧ (t.core core).mq = [{ m with entered := true, started := false }]
        ∧ SameMem s t ∧ t.banks = s.banks)
    ∧ (m.entered = true → m.started = false → m.opc = 0x0CD →
      ∃ t, exec (.tileSchedulerStart core) s = .next t
        ∧ (t.core core).mq = [{ m with started := true, finished := true }] ∧ (∀ l, l < 128 → (t.core core).line m.ms l = 0)
        ∧ (∀ n l, n ≠ m.ms → l < 128 → (t.core core).line n l = c.line n l) ∧ (t.core core).tiles = c.tiles ∧ SameMem s t)
    ∧ (m.entered = true → m.started = false → m.opc = 0x0D2 → (∀ r, SMap.find c.rounds m.acc = some r → r.uid = m.uid) →
      ∃ t, exec (.tileSchedulerStart core) s = .next t
        ∧ (t.core core).mq = [{ m with started := true, finished := true }]
        ∧ (∀ i j, i < 128 → j < 128 → (t.core core).tileElem m.acc i j = 0)
        ∧ (∀ a i j, a ≠ m.acc → i < 128 → j < 128 → (t.core core).tileElem a i j = c.tileElem a i j)
        ∧ (t.core core).marver = c.marver ∧ SameMem s t)
    ∧ (m.opc = 0x0CA → m.started = true → m.finished = false →
      (∀ sl, SMap.find c.slots m.ms = some sl → sl.held = none) →
      ∃ t, exec (.mclaimPerformed core bank) s = .next t
        ∧ SMap.find (t.core core).slots m.ms = some ⟨some m.uid, some m.ctx⟩ ∧ (t.core core).mq = [{ m with finished := true }]
        ∧ (((SMap.find c.slots m.ms).bind (·.last)) ≠ some m.ctx → ∀ l, l < 128 → (t.core core).line m.ms l = 0)
        ∧ (((SMap.find c.slots m.ms).bind (·.last)) = some m.ctx → (t.core core).marver = c.marver)
        ∧ (t.core core).tiles = c.tiles ∧ SameMem s t)
    ∧ (m.finished = true → m.opc ≠ 0x0D3 →
      ∃ t, exec (.matrixCompletion core bank) s = .next t ∧ (t.core core).mq = []
        ∧ (t.core core).tiles = c.tiles ∧ (t.core core).marver = c.marver
        ∧ (b.timeline 5 = ⟨m.tl - 1, (b.timeline 5).last, []⟩ → 0 < m.tl → ((t.bank bk).timeline 5).val = m.tl)
        ∧ SameMem s t)
    ∧ (m.finished = true → m.opc = 0x0D3 → m.acc < 12 → (m.held.map (·.1)).Nodup →
      ∃ t, exec (.matrixCompletion core bank) s = .next t ∧ (t.core core).mq = []
        ∧ (∀ i j, i < 128 → j < 128 → (t.core core).tileElem m.acc i j = (SMap.find m.held (128 * i + j)).getD (c.tileElem m.acc i j))
        ∧ (t.core core).marver = c.marver ∧ SameMem s t)
    ∧ (s.running = true → (∀ r ∈ s.modl.resets, r.1 = core → r.2.1 = 2 → r.2.2 + 1000000 < s.cycle) → (∀ j, j / 2 = core → (s.bank j).crew = none) →
        ∃ t, exec (.matrixEngineReset core) s = .next t ∧ (t.core core).mq = [m] ∧ (t.core core).tiles = c.tiles
          ∧ (t.core core).marver = c.marver ∧ (∀ j, t.bank j = s.bank j) ∧ SameMem s t)

/-- R150, R166, R170, R156, R173: the commands that go on entry by entry or mark by mark. A line of an mload is the entry's
bits, and the entry is removed; an entry of an astore is enqueued; the elements of an entry of an aload, in row order and
converted, are held for the tile, which changes only when the command completes: INT32 exactly, INT8 sign-extended, else in
FP32 (R170; the random bits of stochastic rounding are free, log 13); an array commits the k-steps up to the next punty mark
to the tile, with DEPTH. -/
def Obligations.MatrixProgress : Prop :=
  ∀ (s : State) (core bank : Nat) (m : MCmd) (st : Stream) (v : VReg), let bk := bankKey core bank
    OneMat s core bk m → m.started = true → m.finished = false →
    let b := s.bank bk
    let c := s.core core
    let marked : BitVec 16 := BitVec.ofNat 16 (2 ^ 15 + m.opc)
    (m.opc = 0x0CC → m.row < 128 → b.stream m.sn = some st → SMap.find st.buf (m.entry + m.row) = some v →
      ∃ t, exec (.mloadLine core bank) s = .next t ∧ (t.core core).line m.ms m.row = v
        ∧ (∀ n l, l < 128 → (n ≠ m.ms ∨ l ≠ m.row) → (t.core core).line n l = c.line n l)
        ∧ ((t.bank bk).stream m.sn).bind (fun u => SMap.find u.buf (m.entry + m.row)) = none
        ∧ (t.core core).mq = [{ m with row := m.row + 1, finished := m.row + 1 == 128, mupc := marked }] ∧ SameMem s t)
    ∧ (m.opc = 0x0D0 → m.row < m.entries → b.stream m.sn = some st → st.hasRoom (m.entry + m.row) = true →
      ∃ t, exec (.astoreEntry core bank) s = .next t
        ∧ ((t.bank bk).stream m.sn).bind (fun u => SMap.find u.buf (m.entry + m.row))
            = some (storeEntry c m m.row (randomBits m.seed b m.rm (.stream m.sn (m.entry + m.row)))).1
        ∧ (t.core core).tiles = c.tiles
        ∧ (t.core core).mq = [{ m with row := m.row + 1, finished := m.row + 1 == m.entries, mupc := marked }] ∧ SameMem s t)
    ∧ (m.opc = 0x0D3 → m.row < m.entries → b.stream m.sn = some st → SMap.find st.buf (m.entry + m.row) = some v →
      let per := entryElems m.etd
      let first := per * m.row
      let cols := geoN m.geo
      let random (x : Nat) : Nat := if m.rm = 4 then (Config.aloadRandom m.seed (m.entry + m.row) x).toNat else 0
      ∃ t held, exec (.aloadEntry core bank) s = .next t
        ∧ ((t.bank bk).stream m.sn).bind (fun u => SMap.find u.buf (m.entry + m.row)) = none
        ∧ (t.core core).tiles = c.tiles
        ∧ (geoM m.geo ≤ 128 → cols ≤ 128 →
            (∀ x, x < per → first + x < geoM m.geo * cols →
              SMap.find held (128 * ((first + x) / cols) + (first + x) % cols)
                = some (BitVec.ofNat 32 (loadElem m (elem 8 (248 + x / 32) v) (elem (etWidth m.etd) x v) (random x)).1))
            ∧ ∀ i j, i < geoM m.geo → j < cols → i * cols + j < first ∨ first + per ≤ i * cols + j →
              SMap.find held (128 * i + j) = SMap.find m.held (128 * i + j))
        ∧ (t.core core).mq = [{ m with row := m.row + 1, held := held, finished := m.row + 1 == m.entries, mupc := marked }] ∧ SameMem s t)
    ∧ (∀ n a, SMap.find c.arrays n = some a → a.bank = bk → a.tl = m.tl → isMma m.opc = true → geoK m.geo ≠ 0 →
      let e := nextMark m m.depth
      ∃ t, exec (.puntyMark core n) s = .next t
        ∧ (t.core core).tiles = (c.setTile m.acc (runSteps c m a.w m.depth e).1).tiles
        ∧ (t.core core).mq = [{ m with depth := e, finished := e == geoK m.geo, mupc := marked }]
        ∧ (t.bank bk).nrm = b.nrm ||| ((runSteps c m a.w m.depth e).2 &&& 0xF8#8).setWidth 64
        ∧ (t.core core).marver = c.marver ∧ SameMem s t)
    ∧ (∀ scale x u, geoInt m.geo = true →
        (m.etd = 5 → loadElem m scale x u = (x, 0)) ∧ (m.etd = 6 → toSigned 32 (loadElem m scale x u).1 = toSigned 8 x))
    ∧ (∀ scale x u, geoInt m.geo = false → m.etd ≤ 4 → loadElem m scale x u = convElem m.etd 0 x m.rm m.sat u)

/-- R101, R156: an integer record adds to each element of its working bank, modulo 2^32, the products of its k-steps. -/
def Obligations.IntegerRecordSum : Prop :=
  ∀ (c : Core) (m : MCmd) (i j w : Nat) (fl : Fl) (ts : List Nat),
    let kw := mmaKw m.opc
    let product (t u : Nat) : Int :=
      let g := (geoKoff m.geo + t) * kw + u
      (mmaIntVal m.etA (mmaElem c m false g i)).1 * (mmaIntVal m.etB (mmaElem c m true g j)).1
    ((intSteps c m i j ts (w, fl)).1 : Int) % 2 ^ 32
      = ((w : Int) + (ts.map fun t => ((List.range kw).map (product t)).sum).sum) % 2 ^ 32

/-! ### Copy queues (R223 to R243) -/

/-- R225, R239, R241: a copy, binscat or migrate enters the queue of its transfer unit as its last command; its number, the
next of the unit's timeline counter, goes to x[xd]. Misaligned or illegal operands trap, and so does a stopped command that
no queued cresume is about to continue (R194). -/
def Obligations.CopyWords : Prop :=
  ∀ (s : State) (c : Ctl) (f : FCp), crewOk s.here c (copyQueue f) = true →
    let ck := keyCore s.me
    let tu := f.tu.toNat
    let uid := s.here.uid.getD 0
    let a := s.rx s.me f.xa
    let b := s.rx s.me f.xb
    let room := ((s.core ck).unit tu).length < 128
    let going := trapC (s.core ck) tu uid = none
    let enters (i : Instr) (k : CCmd) : Prop := going → room → ∃ t, exec i s = .next t
      ∧ (t.core ck).unit tu = (s.core ck).unit tu ++ [{ k with
          bank := s.me, uid := uid, ctx := s.ctxOf s.me, det := ((s.myLaunch s.me).map (·.det)).getD false, ctl := c,
          tl := s.here.tlNext tu, seq := s.here.seq, at0 := s.tick }]
      ∧ (t.bank s.me).tlNext tu = s.here.tlNext tu + 1
      ∧ (t.bank s.me).rx f.xd.toNat = (if f.xd = 0 then 0 else w64 (s.here.tlNext tu))
      ∧ (∀ r, r ≠ f.xd.toNat → (t.bank s.me).rx r = s.here.rx r)
      ∧ (t.bank s.me).pc = s.here.pc + 8 ∧ (∀ bk, bk ≠ s.me → t.bank bk = s.bank bk) ∧ SameMem s t ∧ SameSem s t
    let paged := (parseWindow s (s.agent s.me) a).any (fun w => w.1 == 0) = true
    (a.toNat % 32 = 0 → f.flg.toNat < 4 → enters (.copy c f) (CCmd.blank .copy a b f.flg))
    ∧ (a.toNat % 64 = 0 → enters (.binscat c f) (CCmd.blank .binscat a 0 0))
    ∧ (paged → migrateOk b = true → enters (.migrate c f) (CCmd.blank .migrate a b 0))
    ∧ (a.toNat % 32 ≠ 0 → StopsWith (.copy c f) s (.bad 24 0x19 57))
    ∧ (a.toNat % 32 = 0 → 4 ≤ f.flg.toNat → StopsWith (.copy c f) s (.bad 24 0x19 43))
    ∧ (a.toNat % 64 ≠ 0 → StopsWith (.binscat c f) s (.bad 24 0x19 57))
    ∧ (¬paged → StopsWith (.migrate c f) s (.trap 25 a))
    ∧ (paged → migrateOk b = false → StopsWith (.migrate c f) s (.bad 24 0x19 52))
    ∧ (∀ cause v n, trapC (s.core ck) tu uid = some (cause, v, n) → a.toNat % 32 = 0 → f.flg.toNat < 4 →
        StopsWith (.copy c f) s (.trap cause v))

/-- R233, R234: a cstat whose turn it is returns the unit's timeline counter, or its status word, whose SKIP count the read
clears. A cresume enters the queue: with ACTIVE = 0 as a command that completes at once; with ACTIVE = 1 and the opcode and
indices of the bank's oldest stopped or partly performed command on the unit, whichever task issued it, as one that
continues it; with others it raises reason 0x19. R233: a cresume that is dequeued clears the stop of the command that it
continues, whichever task of the bank issued that, and sets its indices: the command's next read and its next write are of
that iteration's first byte. R235, R240: binset writes 0 to every word of a bin group; bindrop returns a bin's drop counter,
or for x[xb] = all ones the group's BADID word (the first), and writes 0 to it; any other x[xb] above 4,095 is reason 0x19.
Each is atomic, and no other semaphore word changes. -/
def Obligations.CopyControlAndBinWords : Prop :=
  (∀ (s : State) (c : Ctl) (f : FCp), crewOk s.here c (copyQueue f) = true →
     let ck := keyCore s.me
     let tu := f.tu.toNat
     let uid := s.here.uid.getD 0
     let upc := SMap.get 0 s.here.cupc tu
     let li := (List.range 6).map fun i => (SMap.get 0 s.here.cli (8 * tu + i)).toNat
     let room := ((s.core ck).unit tu).length < 128
     let turn := s.here.uid.isSome = true ∧ mayIssue s s.me uid (copyQueue f) c = true
     let resumes (task target : Word) (at1 : List Nat) (done : Bool) : Prop := ∃ t, exec (.cresume c f) s = .next t
       ∧ (t.core ck).unit tu = (s.core ck).unit tu ++ [{ CCmd.blank .cresume task target 0 with
           started := true, finished := done, li := at1, bank := s.me, uid := uid, ctx := s.ctxOf s.me,
           det := ((s.myLaunch s.me).map (·.det)).getD false, ctl := c, tl := s.here.tlNext tu, seq := s.here.seq, at0 := s.tick }]
       ∧ (t.bank s.me).tlNext tu = s.here.tlNext tu + 1
       ∧ (t.bank s.me).pc = s.here.pc + 8 ∧ (t.bank s.me).x = s.here.x ∧ SameMem s t ∧ SameSem s t
     let found := ((s.core ck).unit tu).find? fun k => k.bank == s.me && k.partly
     (turn → WritesOnly (.cstatTl c f) s 8 f.xd (w64 ((s.here.timeline tu).val)))
     ∧ (turn → ∃ t, exec (.cstatStatus c f) s = .next t ∧ Writes s t 8 f.xd (copyStatus (s.core ck) s.me tu)
         ∧ SMap.get 0 (t.core ck).skip (skipKey s.me tu) = 0 ∧ SameMem s t)
     ∧ (room → upc.getLsbD 15 = false → resumes 0 0 [0, 0, 0, 0, 0, 0] true)
     ∧ (∀ k, room → upc.getLsbD 15 = true → found = some k → bits upc 8 0 = k.kind.opc → k.indicesOk li = true →
         resumes (w64 k.uid) (w64 k.tl) li false)
     ∧ (upc.getLsbD 15 = true → (∀ k, found = some k → bits upc 8 0 ≠ k.kind.opc ∨ k.indicesOk li = false) →
         StopsWith (.cresume c f) s (.bad 24 0x19 62)))
  ∧
  (∀ (s : State) (core tu : Nat) (k r : CCmd), s.works core = true → tu < 4 → (s.core core).unit tu = [k, r] →
     keyCore k.bank = core → r.bank = k.bank → ¬(r.uid = k.uid ∧ r.tl = k.tl) → r.xa.toNat = k.uid → r.xb.toNat = k.tl →
     k.issued = true → k.kind ≠ .cresume → r.kind = .cresume → r.issued = false → r.finished = false →
     (∀ b, s.home r.bank r.uid = some b → b.crew = none) → gapPassed s r.bank (unitQueue tu) r.ctl = true → r.ctl.v ≠ 0 →
     ∃ t, exec (.engineIssue core (unitQueue tu)) s = .next t
       ∧ (t.core core).unit tu = [{ k with stop := none, li := r.li, part := 0, buf := [] }, { r with issued := true }] ∧ SameMem s t)
  ∧
  (∀ (s : State) (c : Ctl) (f : FCp) (k0 : Nat), Ready s c →
     let ctx := s.ctxOf s.me
     let h : BitVec 32 := (s.rx s.me f.xa).setWidth 32
     let b := s.rx s.me f.xb
     semKey s ctx h = some (some k0) →
     (1 ≤ b.toNat → b.toNat ≤ 4096 → (∀ i, i < 2 + 3 * b.toNat → semOk s ctx (h + BitVec.ofNat 32 i) = true) →
       ∃ t, exec (.binset c f) s = .next t ∧ Passes s t 8 ∧ SameMem s t
         ∧ (∀ i k, i < 2 + 3 * b.toNat → semKey s ctx (h + BitVec.ofNat 32 i) = some (some k) → t.semRead k = 0)
         ∧ (∀ k, (∀ i, i < 2 + 3 * b.toNat → semKey s ctx (h + BitVec.ofNat 32 i) ≠ some (some k)) → t.semRead k = s.semRead k))
     ∧ (b.toNat = 0 ∨ 4096 < b.toNat → StopsWith (.binset c f) s (.bad 24 0x19 52))
     ∧ (b = ~~~0#64 → ∃ t, exec (.bindrop c f) s = .next t ∧ Writes s t 8 f.xd (s.semRead k0) ∧ t.semRead k0 = 0
         ∧ SameSemBut s t k0 ∧ SameMem s t)
     ∧ (4095 < b.toNat → b ≠ ~~~0#64 → StopsWith (.bindrop c f) s (.bad 24 0x19 52))
     ∧ (∀ k, b.toNat ≤ 4095 → semKey s ctx (h + BitVec.ofNat 32 (4 + 3 * b.toNat)) = some (some k) →
         ∃ t, exec (.bindrop c f) s = .next t ∧ Writes s t 8 f.xd (s.semRead k) ∧ t.semRead k = 0 ∧ SameSemBut s t k ∧ SameMem s t))

/-- R48, R224 to R232, R236: the steps of a transfer unit whose queue holds one command: it is dequeued; it reads and checks
its descriptor; an iteration of a fill into the instruction memory writes it; the command completes, and its timeline
counter may pass its number. An engine reset that is not the third within 1 ms (R366) takes every command back to its mark.
R224, R230: the iterations of a copy and what one of them moves. Level 0 runs fastest: the next one's place in the walk is
the present one's and 1. An iteration starts at its base and the sum of its indices' strides, a fill's source at the base
alone. It is split into naturally aligned pieces of at most 8 bytes that follow one another. All of it is read before any of
it is written, also across a fault: what is read stays with the command. An iteration of one piece leaves the bytes of its
source in its destination, and no other byte changes. R200, R236, R237: where a binscat puts a token. Its bin index is read,
then the bin's parameters; an index above the last bin adds 1 to the group's BADID word (kind 3); else the bin's counter is
bumped to its capacity and the old count is the token's offset (kind 0); else the overflow counter (kind 1); else the drop
counter takes 1 (kind 2). A token that is moved goes to its offset in its bin, or in its overflow region, and its return
slot then holds its kind and its offset. R241 to R243: a page move rewrites the HOME and HID fields of the leaf entry that
its walk finds, and carries the page's bytes to their place in the new home, in one step; every other byte of memory stays
(R39: a page that is pinned to a slice has its bytes there). Every leaf of the partition that maps the page takes the new
home (log 19, the model's reading). A heap page, or one that R241 leaves where it is, counts as skipped; that a heap page
does is the model's reading too (log 19). The migrate then completes, and one that moved after its deadline raises the slip
counter. -/
def Obligations.CopyAndPageMoveSteps : Prop :=
  (∀ (s : State) (core tu : Nat) (k : CCmd), s.works core = true → tu < 4 → (s.core core).unit tu = [k] → keyCore k.bank = core →
     let ag := k.agent s
     let fresh := k.issued = true ∧ k.started = false ∧ k.finished = false ∧ k.stop = none ∧ k.fault = none
     let running := k.issued = true ∧ k.started = true ∧ k.finished = false ∧ k.stop = none ∧ k.fault = none
     let goes (i : Instr) (k' : CCmd) (t : State) : Prop := exec i s = .next t ∧ (t.core core).unit tu = [k']
     (k.issued = false → k.kind ≠ .cresume → (∀ b, s.home k.bank k.uid = some b → b.crew = none) →
       gapPassed s k.bank (unitQueue tu) k.ctl = true →
       (k.ctl.v = 0 → rangeOk (s.core core) k.bank k.uid k.seq (some none) = true) →
       ∃ t, goes (.engineIssue core (unitQueue tu)) { k with issued := true } t ∧ SameMem s t)
     ∧ (∀ d s', fresh → k.kind = .copy → readDesc s ag k.xa 12 = (d, s', none) → copyCheck s' ag k d = none →
         ∃ t, goes (.copyStart core tu) { k with desc := d, started := true, finished := copyEmpty d } t ∧ SameMem s t)
     ∧ (∀ d s' cause v, fresh → k.kind = .copy → readDesc s ag k.xa 12 = (d, s', none) → copyCheck s' ag k d = some (cause, v) →
         ∃ t, goes (.copyStart core tu) { k with stop := some (cause, v) } t ∧ SameMem s t)
     ∧ (running → k.kind = .copy → k.fill = true → copyKind k.desc = 1 → k.part = 0 → k.buf = [] → 0 < copyLen k.desc →
         let dst := (k.iteration k.li).2
         let loc := imemLoc core dst.toNat
         ∃ t, goes (.copyIteration core tu) ({ k with origins := iterOrigins s ag k k.origins }.moved (copyLen k.desc) []) t
           ∧ Memory.readList t.mem loc (copyLen k.desc) = fillBytes (k.desc.getD 0 0) (k.iteration k.li).1 (copyLen k.desc)
           ∧ SameMemBut s t loc (copyLen k.desc))
     ∧ (∀ t, running → k.kind = .copy → runIteration s tu k = some t → exec (.copyIteration core tu) s = .next t)
     ∧ (running → k.kind = .binscat → k.det = false → bits (k.desc.getD 6 0) 31 0 ≤ k.li.getD 0 0 →
         ∃ t, goes (.binscatToken core tu) { k with finished := true } t ∧ SameMem s t ∧ SameSem s t)
     ∧ (∀ t, running → k.kind = .binscat → runToken s tu k = some t → exec (.binscatToken core tu) s = .next t)
     ∧ (k.finished = true → k.issued = true → k.kind ≠ .migrate →
         ∃ t, exec (.copyCompletion core tu) s = .next t ∧ (t.core core).unit tu = []
           ∧ (t.core core).imorg = k.origins.foldl (fun m o => SMap.set 0 m o.1 o.2) (s.core core).imorg
           ∧ (t.bank k.bank).timeline tu = ((s.bank k.bank).timeline tu).complete k.tl ∧ SameMem s t)
     ∧ (s.running = true → (∀ r ∈ s.modl.resets, r.1 = core → r.2.1 = 3 → r.2.2 + 1000000 < s.cycle) → (∀ j, j / 2 = core → (s.bank j).crew = none) →
         ∃ t, goes (.copyEngineReset core) { k with part := k.part / 65536 * 65536, buf := [] } t ∧ (∀ j, t.bank j = s.bank j) ∧ t.mem = s.mem))
  ∧
  (let place (li cnts : List Nat) : Nat := (li.zip cnts).foldr (fun p n => p.1 + p.2 * n) 0
   (∀ li cnts : List Nat, li.length = cnts.length → (∀ p ∈ li.zip cnts, p.1 < p.2) →
     (nextIndices li cnts = none ↔ place li cnts + 1 = cnts.foldl (· * ·) 1)
     ∧ ∀ l2, nextIndices li cnts = some l2 →
         l2.length = cnts.length ∧ (∀ p ∈ l2.zip cnts, p.1 < p.2) ∧ place l2 cnts = place li cnts + 1)
   ∧ (∀ (k : CCmd) (li : List Nat), li.length = 6 →
       let off (first : Nat) : Int :=
         ((List.range 6).map fun l => (li.getD l 0 : Int) * toSigned 32 ((halves k.desc first).getD l 0)).foldl (· + ·) 0
       let b := k.bases k.desc
       (k.fill = false → (k.iteration li).1 = b.1 + BitVec.ofInt 64 (off 6))
       ∧ (k.fill = true → (k.iteration li).1 = b.1)
       ∧ (k.iteration li).2 = b.2 + BitVec.ofInt 64 (off 9))
   ∧ (∀ (a : Word) (n i : Nat) (p : Word × Nat), (pieces n a n)[i]? = some p →
       p.1 = a + w64 ((((pieces n a n).take i).map (·.2)).foldl (· + ·) 0) ∧ p.1.toNat % p.2 = 0 ∧ p.2 ∈ [1, 2, 4, 8])
   ∧ (∀ (a : Word) (n : Nat), ((pieces n a n).map (·.2)).foldl (· + ·) 0 = n)
   ∧ ∀ (s : State) (core tu : Nat) (k : CCmd), s.works core = true → tu < 4 → (s.core core).unit tu = [k] → keyCore k.bank = core →
     k.kind = .copy → k.issued = true → k.started = true → k.finished = false → k.stop = none → k.fault = none →
     let ag := k.agent s
     let n := copyLen k.desc
     let src := (k.iteration k.li).1
     let dst := (k.iteration k.li).2
     k.part = 0 → k.buf = [] → k.fill = false → copyKind k.desc = 0 → 0 < n →
       (∀ bs s1 u w, readPieces s ag (pieces n src n) = (bs, s1, none) → bs.length = n →
         writePieces s1 ag (k.bank, tu, k.tl) (pieces n dst n) bs = (u, w, none) →
           ∃ t, exec (.copyIteration core tu) s = .next t ∧ t.mem = w.mem ∧ (t.core core).unit tu = [k.moved u (bs.drop u)])
       ∧ (∀ bs s1 f, readPieces s ag (pieces n src n) = (bs, s1, some (.page f)) → (s1.core core).unit tu = [k] →
           ∃ t, exec (.copyIteration core tu) s = .next t ∧ t.mem = s1.mem
             ∧ ∃ r ∈ t.faults ++ t.heldFaults, (t.core core).unit tu = [{ k with buf := bs, fault := some r.tag }])
       ∧ (∀ p s1 q s2, pieces n src n = [(src, n)] → pieces n dst n = [(dst, n)] →
           access s ag .read false 4 src n = .ok (p, s1) → access s1 ag .write false 6 dst n = .ok (q, s2) →
           ∃ t, exec (.copyIteration core tu) s = .next t
             ∧ (∀ i, i < n → Memory.read t.mem (q.loc + i) = Memory.read s.mem (p.loc + i)) ∧ SameMemBut s t q.loc n))
  ∧
  (∀ (s s1 s2 : State) (tu : Nat) (k : CCmd) (ag : Agent) (t : Nat) (e : List Byte) (p : List Word),
     let d := k.desc
     let h : BitVec 32 := BitVec.ofNat 32 (bits (d.getD 5 0) 31 0)
     let b := leVal e
     let word (i : Nat) : Nat := groupWord s k.ctx h i
     let count (i : Nat) : Nat := (s.semRead (word i)).toNat
     let raised (u : State) (i : Nat) : Prop := u.semRead (word i) = s.semRead (word i) + 1 ∧ SameSemBut s u (word i)
     let answers (i kind off : Nat) : Prop := ∃ u, bumpToken s tu k ag t = .ok (u, kind, off) ∧ raised u i ∧ SameMem s u
     readPieces s ag (pieces 2 (d.getD 2 0 + w64 (2 * t)) 2) = (e, s1, none) →
     SMap.find (s1.core ag.key).semTag tu = none →
     (bits (d.getD 6 0) 59 48 < b → answers 0 3 0)
     ∧ (b ≤ bits (d.getD 6 0) 59 48 → readDesc s1 ag (d.getD 4 0 + w64 (32 * b)) 4 = (p, s2, none) →
         SMap.find (s2.core ag.key).semTag tu = none →
         let cap := bits (p.getD 2 0) 31 0
         let spill := bits (p.getD 2 0) 63 32
         (p.getD 3 0 ≠ 0 → bumpToken s tu k ag t = .error (.trap 31 0))
         ∧ (p.getD 3 0 = 0 → count (2 + 3 * b) < cap → answers (2 + 3 * b) 0 (count (2 + 3 * b)))
         ∧ (p.getD 3 0 = 0 → cap ≤ count (2 + 3 * b) → count (3 + 3 * b) < spill →
             answers (3 + 3 * b) 1 (count (3 + 3 * b)))
         ∧ (p.getD 3 0 = 0 → cap ≤ count (2 + 3 * b) → spill ≤ count (3 + 3 * b) → answers (4 + 3 * b) 2 0)
         ∧ (∀ kind off, kind < 2 → ∀ bs s3 n s4 q s5,
             let tsz := bits (d.getD 6 0) 47 32
             readPieces s2 ag (pieces tsz (d.getD 0 0 + w64 t * d.getD 1 0) tsz) = (bs, s3, none) →
             writePieces s3 ag (k.bank, tu, k.tl) (pieces tsz (p.getD kind 0 + w64 (off * tsz)) tsz) bs = (n, s4, none) →
             access s4 ag .write false 6 (d.getD 3 0 + w64 (8 * t)) 8 = .ok (q, s5) → (d.getD 3 0).toNat % 8 = 0 →
             ∃ u, moveToken s tu k ag t kind off = (u, none)
               ∧ Memory.readList u.mem q.loc 8 = leBytes 8 (kind * 2 ^ 62 + off % 2 ^ 32) ∧ SameMemBut s4 u q.loc 8))
     ∧ (∀ kind q s5, 2 ≤ kind → kind ≤ 3 → access s ag .write false 6 (d.getD 3 0 + w64 (8 * t)) 8 = .ok (q, s5) →
         (d.getD 3 0).toNat % 8 = 0 →
         ∃ u, moveToken s tu k ag t kind 0 = (u, none)
           ∧ Memory.readList u.mem q.loc 8 = leBytes 8 (kind * 2 ^ 62) ∧ SameMemBut s u q.loc 8))
  ∧
  (∀ (s : State) (n : Nat) (m : Move), s.moves[n]? = some m →
     let part := keyPart m.core
     let a := bits m.va 56 0
     let target := bits m.parms 3 0
     let slice := bits m.parms 8 4
     let key := skipKey m.bank m.tu
     let skipped (t : State) : Prop := exec (.pageMove n) s = .next t ∧ t.moves[n]? = some { m with done := true } ∧ SameMem s t
       ∧ SMap.get 0 (t.core m.core).skip key =
           (if SMap.get 0 (s.core m.core).skip key = 255 then 255 else SMap.get 0 (s.core m.core).skip key + 1)
     (m.done = false → (heapPlace s m.ctx part a).isSome = true → ∃ t, skipped t)
     ∧ (∀ e level, m.done = false → heapPlace s m.ctx part a = none → walkCtx s m.ctx part .read m.va a = .ok (e, level) →
         moveOutcome s part e level target slice = 1 → ∃ t, skipped t)
     ∧ (∀ e level, MemOk s → target ≤ 1 → m.done = false → heapPlace s m.ctx part a = none →
         walkCtx s m.ctx part .read m.va a = .ok (e, level) → moveOutcome s part e level target slice = 2 →
         let src := (leafPlace part e level 0).loc
         let dst := (leafPlace part (movedEntry e target slice) level 0).loc
         let size := 2 ^ levelShift level
         let u := s.moveSpan src dst size
         let maps := (u.leaves part).filter fun x => x.2.2 == level && samePage x.2.1 e
         (∀ x ∈ maps, ∀ y ∈ maps, x.1 = y.1 ∨ x.1 + 8 ≤ y.1 ∨ y.1 + 8 ≤ x.1) →
         (∀ i, i < size → Memory.read u.mem (dst + i) = Memory.read s.mem (src + i)) ∧ SameMemBut s u dst size
         ∧ ∃ t, exec (.pageMove n) s = .next t ∧ t.moves[n]? = some { m with moved := true, done := true }
           ∧ (∀ x ∈ maps, t.readLoc x.1 8 = (movedEntry x.2.1 target slice).toNat)
           ∧ (∀ p, (∀ x ∈ maps, ¬(x.1 ≤ p ∧ p < x.1 + 8)) → Memory.read t.mem p = Memory.read u.mem p)
           ∧ (∀ key, keyPart key = part → ∀ x ∈ (t.core key).tlb, tlbLevel x = level → samePage x.pte e = false))
     ∧ (m.done = true →
         let late := m.moved = true ∧ bits m.parms 63 32 ≠ 0 ∧ m.at0 + bits m.parms 63 32 < s.tick
         ∃ t, exec (.migrateCompletion n) s = .next t ∧ t.moves = s.moves.eraseIdx n
           ∧ (t.bank (bankKey m.core m.bank)).timeline m.tu
               = ((s.bank (bankKey m.core m.bank)).timeline m.tu).complete m.tl
           ∧ (late → (t.ctx m.ctx).slip = (s.ctx m.ctx).slip + 1) ∧ (¬late → (t.ctx m.ctx).slip = (s.ctx m.ctx).slip)
           ∧ SameMem s t))

/-! ### Streams (R209 to R222, R245, R246) -/

/-- R212 to R214: sbind loads a descriptor, checks it and binds it; sunbind ends the binding, first writing the descriptor
where XA is not x0. A number already bound or unbound, a misaligned address and a descriptor that fails a check trap; an
output stream with entries to be written waits, and a stopped stream traps. That sunbind raises cause 6 for a misaligned
address is the model's choice (log 56). R215 to R218, R245, R246: sflush waits for an output stream to be written, and
discards the unread entries of an input stream; sskip moves the issue position on by x[xa], or traps past the end; that
entries fetched for the positions it passes leave the buffer at once is the model's reading (log 17). smaxr and smaxc return
the maximum of an output stream, and smaxc clears it; sstat returns the status word; sptest tells where an address leads,
and spcast gives the same byte in another window. R246: the pointer that spcast gives for each window that the pointer lies
in and each window asked for, or the address-window fault; what it gives leads to the same byte. -/
def Obligations.StreamWords : Prop :=
  (∀ (s : State) (c : Ctl) (f : FSb), Ready s c →
     let n := f.sr.toNat
     let a := s.rx s.me f.xa
     let ag := s.agent s.me
     let kept (t : State) : Prop := (t.bank s.me).pc = s.here.pc + 8 ∧ (t.bank s.me).x = s.here.x
       ∧ (∀ bk, bk ≠ s.me → t.bank bk = s.bank bk)
     (∀ d s', s.here.stream n = none → a.toNat % 64 = 0 → loadWords (s.issued c) ag 8 a = .ok (d, s') →
         streamCheck d (Stream.ofWords d) = 0 →
         ∃ t, exec (.sbind c f) s = .next t ∧ kept t ∧ (t.bank s.me).stream n = some (Stream.ofWords d) ∧ SameMem s t
           ∧ ∀ m, m ≠ n → (t.bank s.me).stream m = s.here.stream m)
     ∧ (∀ d s' r, s.here.stream n = none → a.toNat % 64 = 0 → loadWords (s.issued c) ag 8 a = .ok (d, s') →
         streamCheck d (Stream.ofWords d) = r → r ≠ 0 → StopsWith (.sbind c f) s (.bad 24 r 49))
     ∧ (s.here.stream n = none → a.toNat % 64 ≠ 0 → StopsWith (.sbind c f) s (.trap 4 a))
     ∧ ((s.here.stream n).isSome = true → StopsWith (.sbind c f) s (.bad 24 0x19 59))
     ∧ (s.here.stream n = none → StopsWith (.sunbind c f) s (.bad 24 0x13 59))
     ∧ ∀ st, s.here.stream n = some st →
       (st.stop ≠ 0 → StopsWith (.sunbind c f) s (.streamStop n st.stopCause st.stopAddr))
       ∧ (st.stop = 0 → st.dir = 1 → ¬(st.buf = [] ∧ st.pos = st.issue) → StopsWith (.sunbind c f) s (.wait (.streamIdle s.me n)))
       ∧ (st.stop = 0 → (st.dir = 1 → st.buf = [] ∧ st.pos = st.issue) → f.xa = 0 →
           ∃ t, exec (.sunbind c f) s = .next t ∧ kept t ∧ (t.bank s.me).stream n = none ∧ SameMem s t)
       ∧ (∀ s', st.stop = 0 → st.dir = 0 → f.xa ≠ 0 → a.toNat % 64 = 0 → storeWords (s.issued c) ag st.words a = .ok s' →
           ∃ t, exec (.sunbind c f) s = .next t ∧ kept t ∧ (t.bank s.me).stream n = none ∧ t.mem = s'.mem)
       ∧ (∀ s', st.stop = 0 → st.dir = 1 → st.buf = [] → st.pos = st.issue → f.xa ≠ 0 → a.toNat % 64 = 0 →
           storeWords ((s.issued c).acquireDrains s.me n st.issue) ag st.words a = .ok s' →
           ∃ t, exec (.sunbind c f) s = .next t ∧ kept t ∧ (t.bank s.me).stream n = none ∧ t.mem = s'.mem)
       ∧ (st.stop = 0 → (st.dir = 1 → st.buf = [] ∧ st.pos = st.issue) → f.xa ≠ 0 → a.toNat % 64 ≠ 0 →
           StopsWith (.sunbind c f) s (.trap 6 a)))
  ∧
  (∀ (s : State) (c : Ctl) (f : FSb), Ready s c →
     let n := f.sr.toNat
     let p := s.rx s.me f.xa
     let ag := s.agent s.me
     let kept (t : State) : Prop := (t.bank s.me).pc = s.here.pc + 8 ∧ SameMem s t ∧ SameSem s t
       ∧ (∀ bk, bk ≠ s.me → t.bank bk = s.bank bk) ∧ ∀ m, m ≠ n → (t.bank s.me).stream m = s.here.stream m
     (s.here.stream n = none → ∀ i ∈ [Instr.sflush c f, .sskip c f, .smaxr c f, .smaxc c f, .sstat c f], StopsWith i s (.bad 24 0x13 59))
     ∧ (∀ st, s.here.stream n = some st →
         (st.stop ≠ 0 → StopsWith (.sflush c f) s (.streamStop n st.stopCause st.stopAddr))
         ∧ (st.stop = 0 → st.dir = 1 → ¬(st.buf = [] ∧ st.pos = st.issue) → StopsWith (.sflush c f) s (.wait (.streamIdle s.me n)))
         ∧ (st.stop = 0 → st.dir = 1 → st.buf = [] → st.pos = st.issue → ∃ t, exec (.sflush c f) s = .next t ∧ Passes s t 8 ∧ kept t)
         ∧ (st.stop = 0 → st.dir = 0 →
             ∃ t, exec (.sflush c f) s = .next t ∧ kept t ∧ (t.bank s.me).x = s.here.x ∧ (t.bank s.me).stream n = some st.refetch)
         ∧ (st.issue + p.toNat ≤ st.total →
             ∃ t st', exec (.sskip c f) s = .next t ∧ kept t ∧ (t.bank s.me).x = s.here.x ∧ (t.bank s.me).stream n = some st'
               ∧ st'.issue = st.issue + p.toNat ∧ st'.wcnt = st.wcnt ∧ st'.mm = st.mm
               ∧ (∀ e, st.dir = 0 → st.issue ≤ e → e < st.issue + p.toNat → SMap.find st'.buf e = none)
               ∧ (∀ e, e < st.issue ∨ st.issue + p.toNat ≤ e → SMap.find st'.buf e = SMap.find st.buf e))
         ∧ (st.total < st.issue + p.toNat → StopsWith (.sskip c f) s (.trap 32 0))
         ∧ (st.dir = 0 → StopsWith (.smaxr c f) s (.bad 24 0x12 59) ∧ StopsWith (.smaxc c f) s (.bad 24 0x12 59))
         ∧ (st.dir = 1 → st.stop ≠ 0 → StopsWith (.smaxr c f) s (.streamStop n st.stopCause st.stopAddr)
             ∧ StopsWith (.smaxc c f) s (.streamStop n st.stopCause st.stopAddr))
         ∧ (st.dir = 1 → st.stop = 0 → st.pos ≠ st.issue → StopsWith (.smaxr c f) s .stall ∧ StopsWith (.smaxc c f) s .stall)
         ∧ (st.dir = 1 → st.stop = 0 → st.pos = st.issue →
             WritesOnly (.smaxr c f) s 8 f.xd (st.mm.setWidth 64)
             ∧ ∃ t, exec (.smaxc c f) s = .next t ∧ kept t ∧ (t.bank s.me).stream n = some { st with mm := 0 }
               ∧ (t.bank s.me).rx f.xd.toNat = (if f.xd = 0 then 0 else st.mm.setWidth 64)
               ∧ ∀ r, r ≠ f.xd.toNat → (t.bank s.me).rx r = s.here.rx r)
         ∧ WritesOnly (.sstat c f) s 8 f.xd st.status)
     ∧ (parseWindow s ag p = none → WritesOnly (.sptest c f) s 8 f.xd 7)
     ∧ (∀ w g, parseWindow s ag p = some (w, .glob g) → WritesOnly (.sptest c f) s 8 f.xd (w64 (2 ^ 16 + w)))
     ∧ (∀ w key off, parseWindow s ag p = some (w, .spad key off) → WritesOnly (.sptest c f) s 8 f.xd
         (w64 ((if w = 2 ∧ key ≠ ag.key then 0 else 1) * 2 ^ 16 + keyL key * 2 ^ 8 + w)))
     ∧ (∀ q, f.win.toNat < 4 → castPointer s ag p f.win.toNat = some q → WritesOnly (.spcast c f) s 8 f.xd q)
     ∧ (f.win.toNat < 4 → castPointer s ag p f.win.toNat = none → StopsWith (.spcast c f) s (.trap 25 p))
     ∧ (4 ≤ f.win.toNat → StopsWith (.spcast c f) s (.bad 24 0x18 46)))
  ∧
  (∀ (s : State) (ag : Agent) (p : Word),
     let cast (w : Nat) : Option Word := castPointer s ag p w
     let near (key : Nat) : Bool := keyL key / 16 == keyL ag.key / 16
     (parseWindow s ag p = none → ∀ w, cast w = none)
     ∧ (∀ a, parseWindow s ag p = some (0, .glob a) → cast 0 = some p ∧ cast 1 = none ∧ cast 2 = none
         ∧ ((p - ag.frame).toNat < ag.framesz → cast 3 = some (0xE000000000000000#64 + (p - ag.frame)))
         ∧ (ag.framesz ≤ (p - ag.frame).toNat → cast 3 = none))
     ∧ (∀ key off, parseWindow s ag p = some (1, .spad key off) →
         cast 0 = none ∧ cast 1 = some p ∧ cast 2 = some (w64 (0xD * 2 ^ 60 + keyL key * 2 ^ 54 + off)) ∧ cast 3 = none)
     ∧ (∀ key off, parseWindow s ag p = some (2, .spad key off) → cast 0 = none ∧ cast 2 = some p ∧ cast 3 = none
         ∧ (near key = true → cast 1 = some (w64 (0xC * 2 ^ 60 + keyL key % 16 * 2 ^ 53 + off)))
         ∧ (near key = false → cast 1 = none))
     ∧ (∀ a, parseWindow s ag p = some (3, .glob a) → cast 0 = some (w64 a) ∧ cast 1 = none ∧ cast 2 = none ∧ cast 3 = some p)
     ∧ (∀ w0 tgt w q, parseWindow s ag p = some (w0, tgt) → cast w = some q → ag.framesz ≤ 2 ^ 40 →
         (∀ key off, tgt = .spad key off → s.granted ag.ctx (keyL key) = true) → parseWindow s ag q = some (w, tgt)))

/-- R35, R210, R211, R219, R340: the transfer unit fetches the next entry of an input stream of the bank's task into its
buffer, or the stream stops at the fault that ends the fetch, or parks its entry at a page fault, whose record, where it is
a new one, names unit 3 and the stream's transfer unit; it writes the oldest buffered entry of an output stream. -/
def Obligations.StreamTraffic : Prop :=
  ∀ (s : State) (core bank sn uid : Nat) (st : Stream),
    let bk := bankKey core bank
    let ag := s.agentFor bk uid true
    s.works core = true → (s.bank bk).uid = some uid → (s.core core).tracker = [] → (s.bank bk).stream sn = some st →
    (∀ bs s', st.skips = [] → st.mayFetch sn = true →
      readPieces s ag (pieces 256 (st.addr st.next) st.elen ++ pieces 8 (st.scaleAddr st.next) st.bpe.toNat) = (bs, s', none) →
      ∃ t, exec (.entryArrival core bank sn) s = .next t ∧ (t.bank bk).x = (s.bank bk).x ∧ SameMem s t
        ∧ (t.bank bk).stream sn = some { st with
            buf := SMap.put st.buf st.next (entryBits (bs.take st.elen) (bs.drop st.elen)), next := st.next + 1 })
    ∧ (∀ bs s' cause v, st.skips = [] → st.mayFetch sn = true →
      readPieces s ag (pieces 256 (st.addr st.next) st.elen ++ pieces 8 (st.scaleAddr st.next) st.bpe.toNat)
        = (bs, s', some (.trap cause v)) →
      ∃ t, exec (.entryArrival core bank sn) s = .next t ∧ SameMem s t
        ∧ (t.bank bk).stream sn = some { st with stop := stopCode cause, stopCause := cause, stopAddr := v })
    ∧ (∀ bs s' f, st.skips = [] → st.mayFetch sn = true →
      readPieces s ag (pieces 256 (st.addr st.next) st.elen ++ pieces 8 (st.scaleAddr st.next) st.bpe.toNat) = (bs, s', some (.page f)) →
      ∃ t, exec (.entryArrival core bank sn) s = .next t ∧ SameMem s t
        ∧ ∃ r ∈ t.faults ++ t.heldFaults, (t.bank bk).stream sn = some { st with parked := some r.tag }
            ∧ r.ctx = ag.ctx ∧ r.page = f.page ∧ r.cause = f.cause
            ∧ (s'.faults = [] → r.unit = .stream ∧ r.tu = st.tu.toNat))
    ∧ (∀ e v n s', st.dir = 1 → st.stop = 0 → st.hold = false → st.parked = none → st.buf.head? = some (e, v) →
      let bs := leBytes 256 v.toNat
      writePieces s ag (bk, 8 + sn, e + 1)
        (pieces 256 (st.addr e) st.elen ++ pieces 8 (st.scaleAddr e) st.bpe.toNat)
        (bs.take st.elen ++ (bs.drop 248).take st.bpe.toNat) = (n, s', none) →
      ∃ t, exec (.outputDrain core bank sn) s = .next t ∧ t.mem = s'.mem ∧ (t.bank bk).x = (s.bank bk).x
        ∧ (t.bank bk).stream sn = some { st with buf := SMap.del st.buf e, next := e + 1 })

/-! ### Collectives (R286 to R319) -/

/-- R286, R291, R294 to R300, R309, R315, R319: a form enters the collective queue as its last command, its entry of the
group table checked first. An operation takes the next number of its channel, which goes to x[xd], a group operation also
the entry's SEQ as its round tag, and SEQ rises by one; a control form takes no number, and x[xd] waits for it. A kresume
takes with it what the channel's K_SEQ and K_STEP name: nothing where ACTIVE is 0, else the partly performed operation with
its PHASE and DONE. R292 to R300, R315, R194: what a form refuses, in the order of R62: a misaligned descriptor, an x[xb]
outside its limits, an entry that the bank does not hold, in deterministic operation a reduction that could leave a member
out, an OP or ET outside its range, an image or parameter outside the limits. An operation stopped on either channel stops
the engine, whose forms take its trap (all but kresume): that the two channels are one engine is log 20, the model's
reading. A form on a full queue waits; a kresume with ACTIVE = 1 for which the channel has no partly performed operation, or
whose K_SEQ, PHASE or DONE does not fit it, is refused. R295: grpget waits in the collective queue for the bank's earlier
forms; once it has been performed, the control core stores the 24 doublewords, or returns the one numbered x[xa]. -/
def Obligations.CollectiveWords : Prop :=
  (∀ (s : State) (c : Ctl) (f : FGr), crewOk s.here c .col = true → (s.core (keyCore s.me)).kq.length < 64 →
     let ck := keyCore s.me
     let ctx := s.ctxOf s.me
     let uid := s.here.uid.getD 0
     let e := (s.ctx ctx).entry f.ge.toNat
     let a := s.rx s.me f.xa
     let xb := s.rx s.me f.xb
     let n := s.here.tlNext (6 + f.ch.toNat)
     let settled := ∀ k ∈ (s.core ck).kq, ¬(k.uid = uid ∧ k.ge = f.ge.toNat ∧ k.kind.changes = true ∧ k.issued = false)
     let going := trapCol (s.core ck) uid = none
     let held := s.here.hold.getLsbD f.ge.toNat = true
     let step := SMap.get 0 s.here.kstep f.ch.toNat
     let queued (t : State) (k : KCmd) (tl : Nat) : Prop := (t.core ck).kq = (s.core ck).kq ++ [{ k with
           bank := s.me, uid := uid, ctx := ctx, core := ck, ctl := c, seq := s.here.seq, tl := tl, nrmRm := s.here.rm,
           seed := ((s.myLaunch s.me).map (·.seed)).getD 0 }]
       ∧ (t.bank s.me).pc = s.here.pc + 8 ∧ (∀ bk, bk ≠ s.me → t.bank bk = s.bank bk) ∧ SameMem s t ∧ SameSem s t
     let operates (i : Instr) (k : KCmd) (seq : Word) : Prop := ∃ t, exec i s = .next t ∧ queued t k n
       ∧ (t.bank s.me).tlNext (6 + f.ch.toNat) = n + 1 ∧ (t.bank s.me).rx f.xd.toNat = (if f.xd = 0 then 0 else w64 n)
       ∧ (∀ r, r ≠ f.xd.toNat → (t.bank s.me).rx r = s.here.rx r)
       ∧ SMap.get 0 (t.ctx ctx).group (24 * f.ge.toNat + 17) = seq
     let forms (i : Instr) (k : KCmd) : Prop := ∃ t, exec i s = .next t ∧ queued t k 0 ∧ (t.bank s.me).x = s.here.x
       ∧ (t.bank s.me).pendX = (if f.xd = 0 then s.here.pendX else s.here.pendX ++ [f.xd])
     let det := ((s.myLaunch s.me).map (·.det)).getD false
     let full := det = true → bits e.w16 44 34 ≤ e.k ∨ e.mode ≠ 0
     let tagged (kind : KKind) : KCmd := { KCmd.blank kind f with xa := a, xb := xb, tag := (e.getD 17 0).toNat }
     let reduces := countOk xb = true ∧ f.op.toNat ≤ 4 ∧ ¬(f.op.toNat = 1 ∧ 5 ≤ f.et.toNat) ∧ full
     let grouped := settled ∧ going ∧ held ∧ a.toNat % 64 = 0 ∧ f.et.toNat ≤ 6
     (grouped → reduces → operates (.allred c f) (tagged .allred) (e.getD 17 0 + 1)
         ∧ operates (.redsc c f) (tagged .redsc) (e.getD 17 0 + 1))
     ∧ (grouped → countOk xb = true → f.op = 0 → operates (.allgat c f) (tagged .allgat) (e.getD 17 0 + 1))
     ∧ (grouped → xb.toNat < 1024 → e.members.getLsbD xb.toNat = true → f.op = 0 →
         operates (.bcast c f) (tagged .bcast) (e.getD 17 0 + 1))
     ∧ (settled → going → held → a.toNat % 64 = 0 →
         operates (.owrite c f) { KCmd.blank .owrite f with xa := a } (e.getD 17 0)
         ∧ operates (.owred c f) { KCmd.blank .owred f with xa := a } (e.getD 17 0))
     ∧ (step.getLsbD 15 = false → operates (.kresume c f) (KCmd.blank .kresume f) (e.getD 17 0))
     ∧ (∀ k, step.getLsbD 15 = true →
         (s.core ck).kq.find? (fun k => k.uid == uid && k.ch == f.ch.toNat && k.partly) = some k →
         (SMap.get 0 s.here.kseq f.ch.toNat).toNat = k.tag % 2 ^ 32 → bits step 14 12 ≤ k.phase → bits step 11 0 ≤ k.done / 4096 →
         operates (.kresume c f) { KCmd.blank .kresume f with tag := k.tl, phase := bits step 14 12, done := bits step 11 0 } (e.getD 17 0))
     ∧ (going → forms (.grpsetClaim c f) (KCmd.blank .grpsetClaim f))
     ∧ (going → forms (.grpsetRelease c f) (KCmd.blank .grpsetRelease f))
     ∧ (∀ ws s', going → a.toNat % 64 = 0 → readWords s (s.agent s.me) 24 a = .ok (ws, s') → imageOk s ck ctx f.ge.toNat ws = true →
         (s.agent s.me).ctx = ctx → forms (.grpsetWrite c f) { KCmd.blank .grpsetWrite f with desc := ws })
     ∧ (settled → going → qparmOk e f.op.toNat a = true → held → f.op.toNat ≤ 5 → forms (.qparm c f) { KCmd.blank .qparm f with xa := a })
     ∧ (going → forms (.rndwait c f) { KCmd.blank .rndwait f with xa := a })
     ∧ (settled → going → f.op.toNat ≤ 1 → (f.op = 1 → e.members.getLsbD (bits a 9 0) = true) →
         forms (.slackr c f) { KCmd.blank .slackr f with xa := a }))
  ∧
  (∀ (s : State) (c : Ctl) (f : FGr), crewOk s.here c .col = true →
     let ck := keyCore s.me
     let uid := s.here.uid.getD 0
     let e := (s.ctx (s.ctxOf s.me)).entry f.ge.toNat
     let a := s.rx s.me f.xa
     let settled := ∀ k ∈ (s.core ck).kq, ¬(k.uid = uid ∧ k.ge = f.ge.toNat ∧ k.kind.changes = true ∧ k.issued = false)
     let held := s.here.hold.getLsbD f.ge.toNat = true
     let xb := s.rx s.me f.xb
     let root := xb.toNat < 1024 ∧ e.members.getLsbD xb.toNat = true
     let partial' := ((s.myLaunch s.me).map (·.det)).getD false = true ∧ e.k < bits e.w16 44 34 ∧ e.mode = 0
     (settled → a.toNat % 64 ≠ 0 → ∀ i ∈ [Instr.allred c f, .redsc c f, .allgat c f, .bcast c f, .owrite c f, .owred c f],
         StopsWith i s (.bad 24 0x19 54))
     ∧ (a.toNat % 64 ≠ 0 → StopsWith (.grpsetWrite c f) s (.bad 24 0x19 54) ∧ StopsWith (.grpgetStore c f) s (.bad 24 0x19 54))
     ∧ (settled → a.toNat % 64 = 0 → ¬held → StopsWith (.owrite c f) s (.bad 24 0x19 41) ∧ StopsWith (.owred c f) s (.bad 24 0x19 41))
     ∧ (settled → a.toNat % 64 = 0 →
         (countOk xb = false → ∀ i ∈ [Instr.allred c f, .redsc c f, .allgat c f], StopsWith i s (.bad 24 0x19 49))
         ∧ (¬root → StopsWith (.bcast c f) s (.bad 24 0x19 49))
         ∧ (countOk xb = true → ¬held → ∀ i ∈ [Instr.allred c f, .redsc c f, .allgat c f], StopsWith i s (.bad 24 0x19 41))
         ∧ (root → ¬held → StopsWith (.bcast c f) s (.bad 24 0x19 41))
         ∧ (countOk xb = true → held → partial' → ∀ i ∈ [Instr.allred c f, .redsc c f], StopsWith i s (.bad 24 0x19 41))
         ∧ (countOk xb = true → held → ¬partial' → 4 < f.op.toNat ∨ (f.op = 1 ∧ 5 ≤ f.et.toNat) →
             ∀ i ∈ [Instr.allred c f, .redsc c f], StopsWith i s (.bad 24 0x19 36))
         ∧ (countOk xb = true → held → f.op ≠ 0 → StopsWith (.allgat c f) s (.bad 24 0x19 36))
         ∧ (root → held → f.op ≠ 0 → StopsWith (.bcast c f) s (.bad 24 0x19 36))
         ∧ (countOk xb = true → held → ¬partial' → f.op.toNat ≤ 4 → f.op ≠ 1 → 6 < f.et.toNat →
             ∀ i ∈ [Instr.allred c f, .redsc c f], StopsWith i s (.bad 24 0x15 32))
         ∧ (held → f.op = 0 → 6 < f.et.toNat → (countOk xb = true → StopsWith (.allgat c f) s (.bad 24 0x15 32))
             ∧ (root → StopsWith (.bcast c f) s (.bad 24 0x15 32))))
     ∧ (∀ ws s', a.toNat % 64 = 0 → readWords s (s.agent s.me) 24 a = .ok (ws, s') →
         imageOk s (s.agent s.me).key (s.agent s.me).ctx f.ge.toNat ws = false → StopsWith (.grpsetWrite c f) s (.bad 24 0x19 54))
     ∧ (settled → qparmOk e f.op.toNat a = false → StopsWith (.qparm c f) s (.bad 24 0x19 54))
     ∧ (settled → qparmOk e f.op.toNat a = true → ¬held → StopsWith (.qparm c f) s (.bad 24 0x19 41))
     ∧ (settled → held → 5 < f.op.toNat → StopsWith (.qparm c f) s (.bad 24 0x19 36))
     ∧ (settled → f.op = 1 → e.members.getLsbD (bits a 9 0) = false → StopsWith (.slackr c f) s (.bad 24 0x19 54))
     ∧ (settled → 1 < f.op.toNat → StopsWith (.slackr c f) s (.bad 24 0x19 36))
     ∧ (23 < a.toNat → StopsWith (.grpgetWord c f) s (.bad 24 0x19 54))
     ∧ (∀ cause v n, trapCol (s.core ck) uid = some (cause, v, n) →
         (settled → a.toNat % 64 = 0 → held → StopsWith (.owrite c f) s (.trap cause v))
         ∧ ∀ i ∈ [Instr.grpsetClaim c f, .grpsetRelease c f, .rndwait c f], StopsWith i s (.trap cause v))
     ∧ (64 ≤ (s.core ck).kq.length → trapCol (s.core ck) uid = none → StopsWith (.rndwait c f) s .stall)
     ∧ ((SMap.get 0 s.here.kstep f.ch.toNat).getLsbD 15 = true →
         (∀ k ∈ (s.core ck).kq, k.uid = uid → k.ch = f.ch.toNat → k.partly = true →
           ¬((SMap.get 0 s.here.kseq f.ch.toNat).toNat = k.tag % 2 ^ 32 ∧ bits (SMap.get 0 s.here.kstep f.ch.toNat) 14 12 ≤ k.phase
             ∧ bits (SMap.get 0 s.here.kstep f.ch.toNat) 11 0 ≤ k.done / 4096)) →
         StopsWith (.kresume c f) s (.bad 24 0x19 40)))
  ∧
  (∀ (s : State) (c : Ctl) (f : FGr) (k : KCmd), crewOk s.here c .col = true →
     let a := s.rx s.me f.xa
     let wait := WaitCond.formDone (keyCore s.me) (s.here.uid.getD 0)
     (a.toNat ≤ 23 → readyGet s .grpgetWord = some k →
       ∃ t, exec (.grpgetWord c f) s = .next t ∧ Writes s t 8 f.xd (k.desc.getD a.toNat 0) ∧ readyGet t .grpgetWord = none ∧ SameMem s t)
     ∧ (∀ s', a.toNat % 64 = 0 → readyGet s .grpgetStore = some k →
         storeWords (s.dropGet .grpgetStore) (s.agent s.me) k.desc a = .ok s' →
         ∃ t, exec (.grpgetStore c f) s = .next t ∧ Writes s t 8 f.xd (k.desc.getD 17 0) ∧ t.mem = s'.mem)
     ∧ (a.toNat ≤ 23 → readyGet s .grpgetWord = none → queuedGet s .grpgetWord = true → StopsWith (.grpgetWord c f) s (.wait wait))
     ∧ (a.toNat ≤ 23 → queuedGet s .grpgetWord = false → trapCol (s.core (keyCore s.me)) (s.here.uid.getD 0) = none →
         (s.core (keyCore s.me)).kq.length < 64 →
         ∃ t, exec (.grpgetWord c f) s = .next t ∧ (t.bank s.me).pc = s.here.pc ∧ (t.bank s.me).wait = some wait
           ∧ queuedGet t .grpgetWord = true ∧ SameMem s t))

/-- R286, R293 to R296, R309: the control form at the head of a core's queue is performed, and its result goes to x[xd].
grpset writes the entry from its image, with N, HELD, STAT and SEED its own, and waits while the entry is another's or has
an operation in flight; claim and release set and clear HELD and the bank's hold; qparm changes the one field that OP names;
grpget takes the entry's words along; rndwait leaves the head at once and completes when its result is known. No other field
of the entry changes. An operation leaves the head with its entry as it stands; a kresume with nothing to go on completes at
once where no operation precedes it. R309: what rndwait returns: nothing while ROUND has not passed the tag; then DONE with
the fate of this member's contribution, the number of on-time contributions of the round and the number folded into it;
nothing yet for a contribution whose fate is open. -/
def Obligations.ControlFormSteps : Prop :=
  (∀ (s : State) (core : Nat) (k : KCmd), s.works core = true → k.core = core → keyCore k.bank = core → (s.core core).kq = [k] →
     (s.bank k.bank).uid = some k.uid →
     let e := (s.ctx k.ctx).entry k.ge
     let v := k.xa
     let bank0 := s.bank k.bank
     let after (t : State) : Entry := (t.ctx k.ctx).entry k.ge
     let done (x : Word) (t : State) : Prop := exec (.controlFormPerformed core) s = .next t ∧ (t.core core).kq = []
       ∧ (t.bank k.bank).rx k.xd.toNat = (if k.xd = 0 then 0 else x)
       ∧ (∀ r, r ≠ k.xd.toNat → (t.bank k.bank).rx r = bank0.rx r) ∧ SameMem s t ∧ SameSem s t
     let words (t : State) (but : List Nat) : Prop := ∀ w, w ∉ but → (after t).getD w 0 = e.getD w 0
     -- bits hi to lo of word 16 become x, and the rest of the entry stays
     let field (t : State) (hi lo x : Nat) : Prop := words t [16] ∧ bits (after t).w16 hi lo = x
       ∧ ∀ i, ¬(lo ≤ i ∧ i ≤ hi) → (after t).w16.getLsbD i = e.w16.getLsbD i
     let free := e.held = false ∨ bank0.hold.getLsbD k.ge = true
     (k.issued = false → bank0.crew = none → gapPassed s k.bank .col k.ctl = true →
       (k.ge < 256 → k.kind = .grpsetWrite → k.desc.length = 24 → free → opInFlight s k.ctx k.ge = false →
           ∃ t, done (k.desc.getD 17 0) t ∧ (t.bank k.bank).hold = setBit bank0.hold k.ge true
             ∧ (∀ w, w < 23 → w ≠ 16 → w ≠ 19 → (after t).getD w 0 = k.desc.getD w 0)
             ∧ (after t).getD 19 0 = 0 ∧ (after t).getD 23 0 = k.seed ∧ (after t).held = true
             ∧ bits (after t).w16 44 34 = (ranksOf (Entry.members k.desc)).length
             ∧ bits (after t).w16 32 0 = bits (Entry.w16 k.desc) 32 0 ∧ bits (after t).w16 63 45 = bits (Entry.w16 k.desc) 63 45)
       ∧ (k.kind = .grpsetWrite → ¬free ∨ opInFlight s k.ctx k.ge = true → exec (.controlFormPerformed core) s = .next s)
       ∧ (k.ge < 256 → k.kind = .grpsetClaim → free →
           ∃ t, done (e.getD 17 0) t ∧ (t.bank k.bank).hold = setBit bank0.hold k.ge true ∧ field t 33 33 1)
       ∧ (k.kind = .grpsetClaim → ¬free → exec (.controlFormPerformed core) s = .next s)
       ∧ (k.ge < 256 → k.kind = .grpsetRelease → bank0.hold.getLsbD k.ge = true →
           ∃ t, done (e.getD 17 0) t ∧ (t.bank k.bank).hold = setBit bank0.hold k.ge false ∧ field t 33 33 0)
       ∧ (k.kind = .grpsetRelease → bank0.hold.getLsbD k.ge = false →
           ∃ t, done (e.getD 17 0) t ∧ (t.bank k.bank).hold = bank0.hold ∧ words t [])
       ∧ (k.ge < 256 → k.kind = .qparm →
           (k.op = 0 → v.toNat < 2048 → ∃ t, done (w64 e.k) t ∧ field t 20 10 v.toNat)
           ∧ (k.op = 1 → v.toNat < 16 → ∃ t, done (w64 e.lag) t ∧ field t 24 21 v.toNat)
           ∧ (k.op = 2 → v.toNat < 64 → ∃ t, done (w64 (e.wrule + 4 * e.wsh)) t ∧ field t 30 25 v.toNat)
           ∧ (k.op = 3 → ∃ t, done (e.getD 19 0) t ∧ words t [19] ∧ (after t).getD 19 0 = 0)
           ∧ (k.op = 4 → v.toNat < 4 → ∃ t, done (w64 e.mode) t ∧ field t 32 31 v.toNat)
           ∧ (k.op = 5 → v.toNat < 2 → ∃ t, done (if e.thr then 1 else 0) t ∧ field t 45 45 v.toNat))
       ∧ (k.kind = .slackr → ∃ t, done (slackWord s k.ctx k.ge k.op k.xa) t)
       ∧ (k.kind = .grpgetStore ∨ k.kind = .grpgetWord → ∃ t, exec (.controlFormPerformed core) s = .next t
           ∧ (t.core core).kq = [{ k with issued := true, performed := true, desc := e }] ∧ SameMem s t)
       ∧ (k.kind = .rndwait → ∃ t, exec (.controlFormPerformed core) s = .next t
           ∧ (t.core core).kq = [{ k with issued := true, performed := true }] ∧ SameMem s t)
       ∧ (k.kind.isOp = true → (k.ctl.v = 0 → rangeOk (s.core core) k.bank k.uid k.seq (some none) = true) →
           (k.kind ≠ .kresume →
             ∃ t, exec (.engineIssue core .col) s = .next t ∧ (t.core core).kq = [{ k with issued := true, entry := e }] ∧ SameMem s t)
           ∧ (k.kind = .kresume → ∃ t, exec (.engineIssue core .col) s = .next t ∧ (t.core core).kq = [] ∧ SameMem s t)))
     ∧ (k.issued = true → k.kind = .rndwait → k.performed = true →
         (∀ x, rndResult s (keyPart core) e v.toNat = some x → ∃ t, done x t)
         ∧ (rndResult s (keyPart core) e v.toNat = none → exec (.controlFormPerformed core) s = .next s)))
  ∧
  (∀ (s : State) (part : Nat) (e : Entry) (tag : Nat),
     let closed := tag < (e.getD 18 0).toNat
     (¬closed → rndResult s part e tag = none)
     ∧ (closed → s.groupIx part e.gid e.members = none →
         rndResult s part e tag = (if contributes s part e tag then none else some (w64 (2 ^ 63 + 4 * 2 ^ 60))))
     ∧ ∀ gi g r, closed → s.groupIx part e.gid e.members = some (gi, g) → SMap.find g.rounds tag = some r →
       let counts := r.ontime.length * 2 ^ 45 + r.folds.length * 2 ^ 34
       let mine := ∃ c ∈ r.ontime, c.rank = e.own
       let settled := g.fates.find? fun f => f.1 == e.own && f.2.1 == tag
       let fate (own d : Nat) : Prop := rndResult s part e tag = some (w64 (2 ^ 63 + own * 2 ^ 60 + d * 2 ^ 56 + counts))
       (mine → fate 0 0)
       ∧ (¬mine → e.own ∈ r.refused → fate 3 0)
       ∧ (∀ x d, ¬mine → e.own ∉ r.refused → settled = some x → x.2.2 = some d → fate 1 d)
       ∧ (∀ x, ¬mine → e.own ∉ r.refused → settled = some x → x.2.2 = none → fate 2 0)
       ∧ (¬mine → e.own ∉ r.refused → settled = none → contributes s part e tag = true → rndResult s part e tag = none)
       ∧ (¬mine → e.own ∉ r.refused → settled = none → contributes s part e tag = false → fate 4 0))

/-- R290, R300, R301, R304 to R308, R314, R318: the traffic behind an operation: a contribution is sent with the elements
that its source holds; one that reaches the arbiter is taken up; a closed round is reduced and its result kept; a member's
elements are written and its operation completes; a close notice raises the member's ROUND; an armed work entry fires,
raises its counters and completes; members publish SLACK and STEP every 64 µs, and σ moves by at most one step; the reset of
a port processor loses nothing. That a contribution waits for the ROUND window is log 20, and the ticks of R318 are log 21,
the model's readings. R300, R305, R306, R308, R310, R316, R317: what the arrival of a contribution does. A duplicate changes
nothing. One for a round that has Ended, or that no round of the group can serve, stops its operation. One that differs from
the first in what it carries stops its operation with cause 37, refused. One that comes late to a round still kept is
discarded at once where WRULE is 2, LAG is 0 or its window has passed, and else pends. One of the open round counts for its
quorum; the one that completes it closes the round, ROUND passes on, and every member gets a close notice. That the digest
of a broadcast is compared as it is, is log 20, the model's reading. R298, R301, R302, R307, R308: the elements of a round's
result. An allgat puts each member's elements at its ordinal's place; a bcast gives the root's; a redsc gives each member
its own segment. A round of an INT32 reduction with no fold is the sum of its members' elements modulo 2^32, their largest
or their smallest. Two FP32 members' sum, and their mean, round to nearest once in the node, and the mean once more in its
quotient. A late FP32 member that folds into another's place is weighted first. The key of stochastic requantisation is the
model's choice where TAGs differ (log 35). -/
def Obligations.CollectiveTraffic : Prop :=
  (∀ (s : State) (core bank ch n : Nat),
     let completes (t u : State) (bk tl : Nat) : Prop := (t.core core).channel bk ch = []
       ∧ (t.bank bk).timeline (6 + ch) = ((u.bank bk).timeline (6 + ch)).complete tl
     (∀ k d s1 bs s2, s.works core = true → nextOp s core (bankKey core bank) ch = some k → k.kind.isGroup = true →
         portReady s (keyPart core) (s.remoteGroup k.ctx (Entry.members k.entry)) = true → earlierUnsent s k = false →
         (∀ g, s.groupIx (keyPart core) (Entry.gid k.entry) (Entry.members k.entry) = some g → ∀ d, g.2.dead = some d → k.tag < d) →
         k.tag < (((s.ctx k.ctx).entry k.ge).getD 18 0).toNat + 4 →
         let ag := s.agentFor k.bank k.uid true
         let len := sourceBytes k d
         readDesc s ag k.xa 8 = (d, s1, none) → groupDescOk s1 ag k d = true →
         readPieces (s1.copyWriteback ag (d.getD 0 0, len) (d.getD 1 0, resultBytes k d)) ag (pieces len (d.getD 0 0) len) = (bs, s2, none) →
         ∃ t, exec (.contributionSend core bank ch) s = .next t ∧ (∀ a, Memory.read t.mem a = Memory.read s2.mem a)
           ∧ t.flights = s2.flights ++ [k.contribution d (elemsOf (etWidth k.et / 8) bs) s.tick])
     ∧ (∀ c gi g, s.flights[n]? = some c →
         (∀ d ∈ s.flights.take n, ¬(d.part = c.part ∧ d.gid = c.gid ∧ d.members = c.members ∧ d.rank = c.rank)) →
         s.findGroup c = some (gi, g) →
         exec (.contributionArrival n) s = .next (arrive { s with flights := s.flights.eraseIdx n } gi g c))
     ∧ (∀ gi tag g r first, SMap.find s.groups gi = some g → SMap.find g.rounds tag = some r → r.first = some first →
         portReady s g.part (s.remoteGroup first.ctx g.members) = true → tag ≠ g.openTag → r.st = .closed →
         ∃ t g' r', exec (.roundReduction gi tag) s = .next t ∧ SMap.find t.groups gi = some g' ∧ SMap.find g'.rounds tag = some r'
           ∧ (r'.st = .reduced ∨ r'.st = .retained ∨ r'.st = .ended)
           ∧ r'.result = (roundResult s g tag r first).map (fun x => (x.1, x.2.1))
           ∧ t.mem = s.mem ∧ t.banks = s.banks ∧ t.cores = s.cores)
     ∧ (∀ gi tag rank g r first k s', SMap.find s.groups gi = some g → SMap.find g.rounds tag = some r →
         s.memberSent g.part g.gid g.members rank tag = some k → portReady s g.part (s.remoteGroup k.ctx g.members) = true →
         r.first = some first → (r.st = .reduced ∨ r.st = .retained) → noResult g r tag rank = none →
         k.stop = none → k.fault = none → s.works k.core = true →
         writeElems s (s.agentFor k.bank k.uid true) (k.bank, 6 + k.ch, k.tl) (k.desc.getD 1 0) (etWidth first.outf / 8)
           (toDeliver k first g r rank) = (s', none) →
         ∃ t g', exec (.resultDelivery gi tag rank) s = .next t ∧ t.mem = s'.mem
           ∧ SMap.find t.groups gi = some g' ∧ rank ∈ (g'.round tag).delivered
           ∧ (k.core = core → k.ch = ch → (s'.core core).kq = [k] → completes t s' k.bank k.tl))
     ∧ (∀ m x, s.notices[n]? = some m → s.memberEntry m.part m.gid m.members m.rank = some x →
         s.memberSent m.part m.gid m.members m.rank m.tag = none → m.tag + 1 < 2 ^ 64 →
         (((s.ctx x.1).entry x.2).getD 18 0).toNat ≤ m.tag →
         ∃ t, exec (.closeNotice n) s = .next t ∧ t.notices = s.notices.eraseIdx n
           ∧ ((t.ctx x.1).entry x.2).getD 18 0 = w64 (m.tag + 1) ∧ t.mem = s.mem ∧ t.cores = s.cores)
     ∧ (∀ k u e, s.works core = true → nextOp s core (bankKey core bank) ch = some k → k.kind.isGroup = false → k.core = core →
         portReady s (keyPart core) false = true → s.workPath k k.desc = true → k.desc ≠ [] → workFires s k.ctx k.desc = true →
         s.rankEntry k.ctx (weRank k.desc) = some e →
         let ag := s.agentFor k.bank k.uid true
         let target : Agent := { ag with ctx := rankCtx e, key := 64 * (s.ctx (rankCtx e)).part.toNat + rankCore e }
         firePieces ag (if rankModule e = 0 then some target else none) k.desc
           (s.writebackSectors ag.key (spanSectors s ag (k.desc.getD 0 0, weLen k.desc))
             (if rankModule e = 0 then spanSectors s target (k.desc.getD 1 0, weLen k.desc) else []))
           k.done (targetPieces k.desc k.done) = .done u →
         ∃ t, exec (.workEntryFire core bank ch) s = .next t ∧ t.mem = u.mem
           ∧ ∀ w ∈ t.work, w.core = core → w.bank = k.bank → w.ch = ch → w.tl = k.tl → w.fired = true)
     ∧ (∀ w, s.works core = true →
         s.work.find? (fun w => w.core == core && w.bank == bankKey core bank && w.ch == ch && w.fired) = some w →
         -- the words that its entry raises: RCNT of a target in this module, and LCNT
         let up (i ctx : Nat) (on : Bool) : Option Nat :=
           if (w.ds.getD i 0).getLsbD 32 && on then (semKey s ctx ((w.ds.getD i 0).setWidth 32)).join else none
         let e := s.rankEntry w.ctx (weRank w.ds)
         let raised := (up 4 ((e.map rankCtx).getD 64) (e.any fun e => rankModule e == 0)).toList ++ (up 5 w.ctx true).toList
         ∃ t, exec (.workEntryComplete core bank ch) s = .next t ∧ t.work = s.work.erase w ∧ SameMem s t
           ∧ (∀ k, t.semRead k = s.semRead k + BitVec.ofNat 64 (raised.count k))
           ∧ (∀ k, (s.core core).kq = [k] → k.bank = bankKey core bank → k.core = core → k.ch = ch → k.tl = w.tl → k.kind.isOp = true →
               completes t s k.bank k.tl))
     ∧ (s.running = true → SMap.get 0 s.modl.last 1 + 64000 ≤ s.cycle →
         ∃ t, exec .slackPublication s = .next t ∧ SMap.get 0 t.modl.last 1 = s.cycle ∧ t.mem = s.mem ∧ t.banks = s.banks
           ∧ ∀ c x g, SMap.find s.ctxs c = some x → g < 256 → (x.entry g).thr = true →
             let old := SMap.get Slack.reset x.thr g
             let new := SMap.get Slack.reset (t.ctx c).thr g
             let leads := (old.samples.filter fun y => decide (s.tick < y.1 + 250)).map (·.2)
             let q := s.quad (s.quadOf (64 * x.part.toNat + ((s.rankEntry c (x.entry g).own).map rankCore).getD 0))
             new.slack = BitVec.ofNat 16 (min (leads.foldl (· + ·) 0 / leads.length) 65535)
             ∧ new.step = BitVec.ofNat 5 (if q.droop || q.thermal then old.sigma / 2 else old.sigma)
             ∧ (new.sigma = old.sigma ∨ new.sigma = max 8 (old.sigma - 1) ∨ new.sigma = min 16 (old.sigma + 1)))
     ∧ (∀ port, ∃ t, exec (.portProcessorReset port) s = .next t ∧ t.flights = s.flights ∧ t.work = s.work ∧ t.groups = s.groups
         ∧ t.mem = s.mem ∧ t.banks = s.banks ∧ t.cores = s.cores))
  ∧
  (∀ (s : State) (gi : Nat) (g : Group) (c : Contribution),
     let r := g.round c.tag
     let t := arrive s gi g c
     let op := s.memberOp g.part g.gid g.members c.rank c.tag
     let kept (u : State) : Prop := u.mem = s.mem ∧ SameSem s u
     let fresh := knownContribution g c = false ∧ g.dead = none
     let still := g.pending = [] ∧ g.gone = [] ∧ g.fault = none
     (knownContribution g c = true → t = s.setGroup gi g)
     ∧ (∀ d, knownContribution g c = false → g.dead = some d → d ≤ c.tag → op = none → t = s.setGroup gi g)
     ∧ (∀ d k, knownContribution g c = false → g.dead = some d → d ≤ c.tag → op = some k → t = (s.stopOp k 39 0).setGroup gi g)
     ∧ (fresh → c.tag < g.openTag → r.st = .ended ∨ r.first = none → kept t
         ∧ ∃ g', SMap.find t.groups gi = some g' ∧ c.rank ∈ (g'.round c.tag).missed ∧ (c.rank, c.tag, none) ∈ g'.fates)
     ∧ (∀ f, fresh → still → c.tag = g.openTag → r.first = some f → r.st = .opened → r.record = none → parMode f = 0 →
         r.ontime.length < parK f g.members → parK f g.members ≤ (ranksOf g.members).length → carriedEq f c = false →
         kept t ∧ ∃ g', SMap.find t.groups gi = some g' ∧ c.rank ∈ (g'.round c.tag).refused ∧ g'.openTag = g.openTag)
     ∧ (∀ f, fresh → still → c.tag < g.openTag → r.st ≠ .ended → r.st ≠ .waiting → r.first = some f → carriedEq f c = true →
         (g.round g.openTag).first = none →
         kept t ∧ ∃ g', SMap.find t.groups gi = some g' ∧ g'.openTag = g.openTag
           ∧ (if parWrule f = 2 ∨ parLag f = 0 ∨ c.tag + parLag f < g.openTag
               then g'.pending = [] ∧ (c.rank, c.tag, none) ∈ g'.fates else g'.pending = [c]))
     ∧ (∀ f, fresh → still → c.tag = g.openTag → r.first.getD c = f → r.record = none → parMode f = 0 → carriedEq f c = true → c.kind ≠ .bcast →
         parK f g.members ≤ (ranksOf g.members).length →
         (r.ontime.length + 1 < parK f g.members →
           kept t ∧ ∃ g', SMap.find t.groups gi = some g' ∧ g'.openTag = g.openTag ∧ (g'.round c.tag).ontime = r.ontime ++ [c]
             ∧ (g'.round c.tag).first = some f)
         ∧ (r.ontime.length + 1 = parK f g.members → (g.round (c.tag + 1)).first = none →
           kept t ∧ t.notices = s.notices ++ (ranksOf g.members).map (fun m => ⟨g.part, g.gid, g.members, m, c.tag⟩)
             ∧ ∃ g', SMap.find t.groups gi = some g' ∧ g'.openTag = g.openTag + 1 ∧ (g'.round c.tag).ontime = r.ontime ++ [c]
               ∧ (g'.round c.tag).folds = [] ∧ (g'.round c.tag).st = .closed)))
  ∧
  (∀ (s : State) (g : Group) (tag : Nat) (r : Round) (first : Contribution),
     let ms := ranksOf g.members
     let at' (i : Nat) : Option Nat := (SMap.find (roundResult s g tag r first) i).map (·.1)
     let elem' (m i : Nat) : Option Nat := (r.ontime.find? fun c => c.rank == m).bind (·.elems[i]?)
     let signed : List Int := ms.filterMap fun m => (elem' m 0).map (toSigned 32)
     let fp (a b : Nat) (w : Nat) : Nat :=
       let v := (roundTo .fp32 (Machine.Num.add false (decodeNum .fp32 a) (decodeNum .fp32 b)).1 0 false 0).1
       (roundTo .fp32 (if w = 1 then decodeNum .fp32 v else (Machine.Num.div (decodeNum .fp32 v) (.fin false (w * 2 ^ 300) (2 ^ 300))).1) 0 false 0).1
     (∀ p m i, first.kind = .allgat → ms[p]? = some m → (∀ c ∈ r.ontime, c.elems.length ≤ first.nmax) →
         i < first.nmax → at' (p * first.nmax + i) = elem' m i)
     ∧ (∀ c i, first.kind = .bcast → r.ontime.find? (fun c => c.rank == c.nmax) = some c → at' i = c.elems[i]?)
     ∧ (∀ ord i v, first.kind = .redsc →
         let seg := (first.nmax + ms.length - 1) / ms.length
         (i, v) ∈ deliveryOf first ms.length ord r.result ↔ i < seg ∧ (ord * seg + i, v) ∈ r.result)
     ∧ (first.kind = .allred → 0 < first.nmax → first.et = 5 → first.outf = 5 → first.rm = 0 → r.folds = [] → (∀ c ∈ r.ontime, c.et = 5) → signed ≠ [] →
         (first.op = 0 → at' 0 = some (wrapN 32 (signed.foldl (· + ·) 0)))
         ∧ (first.op = 2 → at' 0 = some (wrapN 32 (signed.foldl max (-2 ^ 31))))
         ∧ (first.op = 3 → at' 0 = some (wrapN 32 (signed.foldl min (2 ^ 31 - 1)))))
     ∧ (∀ m0 m1 a b, first.kind = .allred → 0 < first.nmax → first.et = 0 → first.outf = 0 → first.rm = 0 → r.folds = [] → ms = [m0, m1] →
         r.ontime.length = 2 → (∀ c ∈ r.ontime, c.et = 0) → elem' m0 0 = some a → elem' m1 0 = some b → nanRule (presentOf r.ontime [] 0) = false →
         (first.op = 0 → at' 0 = some (fp a b 1)) ∧ (first.op = 1 → at' 0 = some (fp a b 2)))
     ∧ (∀ on c d a b x, first.op = 0 → first.et = 0 → c.et = 0 → on.et = 0 → on.elems[0]? = some a → c.elems[0]? = some b → parWrule first = 1 →
         floatEntry first (some on) (some (c, d)) 0 = x →
         let y := decodeNum .fp32 (roundTo .fp32 (Machine.Num.mul (.fin false 1 (2 ^ (parWsh first * d))) (decodeNum .fp32 b)).1 0 false 0).1
         (x.1.map (·.1)) = some (decodeNum .fp32 (roundTo .fp32 (Machine.Num.add false (decodeNum .fp32 a) y).1 0 false 0).1)))

/-! ### The scheduler and its answers (R199, R257 to R276, R330 to R346, R358 to R376) -/

/-- R28, R256, R263 to R266, R271, R274: an Empty bank pops the record that R265 chooses and starts it at its code with its
work identifier, frame and join handle; the next record is preloaded; an image is loaded; an aging step raises a record by
one level; the oldest tracker entry retires, and performs the join that its tail named. R265, R269, R284, R373: what an
Empty bank pops. Its candidates are the Eligible records of its context that may run on it: at the first pop those of its
core in LCMASK, in deterministic operation those whose placement it is, and afterwards those of its own bank. They are
ordered by effective priority, the moment at which it was reached, launch slot and work identifier; a re-run comes first. A
record comes before none that fits the rotating pool and is not to be avoided, unless it is the preloaded one. One of
priority 7 at the head that does not fit holds the bank. Nothing pops on a core that does not work, whose provisional log is
full or whose thermal move is due. That a core is avoided only where a cooler core's Empty bank fits the request is log 44,
the model's reading. -/
def Obligations.PopAndRetirement : Prop :=
  (∀ (s : State) (core bank : Nat),
     let bk := bankKey core bank
     (∀ ctx cd u tk, popChoice s bk = some (ctx, cd) → (keyBank bk = 1 → popChoice s (2 * core) = none) → cd.uid = some u →
         s.task u = some tk → tk.image = none → tk.stage = false →
         ∃ t, exec (.pop core bank) s = .next t ∧ (t.bank bk).uid = some u ∧ (t.bank bk).st = .running ∧ (t.bank bk).mode = .task
           ∧ (t.bank bk).pc = tk.code.setWidth 64 ∧ (t.bank bk).rx 10 = tk.wid ∧ (t.bank bk).rx 11 = tk.frame
           ∧ (t.bank bk).rx 12 = tk.jh.setWidth 64 ∧ (∀ r, r ≠ 10 → r ≠ 11 → r ≠ 12 → (t.bank bk).rx r = 0)
           ∧ (t.bank bk).tl = (s.bank bk).tl ∧ (t.task u).map (fun r => (r.st, r.home)) = some (.running, some bk) ∧ SameMem s t)
     ∧ (∀ ctx cd u tk, (s.bank bk).uid.isSome = true → s.preloaded bk = none → s.works core = true →
         s.ctxOfCore core = some ctx → (s.candidates ctx bk).head? = some cd → cd.uid = some u → s.task u = some tk → tk.stage = true →
         let ag := s.agentFor bk u true
         let room := 2048 - (s.core core).preload.foldl (fun n p => n + p.2.sectors.length) 0
         (tk.frame.toNat % 32 ≠ 0 →
           ∃ t, exec (.preload core bank) s = .next t ∧ t.preloaded bk = some ⟨u, tk.gen, [], true, false⟩ ∧ SameMem s t)
         ∧ ∀ s0 secs d s' bad, tk.frame.toNat % 32 = 0 →
             (pieces 96 tk.frame 96).foldl (stagePiece ag room) (s, [], none) = (s0, secs, none) →
             stagingDesc secs s0 ag tk (stagingCopy tk bk u 0 0 s.tick) = (d, s', none, bad) → bad = true ∨ copyEmpty d = true →
             ∃ t, exec (.preload core bank) s = .next t ∧ t.preloaded bk = some ⟨u, tk.gen, secs, bad, false⟩ ∧ t.mem = s'.mem)
     ∧ (∀ u tk im, (s.bank bk).st = .restoring → s.works core = true → (s.bank bk).uid = some u → s.task u = some tk →
         tk.image = some im → imageFree (s.core core) im u = true →
         ∃ t, exec (.imageLoaded core bank) s = .next t ∧ (t.bank bk).st = .running ∧ (t.bank bk).x = (s.bank bk).x
           ∧ (t.task u).map (·.image) = some none ∧ SameMem s t)
     ∧ (∀ u tk, s.task u = some tk → tk.stepDue (s.ctx tk.ctx).ageCycles s.cycle = true →
         ∃ t, exec (.ageStep u) s = .next t
           ∧ t.task u = some { tk with aged := tk.aged + 1, reached := tk.since + (tk.aged + 1) * (s.ctx tk.ctx).ageCycles }
           ∧ ∀ v, v ≠ u → t.task v = s.task v)
     ∧ (∀ e k, (s.core core).tracker.head? = some e → e.done (s.core core) = true → s.task e.uid = some k → e.join = none →
         ∃ t, exec (.retirement core) s = .next t ∧ (t.core core).tracker = (s.core core).tracker.tail
           ∧ (t.task e.uid).map (·.st) = some .retired
           ∧ (e.killed = false → (t.task e.uid).map (·.provisional) = some true) ∧ SameMem s t)
     ∧ (∀ e k h w, (s.core core).tracker.head? = some e → e.done (s.core core) = true → s.task e.uid = some k → e.join = some h →
         e.killed = false → semKey s k.ctx h = some (some w) → s.semRead w ≠ 0 →
         (∀ l, SMap.find (s.ctx k.ctx).launches k.lslot = some l → s.statusKey k.ctx l ≠ some w) →
         ∃ t, exec (.retirement core) s = .next t ∧ (t.core core).tracker = (s.core core).tracker.tail
           ∧ (t.task e.uid).map (·.st) = some .retired ∧ t.semRead w = s.semRead w - 1 ∧ SameMem s t))
  ∧
  ((∀ (s : State) (bk ctx : Nat) (c : Cand), popChoice s bk = some (ctx, c) →
     s.ctxOfCore (keyCore bk) = some ctx ∧ (s.bank bk).st = .empty ∧ s.works (keyCore bk) = true ∧ s.logFull (keyCore bk) = false
     ∧ s.moveDue (keyCore bk) = false ∧ c ∈ s.candidates ctx bk ∧ avoided s ctx bk c = false ∧ c.request ≤ s.freePool bk
     ∧ ((∃ p, s.preloaded bk = some p ∧ p.next = true ∧ c.uid = some p.uid)
       ∨ ∀ d ∈ s.candidates ctx bk, avoided s ctx bk d = false → d.before c = true → s.freePool bk < d.request ∧ d.e ≠ 7))
   ∧ (∀ (s : State) (bk ctx : Nat) (c : Cand), s.ctxOfCore (keyCore bk) = some ctx → (s.bank bk).st = .empty → s.works (keyCore bk) = true →
       s.logFull (keyCore bk) = false → s.moveDue (keyCore bk) = false → s.preloaded bk = none →
       (∀ e ∈ s.tasks, e.2.ctx = ctx → e.2.stepDue (s.ctx ctx).ageCycles s.cycle = false) →
       ((s.candidates ctx bk).filter fun c => !avoided s ctx bk c).head? = some c →
       (c.request ≤ s.freePool bk → popChoice s bk = some (ctx, c))
       ∧ (s.freePool bk < c.request → c.e = 7 → popChoice s bk = none))
   ∧ (∀ a b : Cand, a.rerun = b.rerun → (a.before b = true ↔
       b.e < a.e ∨ a.e = b.e ∧ (a.reached < b.reached ∨ a.reached = b.reached ∧ (a.slot < b.slot ∨ a.slot = b.slot ∧
         (a.wid.toNat < b.wid.toNat ∨ a.wid = b.wid ∧ a.uid.getD 0 < b.uid.getD 0)))))
   ∧ (∀ a b : Cand, a.rerun = true → b.rerun = false → a.before b = true ∧ b.before a = false)
   ∧ (∀ (l : Launch) (wid : Word) (bk : Nat),
       (mayRun l wid none bk = true ↔ l.lcmask.getLsbD (keyL (keyCore bk)) = true ∧ (l.det = true → l.placed wid = some (keyL (keyCore bk))))
       ∧ ∀ h, mayRun l wid (some h) bk = true ↔ h = bk)
   ∧ (∀ (s : State) (ctx bk u : Nat) (tk : Task) (l : Launch), (u, tk) ∈ s.tasks → tk.ctx = ctx → tk.st = .eligible →
       SMap.find (s.ctx ctx).launches tk.lslot = some l → l.killed = false → mayRun l tk.wid tk.home bk = true →
       candOfTask tk l u ∈ s.candidates ctx bk)
   ∧ (∀ (s : State) (ctx bk : Nat) (c : Cand), c ∈ s.candidates ctx bk →
       (∀ u, c.uid = some u → ∃ tk l, (u, tk) ∈ s.tasks ∧ tk.ctx = ctx ∧ tk.st = .eligible
           ∧ SMap.find (s.ctx ctx).launches tk.lslot = some l ∧ l.killed = false ∧ mayRun l tk.wid tk.home bk = true)
       ∧ (c.uid = none → ∃ l, (c.slot, l) ∈ (s.ctx ctx).launches ∧ l.killed = false ∧ l.ended = false ∧ l.made ≤ c.t ∧ c.t < l.total
           ∧ l.lcmask.getLsbD (keyL (keyCore bk)) = true)))

/-- R149, R199, R262, R266, R271: a wait of 1,024 cycles parks its bank, and the condition wakes it, the count of its
instruction's wait kept; a bank Parked for PARK_EVICT ticks, the victim of a pre-emption and the loser of a matrix deadlock
begin to save their task, whose GEN rises; the image saved, the bank is Empty and the record Eligible, or Waiting. The
victims are those of R266: for a record that becomes Eligible, a Running bank of lower base priority than the record's, the
lowest of its banks, none of which is Empty; for a record at priority 7 for AGE ticks, the bank whose task has run longest,
for AGE ticks too. -/
def Obligations.ParkAndPreemption : Prop :=
  ∀ (s : State) (core bank : Nat),
    let bk := bankKey core bank
    let saves (i : Instr) (b u : Nat) (tk : Task) (w : Option WaitCond) : Prop := ∃ t, exec i s = .next t ∧ (t.bank b).st = .saving
      ∧ (t.bank b).wait = w ∧ (t.bank b).x = (s.bank b).x ∧ (t.bank b).pc = (s.bank b).pc
      ∧ (t.task u).map (·.gen) = some (tk.gen + 1) ∧ SameMem s t
    (∀ cd, (s.bank bk).st = .running → (s.bank bk).wait = some cd → condHolds s cd = false → 1024 ≤ s.waited bk →
        ∃ t, exec (.park core bank) s = .next t ∧ (t.bank bk).st = .parked ∧ (t.bank bk).wait = some cd
          ∧ (t.bank bk).pc = (s.bank bk).pc ∧ (t.bank bk).x = (s.bank bk).x ∧ SameMem s t)
    ∧ (∀ cd, ((s.bank bk).st = .running ∨ (s.bank bk).st = .parked) → (s.bank bk).wait = some cd → s.works core = true →
        condHolds s cd = true →
        ∃ t, exec (.waitConditionMet core bank) s = .next t ∧ (t.bank bk).st = .running ∧ (t.bank bk).wait = none
          ∧ (t.bank bk).granted = cd.isSem ∧ (t.bank bk).pc = (s.bank bk).pc
          ∧ (t.bank bk).waitCount = (if (s.bank bk).st = .parked then (s.bank bk).waitCount else s.waited bk)
          ∧ (t.bank bk).x = (s.bank bk).x ∧ SameMem s t)
    ∧ (∀ ctx u tk, s.ctxOfCore core = some ctx → (s.bank bk).uid = some u → s.task u = some tk → imageRoom s ctx core u = true →
        ((s.bank bk).st = .parked → (s.bank bk).parkTick + (s.ctx ctx).parkEvict.toNat ≤ s.tick →
          (s.candidates ctx (2 * core) ≠ [] ∨ s.candidates ctx (2 * core + 1) ≠ []) →
          saves (.eviction core bank) bk u tk (s.bank bk).wait)
        ∧ ((∃ cd ∈ s.candidates ctx bk, victimLow s ctx (keyPart core) cd = some bk) → saves (.preEmption core bank) bk u tk none)
        ∧ (∀ cd, (s.candidates ctx bk).head? = some cd → victimLong s ctx (keyPart core) cd = some bk →
            saves (.preEmption core bank) bk u tk none))
    ∧ (∀ ctx part cd v, victimLow s ctx part cd = some v → cd.fresh = true ∧ v ∈ cd.banks s ctx part ∧ (s.bank v).st = .running
        ∧ s.bankPrio v < cd.prio ∧ ∀ b ∈ cd.banks s ctx part, (s.bank b).st ≠ .empty ∧ ((s.bank b).st = .running → s.bankPrio v ≤ s.bankPrio b))
    ∧ (∀ ctx part cd v, victimLong s ctx part cd = some v → cd.e = 7 ∧ cd.reached + (s.ctx ctx).ageCycles ≤ s.cycle
        ∧ v ∈ cd.banks s ctx part ∧ (s.bank v).st = .running ∧ (s.bank v).runAt + (s.ctx ctx).ageCycles ≤ s.cycle
        ∧ ∀ b ∈ cd.banks s ctx part, (s.bank b).st ≠ .empty ∧ ((s.bank b).st = .running → (s.bank v).runAt ≤ (s.bank b).runAt))
    ∧ (∀ u tk, (s.bank bk).st = .saving → (s.bank bk).uid = some u → s.task u = some tk → (s.core core).arrays = [] →
        (∀ m ∈ (s.core core).inFlight u, completable s m = false) →
        ∃ t, exec (.imageSaved core bank) s = .next t ∧ (t.bank bk).st = .empty ∧ (t.bank bk).uid = none
          ∧ (t.task u).map (fun r => (r.st, r.image.isSome))
              = some (if (s.bank bk).wait.isSome then .waiting else .eligible, true) ∧ SameMem s t)
    ∧ (∀ u v tu tv, (s.bank (2 * core)).uid = some u → (s.bank (2 * core + 1)).uid = some v → s.task u = some tu → s.task v = some tv →
        waitsOn s (s.core core) u v = true → waitsOn s (s.core core) v u = true →
        (s.bank (2 * core)).st = .running → (s.bank (2 * core + 1)).st = .running →
        (tu.prio < tv.prio → saves (.matrixDeadlockPreemption core) (2 * core) u tu none)
        ∧ (tv.prio ≤ tu.prio → saves (.matrixDeadlockPreemption core) (2 * core + 1) v tv none))

/-- R276, R330, R342: a due trap is taken before the next instruction, and CAUSE_BUDGET in task mode once the launch's
budget has ended; every tick boundary lowers each budget by its counted tasks, and a budget of 0 ends its launch: its Gated
and Eligible records are Retired. -/
def Obligations.BudgetAndTraps : Prop :=
  ∀ (s : State) (core bank : Nat),
    let bk := bankKey core bank
    (∀ d, (s.bank bk).st = .running → s.works core = true → (s.bank bk).dueOther = some d →
        exec (.trapDelivery core bank) s = .next (takeTrap (s.modBank bk fun b => { b with due := b.due.erase d }) bk d.cause d.tval))
    ∧ ((s.bank bk).st = .running → s.works core = true → (s.bank bk).dueOther = none → s.budgetDue bk = true →
        exec (.trapDelivery core bank) s = .next (takeTrap s bk 33 0))
    ∧ (∀ d, s.works core = true → (s.bank bk).replayDue = some d →
        let u := if (s.bank bk).st = .parked then s.passFresh bk else s
        exec (.replayReady core bank) s = .next (takeTrap (u.modBank bk fun b => { b with due := b.due.erase d }) bk 43 d.tval))
    ∧ (s.budgetTicks < s.tick → ∃ t, exec .budgetTick s = .next t ∧ t.budgetTicks = s.budgetTicks + 1 ∧ t.mem = s.mem
        ∧ t.banks = s.banks ∧ t.tasks = s.tasks
        ∧ ∀ ctx slot l, SMap.find (s.ctx ctx).launches slot = some l →
            SMap.find (t.ctx ctx).launches slot = some { l with budget := l.budget.map fun b => b - countedTasks s ctx slot })
    ∧ (∀ ctx slot l, SMap.find (s.ctx ctx).launches slot = some l → l.ended = false → l.budget = some 0 →
        ∃ t, exec (.budgetEnd ctx slot) s = .next t
          ∧ ∀ u r, s.task u = some r → r.ctx = ctx → r.lslot = slot → r.st = .gated ∨ r.st = .eligible →
              (t.task u).map (·.st) = some .retired)

/-- R332, R341, R342, R344, R346, R396: the host's answer reaches the bank that asked, and waits while the link is down; an
answered record leaves the fault buffer, and a denied access of a control core is a due trap of cause 41; a held fault posts
once there is room; a held request wakes the gated core, and is made again once it is awake; QTL takes the number of a kill
that has drained. -/
def Obligations.AnswersAndKills : Prop :=
  ∀ (s : State) (ctx : Nat),
    (∀ v tag, s.linkDown = true →
        exec (.hans ctx v) s = .next (s.holdHost (.writeBar (ctxOff ctx 0x0E0) v))
        ∧ exec (.fansRetry ctx tag) s = .next (s.holdHost (.writeBar (ctxOff ctx 0x0E8) (w64 (tag.toNat * 2 ^ 32))))
        ∧ exec (.fansDeny ctx tag) s = .next (s.holdHost (.writeBar (ctxOff ctx 0x0E8) (w64 (tag.toNat * 2 ^ 32 + 1)))))
    ∧ (∀ bk u v, s.linkDown = false → (s.ctx ctx).req = some ⟨some (bk, u)⟩ → (s.bank bk).uid = some u →
        ∃ t, exec (.hans ctx v) s = .next t ∧ (t.bank bk).hans = some v ∧ (t.ctx ctx).req = none ∧ (t.ctx ctx).hreq = 0
          ∧ t.mem = s.mem ∧ ∀ b, b ≠ bk → t.bank b = s.bank b)
    ∧ (∀ (tag : BitVec 32) fr, s.linkDown = false → s.unanswered ctx tag.toNat = some fr →
        exec (.fansRetry ctx tag) s = .next (s.answerFault fr false) ∧ exec (.fansDeny ctx tag) s = .next (s.answerFault fr true))
    ∧ (∀ (tag : BitVec 32) fr bk i u, s.linkDown = false → s.unanswered ctx tag.toNat = some fr → fr.waiters = [(.core, bk, i, u)] → (s.bank bk).uid = some u →
        (s.bank bk).due = [] →
        ∃ t, exec (.fansDeny ctx tag) s = .next t ∧ (∀ g ∈ t.faults, g.tag ≠ tag.toNat) ∧ (t.bank bk).due = [⟨41, fr.va⟩] ∧ t.mem = s.mem)
    ∧ (∀ f fs, s.heldFaults = f :: fs → s.faults.length < 4096 → (s.ctx f.ctx).fringn = 0 →
        (∀ g ∈ s.faults, f.joins g = false) →
        ∃ t, exec .heldFaultPost s = .next t ∧ t.heldFaults = fs ∧ t.msix = s.msix ++ [4 * f.ctx]
          ∧ t.faults = s.faults ++ [{ f with tag := s.faultGen % 2 ^ 20 * 2 ^ 12 + s.freeFault }])
    ∧ (∀ n k, (s.bank n).wait = some (.awake k) → (s.core k).gated = true → n ∉ (s.core k).remote →
        ∃ t, exec (.gatedResponse n) s = .next t ∧ (t.core k).remote = (s.core k).remote ++ [n] ∧ t.banks = s.banks ∧ t.mem = s.mem)
    ∧ (∀ n k, (s.bank n).wait = some (.awake k) → (s.core k).awake = true → s.works (keyCore n) = true →
        ∃ t, exec (.remoteResend n) s = .next t ∧ (t.bank n).st = .running ∧ (t.bank n).wait = none
          ∧ (t.bank n).pc = (s.bank n).pc ∧ n ∉ (t.core k).remote ∧ t.mem = s.mem)
    ∧ (∀ k, (s.core k).gated = true → (s.core k).remote ≠ [] →
        ∃ t, exec (.automaticWake k) s = .next t ∧ (t.core k).gated = false ∧ (t.core k).remote = [] ∧ t.banks = s.banks ∧ t.mem = s.mem)
    ∧ (∀ k ks, (s.ctx ctx).kills = k :: ks → s.killDrained ctx = true →
        ∃ t, exec (.qtlReached ctx) s = .next t ∧ (t.ctx ctx).qtl = k.q ∧ (t.ctx ctx).kills = ks
          ∧ (k.whole = true → (t.ctx ctx).cstate = 0) ∧ (k.whole = false → (t.ctx ctx).cstate = (s.ctx ctx).cstate))

/-- R358, R360 to R362, R370, R373 to R376: a seal completes its slot; a core whose power is back resumes its epoch or,
without a slot pair, has lost its state; an uncorrectable error is pending for its task; a passed scan empties a core's log
of the entries made up to its begin; a check-mode signature that agrees settles an entry. That a core outside every grant
comes up with zeroed units (log 28), that a context restored by the host resumes once it runs (log 28), and that a scan is a
step that begins it and one, 200,000 cycles later, that ends it (log 29) are the model's readings. -/
def Obligations.SealsAndChecks : Prop :=
  ∀ (s : State) (core : Nat),
    (∀ x, s.seals.find? (fun x => x.core == core) = some x → (s.core core).down = false → (s.core core).halted = false →
        ∃ t, exec (.sealComplete core) s = .next t ∧ t.slot core x.slot = (s.slot core x.slot).finished ∧ t.seals = s.seals.erase x
          ∧ t.mem = s.mem)
    ∧ ((s.core core).down = true → (s.core core).halted = false →
        (s.grantee core = none → (s.core core).moduleLost = false → ∃ t, exec (.resumption core) s = .next t
            ∧ t.core core = { (s.core core).kept with pace := (s.core core).pace }
            ∧ t.bank (2 * core) = Bank.reset ∧ t.bank (2 * core + 1) = Bank.reset ∧ t.mem = s.mem)
        ∧ (∀ ctx, s.grantee core = some ctx → (s.ctx ctx).cstate ≠ 1 → (s.core core).shadowed = true →
            s.refillWaits core ctx = false → exec (.resumption core) s = .next (s.resume core ctx))
        ∧ (∀ ctx, s.grantee core = some ctx → (s.ctx ctx).cstate ≠ 1 → (s.core core).shadowed = false →
            exec (.resumption core) s = .next (s.lost core ctx 0)))
    ∧ (∀ u va w tk, s.task u = some tk → tk.st ≠ .retired → tk.st ≠ .retiring →
        ∃ t, exec (.uncorrectableError u va w) s = .next t ∧ t.task u = some { tk with errs := tk.errs ++ [(va, w)] }
          ∧ t.banks = s.banks ∧ 4 * tk.ctx + 3 ∈ t.msix)
    ∧ (s.modl.boot = 6 → s.modl.mpwr = 0 →
        (∀ p turn passed, s.modl.scanning = none → s.scanTarget = some (p, turn) →
          ∃ t, exec (.scan passed) s = .next t ∧ t.modl.scanning = some (p, s.cycle, turn))
        ∧ ∀ p began turn, s.modl.scanning = some (p, began, turn) → began + 200000 ≤ s.cycle →
          ∃ t, exec (.scan true) s = .next t ∧ t.modl.scanning = none ∧ (t.physCore p).outOfService = false
            ∧ (t.physCore p).log = (s.physCore p).log.filter (fun e => decide (began < e.at0)) ∧ t.mem = s.mem ∧ t.banks = s.banks)
    ∧ (∀ p n q sig e, (s.physCore p).log[n]? = some e → e.failed = true → e.s2 = none → s.entryLives e = true →
        s.checkRuns p e.uid q = true →
        (sig = e.sig → ∃ t, exec (.checkModeCompletion p n q sig) s = .next t ∧ ∀ x ∈ (t.physCore p).log, x.uid ≠ e.uid)
        ∧ (sig ≠ e.sig → ∃ t, exec (.checkModeCompletion p n q sig) s = .next t ∧ t.mem = s.mem ∧ t.tasks = s.tasks
            ∧ { e with s2 := some (sig, q) } ∈ (t.physCore p).log))

/-- R11, R31, R36, R360, R366 to R369, R402, R406: a core reset takes the state of both banks but their counters and claims,
and the core's but its pacing registers, raises its suspect score, and leaves all memory but its own areas; a second die
reset within 100 ms is a package reset; a unit whose watchdog has counted 2^20 cycles in which it had work and waited on
nothing outside itself is reset by it, a control core with its whole core, and no other is; an alarm resets its unit, and
one of a core under scan fails the scan; losing compute power takes a core's pacing registers too; losing lehr power halts
the cores of a quadrant; the loss of module input leaves the lehr's slots and host memory. Without the compute domains up
none of these steps does anything (but the input loss). That a core's claims of group entries stand until it resumes (log
28), what the watchdogs count, that PORT alarms name their port processor and alarms from number 256 on the core under scan
(log 29), are the model's readings. -/
def Obligations.ResetsAndLosses : Prop :=
  ∀ (s : State) (core die quad : Nat),
    let p := s.physOf core
    let lost (t : State) (ck : Nat) : Prop := (s.core ck).gated = false → (t.core ck).down = true
    let engine (e : Engine) : Prop := e = .vec ∨ e = .mat ∨ e = .copy
    let inside (start n a : Nat) : Prop := start ≤ a ∧ a < start + n
    (s.running = true →
      ((s.core core).gated = false → p < 72 → (s.physCore p).score < 2 →
          ∃ t, exec (.coreReset core) s = .next t ∧ t.bank (2 * core) = (s.bank (2 * core)).away
            ∧ t.bank (2 * core + 1) = (s.bank (2 * core + 1)).away ∧ (t.core core).down = true
            ∧ (t.core core).pace = (s.core core).pace ∧ (t.physCore p).score = (s.physCore p).score + 1
            ∧ ∀ a, ¬inside (spadLoc core 0) (2 ^ 23) a → ¬inside (imemLoc core 0) (2 ^ 18) a → ¬inside (microLoc core 0) (2 ^ 15) a →
                Memory.read t.mem a = Memory.read s.mem a)
      ∧ (core < 256 →
          exec (.parityAlarm core .control) s = .next (s.resetCore core)
          ∧ ∀ e, engine e ∨ e = .port →
              exec (.parityAlarm core e) s = .next (s.alarmEngine core e) ∧ exec (.protocolAlarm core e) s = .next (s.alarmEngine core e))
      ∧ (∀ q began turn e, s.modl.scanning = some (q, began, turn) →
          exec (.parityAlarm (q + 256) e) s = .next (s.endScan q false) ∧ exec (.protocolAlarm (q + 256) e) s = .next (s.endScan q false))
      ∧ (die < 256 → exec (.protocolAlarm die .die) s = .next (s.resetDie die))
      ∧ ((∀ r ∈ s.modl.dieResets, r.2 + 100000000 < s.cycle) →
          ∃ t, exec (.dieReset die) s = .next t ∧ t.modl.linkUp = s.modl.linkUp ∧ ∀ ck ∈ s.dieCores die, lost t ck)
      ∧ ((∃ r ∈ s.modl.dieResets, s.cycle ≤ r.2 + 100000000) →
          ∃ t, exec (.dieReset die) s = .next t ∧ t.modl.linkUp = false ∧ ∀ ck ∈ s.coreKeys, lost t ck)
      ∧ (∃ t, exec .packageReset s = .next t ∧ t.modl.linkUp = false ∧ ∀ ck ∈ s.coreKeys, lost t ck)
      ∧ (∃ t, exec .conventionalReset s = .next t ∧ t.modl.linkUp = false ∧ ∀ ck ∈ s.coreKeys, lost t ck)
      ∧ (∃ t, exec (.computeDomainLoss quad) s = .next t
          ∧ ∀ ck ∈ s.coreKeys, s.quadOf ck = quad → s.served ck = true → lost t ck ∧ ((s.core ck).gated = false → (t.core ck).pace = []))
      ∧ (∃ t, exec (.lehrDomainLoss quad) s = .next t ∧ (t.quad quad).lehr = true ∧ t.mem = s.mem ∧ t.banks = s.banks
          ∧ ∀ ck ∈ s.coreKeys, s.quadOf ck = quad → (t.core ck).halted = true)
      ∧ (∃ t, exec (.lehrPowerReturn quad) s = .next t ∧ (t.quad quad).lehr = false ∧ t.mem = s.mem ∧ t.banks = s.banks
          ∧ ∀ ck ∈ s.coreKeys, s.quadOf ck = quad → (s.quad quad).thermalOff = false → s.modl.mpwr = 0 → (t.core ck).halted = false))
    ∧ (s.running = false → ∀ e, ∀ i ∈ [Instr.coreReset core, .dieReset die, .packageReset, .conventionalReset, .computeDomainLoss quad,
          .lehrDomainLoss quad, .lehrPowerReturn quad, .parityAlarm core e, .protocolAlarm core e], exec i s = .next s)
    ∧ (∀ e, engine e → (2 ^ 20 ≤ (s.core core).worked e →
          exec (.watchdog core e) s = .next ((s.alarmEngine core e).stampMark core (engineNum e)))
        ∧ ((s.core core).worked e < 2 ^ 20 → exec (.watchdog core e) s = .next s))
    ∧ (2 ^ 20 ≤ (s.core core).worked .control → exec (.watchdog core .control) s = .next ((s.resetCore core).stampMark core 0))
    ∧ ((s.core core).worked .control < 2 ^ 20 → exec (.watchdog core .control) s = .next s)
    ∧ (∀ n c e, SMap.find s.cores core = some c → e ≠ .die →
        ((s.countWork n).core core).worked e = c.worked e
          + (if s.engineBusy core e then ({ s with cycle := s.cycle + n } : State).coreClock core - s.coreClock core else 0))
    ∧ (∃ t, exec .moduleInputLoss s = .next t ∧ t.modl = { Modl.reset with lowFrom := s.modl.lowFrom } ∧ t.slots = s.slots ∧ t.ctxs = []
        ∧ t.banks = [] ∧ t.tasks = []
        ∧ ∀ a, Memory.read t.mem a = (if 2 ^ 64 ≤ a ∧ a < 2 ^ 65 then Memory.read s.mem a else Memory.read [] a))
    ∧ (s.modl.boot = 6 → s.modl.rollp ≠ 0 → s.periodDue 3 s.modl.rollp.toNat s.rollUnits.length = true →
        (∀ r ∈ s.modl.resets, r.2.2 + 1000000 < s.cycle) →
        let u := (s.rollUnits.find? fun u => decide (s.modl.roll ≤ u)).getD (s.rollUnits.headD 0)
        ∃ t, exec .rollingReset s = .next t ∧ t.modl.roll = (u + 1) % 232 ∧ SMap.get 0 t.modl.last 3 = s.cycle ∧ t.mem = s.mem)

/-! ### Logical core map, clocks, heat and power (R19, R282 to R284, R380, R390, R403 to R405) -/

/-- R19, R282 to R284, R380: a hot logical core begins to move to a cooler spare when no task is resident, or at its
deadline, and a move in progress ends with the core on its spare; a free physical core takes the next logical core due; a
droop halves its quadrant until the hold time has passed, counted from the last trip (the model's choice: log entry 31);
allowances are updated every 16 µs. R42, R390, R403: a stack refreshes for 350 cycles from each of its moments, which lie
3,900 cycles apart, and from the midpoint between two of them where REFX2 was 1 then; accesses of the host that met the
refresh go on in their order; the scrub leaves every semaphore word; input power above the cap halves the lowest quadrant
not yet halved, and below 95 % restores the highest. -/
def Obligations.MapClocksRefreshAndCap : Prop :=
  (∀ (s : State) (core phys quad : Nat),
     (∀ p, (s.core core).allow.getLsbD 62 = true → s.works core = true → s.vacant core = true → (s.core core).moving = none →
         s.coolerSpare core = some p → ∃ t, exec (.thermalMove core) s = .next t ∧ (t.core core).moving = some p)
     ∧ (∀ p, (s.core core).moving = some p →
         ∃ t, exec (.thermalMove core) s = .next t ∧ t.physOf core = p ∧ (t.core core).moving = none ∧ t.mem = s.mem ∧ t.banks = s.banks)
     ∧ (∀ p t0 ctx, (s.core core).allow.getLsbD 62 = true → s.works core = true → (s.core core).rotateTick = some t0 →
         s.grantee core = some ctx → t0 + (s.ctx ctx).ageTicks ≤ s.tick → s.coolerSpare core = some p →
         ∃ t, exec (.rotateDeadline core) s = .next t ∧ (t.core core).moving = some p)
     ∧ (∀ i, phys < 72 → s.inService phys = true → s.nextDue (phys / 18) (s.quad (phys / 18)).rotNext = some i →
         s.coreOn phys = none →
         ∃ t, exec (.rotationSlice phys) s = .next t ∧ t.physOf (s.rotCore (phys / 18) i) = phys
           ∧ (t.quad (phys / 18)).rotNext = (i + 1) % s.quadServes ∧ t.mem = s.mem ∧ t.banks = s.banks)
     ∧ (s.running = true → exec (.droopHalving quad) s = .next (s.modQuad quad fun q => { q with droop := true, droopAt := s.cycle }))
     ∧ ((s.quad quad).droop = true → (s.quad quad).droopAt + s.droopHold quad ≤ s.cycle →
         exec (.droopRestore quad) s = .next (s.modQuad quad fun q => { q with droop := false }))
     ∧ (s.modl.boot = 6 → SMap.get 0 s.modl.last 0 + 16000 ≤ s.cycle →
         ∃ t, exec .allowanceUpdate s = .next t ∧ SMap.get 0 t.modl.last 0 = s.cycle ∧ t.mem = s.mem ∧ t.banks = s.banks
           ∧ ∀ ck ∈ s.coreKeys, s.served ck = true →
               let h := 105 * 16 - (s.physCore (s.physOf ck)).temp16
               (h < 64 → (t.core ck).allow.getLsbD 62 = true) ∧ (128 ≤ h → (t.core ck).allow.getLsbD 62 = false)))
  ∧
  (∀ (s : State) (stack : Nat),
     let x := SMap.get StackSt.reset s.hbm stack
     let now := bits s.modl.pwrnow 31 0
     (x.refx2 = false → x.sinceMoment s.cycle = (s.cycle + 3900 - x.phase % 3900) % 3900)
     ∧ (∀ n, n = (s.cycle + 3900 - x.phase % 3900) % 3900 → x.refx2 = true →
         x.sinceMoment s.cycle = if 1950 ≤ n ∧ x.refxAt + (n - 1950) ≤ s.cycle then n - 1950 else n)
     ∧ (stack < 12 → x.refreshing = false → s.modl.mpwr = 0 → s.modl.boot = 6 → x.sinceMoment s.cycle < 350 →
         ∃ t, exec (.hbmRefresh stack) s = .next t ∧ SMap.get StackSt.reset t.hbm stack = { x with refreshing := true }
           ∧ SMap.get 0 t.modl.last (16 + stack) = s.cycle - x.sinceMoment s.cycle ∧ t.mem = s.mem)
     ∧ (x.refreshing = true → SMap.get 0 s.modl.last (16 + stack) + 350 ≤ s.cycle →
         ∃ t, exec (.refreshEnd stack) s = .next t ∧ SMap.get StackSt.reset t.hbm stack = { x with refreshing := false } ∧ t.mem = s.mem
           ∧ t.inputs = s.hostHeld ++ s.inputs ∧ t.hostHeld = [])
     ∧ (s.powered = true → SMap.get 0 s.modl.last 2 + 1000000 ≤ s.cycle →
         ∃ t, exec .semaphoreScrub s = .next t ∧ t.sem = s.sem ∧ t.mem = s.mem ∧ SMap.get 0 t.modl.last 2 = s.cycle)
     ∧ (∀ q, q < 4 → (s.quad q).power = false → (∀ r, r < q → (s.quad r).power = true) → s.running = true → s.modl.pwrcap.toNat < now →
         SMap.get 0 s.modl.last 6 + 1000000 ≤ s.cycle → SMap.get 0 s.modl.last 5 + 100000 ≤ s.cycle →
         ∃ t, exec .powerCapHalving s = .next t ∧ (t.quad q).power = true ∧ t.msix = s.msix ++ [258] ∧ t.mem = s.mem)
     ∧ (∀ q, q < 4 → (s.quad q).power = true → (∀ r, q < r → r < 4 → (s.quad r).power = false) → s.running = true →
         100 * now < 95 * s.modl.pwrcap.toNat → SMap.get 0 s.modl.last 5 + 100000 ≤ s.cycle →
         ∃ t, exec .powerCapRestore s = .next t ∧ (t.quad q).power = false ∧ t.msix = s.msix ++ [258] ∧ t.mem = s.mem))

/-- R360, R404, R405: the module powers down, wakes and shuts down: the shadowed cores are sealed and lose their power, and
every core halts; the wake ends the halt, whereupon they resume (SealsAndChecks). A quadrant with a core above 110 °C powers
down and comes back below 95 °C; an overheated stack halves both quadrants of its die until it is below 90 °C; 120 °C is a
loss of module input. -/
def Obligations.PowerDownsAndHeat : Prop :=
  ∀ (s : State) (quad stack : Nat),
    let x := SMap.get StackSt.reset s.hbm stack
    (s.hostReady = true → s.modl.mpwr = 0 →
        (∃ t, exec .mpwrPowerDown s = .next t ∧ t.modl.mpwr = 1 ∧ 258 ∈ t.msix ∧ (∀ k ∈ s.coreKeys, (t.core k).halted = true)
          ∧ PlannedDown s t fun _ => True)
        ∧ ∃ t, exec .mpwrShutdown s = .next t ∧ t.modl.mpwr = 3 ∧ t.modl.fwstat = 0 ∧ 258 ∈ t.msix
          ∧ (∀ k ∈ s.coreKeys, (t.core k).halted = true) ∧ PlannedDown s t fun _ => True)
    ∧ (s.hostReady = true → s.modl.mpwr = 1 →
        (∃ t, exec .mpwrWake s = .next t ∧ t.modl.mpwr = 0 ∧ t.mem = s.mem ∧ t.banks = s.banks
          ∧ ∀ k ∈ s.coreKeys, (t.core k).halted = ((s.quad (s.quadOf k)).lehr || (s.quad (s.quadOf k)).thermalOff))
        ∧ ∃ t, exec .mpwrShutdown s = .next t ∧ t.modl.mpwr = 3 ∧ t.modl.fwstat = 0 ∧ t.mem = s.mem ∧ t.banks = s.banks)
    ∧ (s.hostReady = true → s.modl.mpwr ≠ 0 → exec .mpwrPowerDown s = .next s)
    ∧ (s.hostReady = true → s.modl.mpwr ≠ 1 → exec .mpwrWake s = .next s)
    ∧ (∀ p, quad < 4 → 18 * quad ≤ p → p < 18 * quad + 18 → 110 * 16 < (s.physCore p).temp16 → (s.quad quad).thermalOff = false →
        s.running = true →
        ∃ t, exec (.quadrantThermalPowerDown quad) s = .next t ∧ (t.quad quad).thermalOff = true ∧ 258 ∈ t.msix
          ∧ (∀ k ∈ s.coreKeys, s.quadOf k = quad → (t.core k).halted = true) ∧ PlannedDown s t fun k => s.quadOf k = quad)
    ∧ ((s.quad quad).thermalOff = true → (∀ p, 18 * quad ≤ p → p < 18 * quad + 18 → (s.physCore p).temp16 < 95 * 16) →
        ∃ t, exec (.quadrantThermalResume quad) s = .next t ∧ (t.quad quad).thermalOff = false ∧ t.mem = s.mem ∧ t.banks = s.banks)
    ∧ (stack < 12 → x.overheated = false → 95 * 16 < x.temp16 → s.running = true →
        ∃ t, exec (.stackOverheatHalving stack) s = .next t ∧ (SMap.get StackSt.reset t.hbm stack).overheated = true
          ∧ (t.quad (2 * (stack / 6))).stackHeat = true ∧ (t.quad (2 * (stack / 6) + 1)).stackHeat = true
          ∧ t.msix = s.msix ++ [258] ∧ t.mem = s.mem)
    ∧ (x.overheated = true → x.temp16 < 90 * 16 →
        ∃ t, exec (.stackOverheatRestore stack) s = .next t ∧ (SMap.get StackSt.reset t.hbm stack).overheated = false ∧ t.mem = s.mem)
    ∧ (∀ p c, s.powered = true → (p, c) ∈ s.phys → 120 * 16 < c.temp16 →
        ∃ t, exec .thermalInputLoss s = .next t ∧ t.modl = { Modl.reset with lowFrom := s.modl.lowFrom } ∧ t.slots = s.slots ∧ t.msix = [258])

/-! ### The host (R248, R320 to R325, R346 to R349, R364, R365, R396 to R401) -/

/-- R248, R321 to R325, R346, R351, R364, R365, R396: CSTATE moves from free to configuring, to running and back, a kill
sets it to 3 and takes a number; CGRANT grants cores that no other context has; LAUNCH_DOORBELL of a misaligned address
writes an error record, and waits while 64 launches are live, or while an earlier post waits (the model's choice: log entry
31); LBUD adds to a budget; SEMD writes the word at SEMA. While the link is down the host's write waits instead. R322, R323,
R325, R365: a register write within its limits is kept in CSTATE 1, and reads back; any other is discarded. HVEC, SCHED and
SEMA are kept in every CSTATE. Words that enter an allocation are zeroed. -/
def Obligations.ContextRegisters : Prop :=
  (∀ (s : State) (ctx : Nat) (v : Word),
     let x := s.ctx ctx
     let others (t : State) : Prop := (∀ c, c ≠ ctx → t.ctx c = s.ctx c) ∧ t.mem = s.mem ∧ t.banks = s.banks
     (s.linkDown = true →
         let held (i : Instr) (off : Nat) (w : Word) : Prop := exec i s = .next (s.holdHost (.writeBar (0x10000 + 0x1000 * ctx + off) w))
         held (.cstateFree ctx) 0 0 ∧ held (.cstateConfigure ctx) 0 1 ∧ held (.cstateRun ctx) 0 2 ∧ held (.cstateKill ctx) 0 3
         ∧ held (.cgrant ctx v) 0x008 v ∧ held (.launchDoorbell ctx v) 0x0A8 v ∧ held (.lbud ctx v) 0x0B0 v ∧ held (.killl ctx v) 0x0B8 v
         ∧ held (.killc ctx v) 0x0C0 v ∧ held (.semd ctx v) 0x110 v ∧ ∀ off, held (.registerWrite (.ctx ctx) off v) off v)
     ∧ (s.hostReach ctx = true → x.cstate = 0 →
         ∃ t, exec (.cstateConfigure ctx) s = .next t ∧ t.ctx ctx = { x with cstate := 1, ecount := 0 } ∧ others t)
     ∧ (s.hostReach ctx = true → x.cstate = 1 → s.heapFits ctx = true → (∀ l, l < 64 → (s.core (64 * x.part.toNat + l)).down = false) →
         ∃ t, exec (.cstateRun ctx) s = .next t ∧ t.ctx ctx = { x with cstate := 2, rstat := 0 } ∧ others t)
     ∧ (s.hostReach ctx = true → x.cstate ≠ 1 ∨ s.heapFits ctx = false → exec (.cstateRun ctx) s = .next s)
     ∧ (s.hostReach ctx = true → x.cstate = 1 →
         ∃ t, exec (.cstateFree ctx) s = .next t ∧ t.ctx ctx = { x with cstate := 0, cgrant := 0, sem0 := 0, sem1 := 0 }
           ∧ others t ∧ (∀ k, (s.core k).shadowed = false → (t.core k).shadowed = false)
           ∧ (∀ k, keyPart k = x.part.toNat → ∀ e ∈ (t.core k).tlb, e.ctx = ctx → 2 ^ 57 ≤ e.page ∨ e.size = 0)
           ∧ ∀ e ∈ SMap.get [] t.tlb2 x.part.toNat, e.ctx = ctx → 2 ^ 57 ≤ e.page ∨ e.size = 0)
     ∧ (s.linkDown = false → x.cstate = 2 →
         (∃ t, exec (.cstateKill ctx) s = .next t ∧ (t.ctx ctx).cstate = 3 ∧ (t.ctx ctx).qtlLast = x.qtlLast + 1)
         ∧ (∃ t, exec (.killc ctx v) s = .next t ∧ (t.ctx ctx).cstate = 3 ∧ (t.ctx ctx).qtlLast = x.qtlLast + 1)
         ∧ (∃ t, exec (.killl ctx v) s = .next t ∧ (t.ctx ctx).cstate = 2 ∧ (t.ctx ctx).qtlLast = x.qtlLast + 1))
     ∧ (s.hostReach ctx = true → x.cstate = 1 → s.grantTaken ctx x.part.toNat v = false →
         ∃ t, exec (.cgrant ctx v) s = .next t ∧ (t.ctx ctx).cgrant = v ∧ (t.ctx ctx).cstate = 1)
     ∧ (s.hostReach ctx = true → x.cstate = 2 → x.freeSlot.isSome = true → x.posts = [] → v.toNat % 128 ≠ 0 →
         ∃ t, exec (.launchDoorbell ctx v) s = .next t ∧ (t.ctx ctx).ecount = x.ecount + 1 ∧ (t.ctx ctx).launches = x.launches
           ∧ t.msix = s.msix ++ [4 * ctx + 3] ∧ t.tasks = s.tasks)
     ∧ (∀ h, s.hostReach ctx = true → x.cstate = 2 → x.freeSlot.isSome = true → x.posts = [] → v.toNat % 128 = 0 → s.hostHeader ctx v = some h →
         launchCheck s ctx h none = 0 → exec (.launchDoorbell ctx v) s = .next (s.acceptLaunch ctx h))
     ∧ (s.hostReach ctx = true → x.cstate = 2 → x.freeSlot = none ∨ x.posts ≠ [] →
         ∃ t, exec (.launchDoorbell ctx v) s = .next t ∧ t.ctx ctx = { x with posts := x.posts ++ [v] } ∧ others t)
     ∧ (∀ slot l, s.hostReach ctx = true → s.slotOf ctx (v.setWidth 32) = some slot → SMap.find x.launches slot = some l →
         ∃ t, exec (.lbud ctx v) s = .next t ∧ (SMap.find (t.ctx ctx).launches slot).map (·.budget)
             = some (l.budget.map (· + bits v 63 32)) ∧ others t)
     ∧ (∀ k, s.hostReach ctx = true → x.cstate = 1 → semKey s ctx (x.sema.setWidth 32) = some (some k) →
         ∃ t, exec (.semd ctx v) s = .next t ∧ t.semRead k = v ∧ SameSemBut s t k ∧ t.mem = s.mem))
  ∧
  (∀ (s : State) (ctx : Nat) (v : Word), s.hostReach ctx = true →
     let x := s.ctx ctx
     let others (t : State) : Prop := (∀ c, c ≠ ctx → t.ctx c = s.ctx c) ∧ t.mem = s.mem ∧ t.banks = s.banks
     let w (off : Nat) : Instr := .registerWrite (.ctx ctx) off v
     (∀ off, x.cstate = 1 → RegisterLimit off v →
         ∃ t, exec (w off) s = .next t ∧ t.readCtx ctx off = v ∧ (∀ o, o ≠ off → t.readCtx ctx o = s.readCtx ctx o) ∧ others t)
     ∧ (∀ off, off ∈ [0x018, 0x020, 0x028, 0x030] ∨ RegisterLimit off v → x.cstate ≠ 1 ∨ ¬RegisterLimit off v →
         exec (w off) s = .next s)
     ∧ (x.cstate = 1 → v.toNat < 4 → x.cgrant = 0 →
         ∃ t, exec (w 0x010) s = .next t ∧ t.ctx ctx = { x with part := v.setWidth 2 } ∧ others t)
     ∧ (x.cstate ≠ 1 ∨ 4 ≤ v.toNat → exec (w 0x010) s = .next s)
     ∧ (∀ die, die < 2 → x.cstate = 1 → let old := if die = 0 then x.sem0 else x.sem1
         ∃ t, exec (w (0x038 + 8 * die)) s = .next t
           ∧ t.ctx ctx = (if die = 0 then { x with sem0 := semField v } else { x with sem1 := semField v })
           ∧ (∀ k, InAllocation die (semField v) k → ¬InAllocation die old k → t.semRead k = 0)
           ∧ (∀ k, ¬InAllocation die (semField v) k ∨ InAllocation die old k → t.semRead k = s.semRead k) ∧ others t)
     ∧ (∀ die, die < 2 → x.cstate ≠ 1 → exec (w (0x038 + 8 * die)) s = .next s)
     ∧ (∃ t, exec (w 0x048) s = .next t ∧ others t ∧ t.ctx ctx = { x with
           dhold := BitVec.ofNat 6 (min 32 (max 1 (bits v 45 40))), ceil := BitVec.ofNat 3 (bits v 39 37)
           parkEvict := BitVec.ofNat 16 (bits v 31 16), age := BitVec.ofNat 16 (max 1 (bits v 15 0)) })
     ∧ (∃ t, exec (w 0x108) s = .next t ∧ t.ctx ctx = { x with sema := v } ∧ others t)
     ∧ (v.toNat % 4 = 0 → v.toNat < 0x40000 → ∃ t, exec (w 0x0A0) s = .next t ∧ t.ctx ctx = { x with hvec := v } ∧ others t)
     ∧ (v.toNat % 4 ≠ 0 ∨ 0x40000 ≤ v.toNat → exec (w 0x0A0) s = .next s)
     ∧ (s.readCtx ctx 0x000 = x.cstate.setWidth 64 ∧ s.readCtx ctx 0x008 = x.cgrant ∧ s.readCtx ctx 0x0F8 = x.ecount
         ∧ s.readCtx ctx 0x0A8 = 0 ∧ s.readCtx ctx 0x0B0 = 0 ∧ s.readCtx ctx 0x0B8 = 0 ∧ s.readCtx ctx 0x0C0 = 0))

/-- R320, R348, R390, R396 to R401: 54 V boots the module, and its link trains; FWGO starts the verification of the image,
which is accepted whole or discarded; ismel begins, and the module is ready; the host reads and writes memory, once no stack
that it reaches refreshes; while the link is down the host's accesses wait, and go on in their order when it has trained
again; lanes of a port go to eight, four or none. R349, R396: the SPDM responder's answers, each added to the transcript of
its session; the answers to CHALLENGE and GET_MEASUREMENTS carry a signature of the transcript; any other request, slot,
index, vendor or code is answered ERROR; a CDAT request returns its entry. The codes of algorithms and of the standard are
the model's choice (log entry 32). -/
def Obligations.BootLinkAndAttestation : Prop :=
  (∀ (s : State) (v : Word),
     let m := s.modl
     (m.boot = 0 → m.lowFrom = none → exec .boot s = .next { s with modl := { m with boot := 1 } })
     ∧ (∀ full, m.boot ≠ 0 → m.linkUp = false →
         exec (.linkRetrain full) s = .next { s with
           modl := { m with linkUp := true, linkNarrow := !full, boot := if m.boot = 1 then 2 else m.boot }
           inputs := s.hostHeld ++ s.inputs, hostHeld := [] })
     ∧ exec .linkDown s = .next { s with modl := { m with linkUp := false } }
     ∧ (s.linkDown = true →
         let held (i : Instr) (a : Input) : Prop := exec i s = .next (s.holdHost a)
         held (.fwgo v) (.writeBar 0x018 v) ∧ held (.schfw v) (.writeBar 0x028 v) ∧ held (.partcfg v) (.writeBar 0x030 v)
         ∧ held .mpwrPowerDown (.writeBar 0x070 1) ∧ held .mpwrWake (.writeBar 0x070 2) ∧ held .mpwrShutdown (.writeBar 0x070 3)
         ∧ held (.preset v) (.writeBar 0x078 v) ∧ held .functionLevelReset .functionReset
         ∧ (∀ off, held (.registerWrite .modl off v) (.writeBar off v))
         ∧ (∀ a, held (.hostCoherenceRequest a) (.coherence a))
         ∧ (∀ part addr len, held (.hostRead part addr len) (.hdmRead part addr len))
         ∧ (∀ part addr bs, held (.hostWrite part addr bs) (.hdmWrite part addr bs))
         ∧ held .getVersion (.doe .getVersion) ∧ ∀ e, held (.cdatDoeRequest e) (.doe (.cdat e)))
     ∧ (v = 1 → m.boot = 2 → m.linkUp = true → exec (.fwgo v) s = .next { s with modl := { m with boot := 3, fwstat := 1 } })
     ∧ (v ≠ 1 → s.linkDown = false → exec (.fwgo v) s = .next s)
     ∧ (∀ img, m.boot = 3 → m.linkUp = true → img.length = m.fwlen.toNat → s.hostHolds m.fwaddr.toNat img = true →
         (firmwareOk img 1 = true → ∃ t, exec (.firmwareVerification img) s = .next t ∧ t.modl.boot = 4 ∧ t.modl.fwstat = 3
             ∧ t.modl.imageDigest = Config.sha384 img ∧ t.mem = s.mem)
         ∧ (firmwareOk img 1 = false → exec (.firmwareVerification img) s = .next { s with modl := { m with boot := 2, fwstat := 2 } }))
     ∧ (s.hostReady = true → bits v 11 4 = 0 → s.noneFired (bits v 3 0) = true →
         exec (.schfw v) s = .next { s with modl := { m with schfw := m.schfw ++ [(bits v 3 0, bits v 63 12 * 4096)] } })
     ∧ (s.hostReady = true → bits v 11 4 ≠ 0 ∨ s.noneFired (bits v 3 0) = false → exec (.schfw v) s = .next s)
     ∧ (m.boot = 4 → (∀ p, p < 72 → (s.physCore p).serviceable = true) →
         ∃ t, exec (.ismelInitialisation []) s = .next t ∧ t.modl.boot = 5 ∧ t.lmap = [] ∧ t.mem = s.mem ∧ t.banks = s.banks)
     ∧ (∀ failed, m.boot = 5 →
         ∃ t, exec (.ismelInitialisation failed) s = .next t ∧ t.modl.boot = 6 ∧ t.modl.roll = 0 ∧ t.modl.scanNext = 0
           ∧ t.lmap = s.lmap ∧ t.mem = s.mem ∧ t.banks = s.banks)
     ∧ (s.hostReady = true → bits v 1 0 ≠ 3 → (∀ c, c < 64 → (s.ctx c).cstate = 0) →
         ∃ t, exec (.partcfg v) s = .next t ∧ t.modl.partcfg.toNat = bits v 1 0)
     ∧ (v = 0x5253 → 2 ≤ m.boot.toNat → m.linkUp = true → exec (.preset v) s = .next s.resetPackage)
     ∧ (∀ part, HostSees s part)
     ∧ (∀ part addr len, s.hostReady = true → part < s.parts → addr + len ≤ s.memSize →
         let locs := s.hdmLocs part addr len
         ((∀ x ∈ locs, s.refreshed ⟨x, true, none⟩ = false) →
             exec (.hostRead part addr len) s = .next { s with modl := { m with reply := locs.map (Memory.read s.mem) } })
         ∧ ((∃ x ∈ locs, s.refreshed ⟨x, true, none⟩ = true) →
             exec (.hostRead part addr len) s = .next (s.holdHost (.hdmRead part addr len))))
     ∧ (∀ part addr bs, s.hostReady = true → part < s.parts → addr + bs.length ≤ s.memSize →
         (∀ x ∈ s.hdmLocs part addr bs.length, s.refreshed ⟨x, true, none⟩ = false) →
         (∀ x ∈ s.leaves part, bits x.2.1 6 5 ≠ 2) →
         ∃ t, exec (.hostWrite part addr bs) s = .next t ∧ Memory.readList t.mem (memLoc part addr) bs.length = bs
           ∧ SameMemBut s t (memLoc part addr) bs.length ∧ t.banks = s.banks)
     ∧ (∀ a, m.linkUp = true → ∃ t, exec (.hostCoherenceRequest a) s = .next t ∧ t.mem = s.mem ∧ t.banks = s.banks
         ∧ ∀ k sec, let had := SMap.find (s.core k).l1 sec
             (sec ∈ sectorsOf (hostLoc (a / 64 * 64)) 64 → SMap.find (t.core k).l1 sec ≠ some .dirty)
             ∧ (sec ∉ sectorsOf (hostLoc (a / 64 * 64)) 64 ∨ had ≠ some .dirty → SMap.find (t.core k).l1 sec = had))
     ∧ (∀ p, exec (.flitReplay p) s = .next s)
     ∧ (m.linkUp = true → (∀ c, c < 64 → (s.ctx c).cstate ≠ 2) →
         ∃ t, exec .functionLevelReset s = .next t ∧ t.mem = s.mem ∧ t.banks = s.banks
           ∧ ∀ c, c < 64 → (t.ctx c).cstate = if (s.ctx c).cstate = 1 then 0 else (s.ctx c).cstate)
     ∧ (∀ port lanes, s.running = true → port < 16 → (SMap.get Port.reset s.ports port).lanes ≠ (if 8 ≤ lanes then 8 else if 4 ≤ lanes then 4 else 0) →
         ∃ t, exec (.portTraining port lanes) s = .next t ∧ t.msix = s.msix ++ [259] ∧ t.mem = s.mem
           ∧ (SMap.get Port.reset t.ports port).lanes = if 8 ≤ lanes then 8 else if 4 ≤ lanes then 4 else 0)
     ∧ (∀ off, off < 0x10000 → barBlock off = some (.modl, off))
     ∧ (∀ c o, c < 64 → o < 0x1000 → barBlock (0x10000 + 0x1000 * c + o) = some (.ctx c, o))
     ∧ (∀ off, 0x50000 ≤ off → s.linkDown = false → s.writeBar off v = s
         ∧ (m.linkUp = true → s.readBar off = { s with modl := { m with reply := leBytes 8 0 } })))
  ∧
  (∀ (s : State), s.modl.linkUp = true →
     let answers (i : Instr) (code : Nat) (reply : List Byte) : Prop := ∃ t, exec i s = .next t ∧ t.modl.reply = reply
       ∧ t.modl.transcript = s.modl.transcript ++ [BitVec.ofNat 8 code] ∧ t.mem = s.mem ∧ t.modl.signed = s.modl.signed
     let signs (i : Instr) (code : Nat) (body : List Byte) : Prop := ∃ t, exec i s = .next t
       ∧ t.modl.signed = s.modl.transcript ++ [BitVec.ofNat 8 code] ++ body
       ∧ t.modl.reply = body ++ Config.rsaSign t.modl.signed ∧ t.mem = s.mem
     (∃ t, exec .getVersion s = .next t ∧ t.modl.transcript = [0x84] ∧ t.modl.signed = []
         ∧ t.modl.reply = Config.spdmBody 0x84 [0x12, 0x13])
     ∧ answers .getCapabilities 0xE1 (Config.spdmBody 0xE1 [])
     ∧ answers .negotiateAlgorithms 0xE3 (Config.spdmBody 0xE3 (offeredAlgorithms.flatMap SpdmAlgorithm.field))
     ∧ answers .getDigests 0x81 (Config.spdmBody 0x81 (Config.sha384 Config.certChain))
     ∧ (∀ o n, answers (.getCertificate 0 o n) 0x82 (Config.spdmBody 0x82 ((Config.certChain.drop o).take n)))
     ∧ (∀ slot o n, slot ≠ 0 → answers (.getCertificate slot o n) 0x82 (Config.spdmBody 0x7F [7, 0x82]))
     ∧ (∀ nonce, signs (.challenge 0 nonce) 0x83 (Config.spdmBody 0x83 (Config.sha384 Config.certChain ++ nonce)))
     ∧ (∀ k nonce, 1 ≤ k → k ≤ 4 →
         signs (.getMeasurements k nonce) 0xE0 (Config.spdmBody 0xE0 (leBytes 1 k ++ Config.sha384 (s.measured k) ++ nonce)))
     ∧ (∀ k nonce, k = 0 ∨ 4 < k → answers (.getMeasurements k nonce) 0xE0 (Config.spdmBody 0x7F [7, 0xE0]))
     ∧ answers (.vendorDefinedRequest ⟨3, Config.saheloaVendor, 1⟩) 0xFE (Config.slhSign s.modl.signed ++ Config.slhCertChain)
     ∧ (∀ code, code ≠ ⟨3, Config.saheloaVendor, 1⟩ →
         answers (.vendorDefinedRequest code) 0xFE (Config.spdmBody 0x7F [7, 0xFE]))
     ∧ (∀ code, answers (.unsupportedRequest code) code.toNat (Config.spdmBody 0x7F [7, code]))
     ∧ ∀ e, exec (.cdatDoeRequest e) s = .next { s with modl := { s.modl with reply := Config.cdatEntry e } })

/-! ### The decoder, the step and the reset state (R43 to R62, R360, R400, R401) -/

/-- Words of R43 to R60 decode to the instructions that the spec's examples name. -/
def Obligations.DecodeWords : Prop :=
  decodeTableWord 64 0x2300E8811200073F = some (.vadd ⟨2, 3⟩ ⟨70, 3, 324, 2, 1⟩)
  ∧ decodeTableWord 64 0x028180031368003F = some (.vcvt ⟨0, 0⟩ ⟨5, 6, 0, 0, 3, 0, 1⟩)
  ∧ decodeTableWord 64 0x3211613FA600003F = some (.mmaE4m3 ⟨0, 0⟩ ⟨3, 8, 17, 12, 2, 127, 0, 1, 0⟩)
  ∧ decodeTableWord 64 0x800000000C00003F = some (.fenceSc ⟨0, 0⟩ ⟨4, 0, 0⟩)
  ∧ decodeTableWord 64 0x298E08000C50003F = some (.semAdd ⟨0, 0⟩ ⟨5, 6, 7, 0, 4⟩)
  ∧ decodeTableWord 64 0x8C7280000800003F = some (.copy ⟨0, 0⟩ ⟨2, 6, 7, 5, 0⟩)
  ∧ decodeTableWord 64 0x298E07110A10003F = some (.allred ⟨0, 0⟩ ⟨5, 6, 7, 3, 1, 1, 1⟩)
  ∧ decodeTableWord 64 0x298000000018003F = some (.launch ⟨0, 0⟩ ⟨5, 6, 0, 0⟩)
  ∧ decodeTableWord 32 0x00500293 = some (.rv64Instruction (.imm .addi 5 0 5))
  ∧ decodeTableWord 64 0x000000000FC001BF = none

/-- R43, R57: decoding an encoded well-formed instruction gives it back: no bit of its word is dropped. What a word decodes
to is well formed and encodes to that word, so that no two words have one meaning. -/
def Obligations.DecodeEncode : Prop :=
  (∀ (i : Instr) (ws : List (BitVec 32)), WellFormed i = true → encode i = some ws →
    decodeParcels (ws.getD 0 0) (ws.getD 1 0) = .ok i ∧ 4 * ws.length = parcelBytes (ws.getD 0 0))
  ∧ ∀ (p q : BitVec 32) (i : Instr), decodeParcels p q = .ok i →
    WellFormed i = true ∧ encode i = some (if parcelBytes p = 8 then [p, q] else [p])

/-- R43 to R46, R276, R328, R342: a step in which a bank runs, with no trap due before it, performs the instruction that the
bytes at its pc decode to; every other field stands as it was but the cycle, the inputs, the current bank, the word in
execution and the counts of the watchdogs, that of the control core's starting again. A pc beyond the instruction memory
traps with cause 1, one that is no multiple of 4 with cause 0. Without inputs the step is that of the policy. -/
def Obligations.StepRunsDecoded : Prop :=
  ∀ (s : State) (core bank : Nat) (rest : List Input),
    let bk := bankKey core bank
    let b := s.bank bk
    let later : State := { s.countWork 1 with cycle := s.cycle + 1 }
    let u : State := ({ later with inputs := rest, curCore := core, curBank := bank % 2 } : State).modCore (keyCore bk) fun c =>
      { c with marks := SMap.del c.marks 0 }
    let pc := b.pc.toNat
    let p := s.parcel (keyCore bk) pc
    let q := if parcelBytes p = 8 then s.parcel (keyCore bk) (pc + 4) else 0
    ({ s.countWork 1 with cores := s.cores } = s ∧ ∀ k, (s.countWork 1).core k = { s.core k with marks := ((s.countWork 1).core k).marks })
    ∧ (s.inputs = .run core bank :: rest → b.st = .running → s.works (keyCore bk) = true → b.dueOther = none → s.budgetDue bk = false →
        b.replayDue = none →
        (∀ i, pc % 4 = 0 → pc < 0x40000 → (parcelBytes p = 8 → pc + 4 < 0x40000) → decodeParcels p q = .ok i →
            interlocked b i = false → step s = exec i { u with ir := illegalTval p q })
        ∧ (∀ r, pc % 4 = 0 → pc < 0x40000 → (parcelBytes p = 8 → pc + 4 < 0x40000) → decodeParcels p q = .error r →
            step s = exec (.illegalInstruction r) { u with ir := illegalTval p q })
        ∧ (pc % 4 = 0 → 0x40000 ≤ pc → step s = .next (takeTrap u bk 1 b.pc))
        ∧ (pc % 4 ≠ 0 → step s = .next (takeTrap u bk 0 b.pc)))
    ∧ (∀ i, s.inputs = .event i :: rest → encode i = none → step s = exec i { later with inputs := rest })
    ∧ (s.inputs = [] → step s = step { s with inputs := [policy later] })

/-- Every step keeps memory in its canonical form: strictly rising locations, none listed with the byte that an unlisted one
reads as (log entry 3). -/
def Obligations.StepKeepsMemory : Prop :=
  ∀ (s t : State), MemOk s → step s = .next t → MemOk t

/-- R323, R325, R360, R400, R401: at reset every context is free and its registers read 0, but SCHED as R325 gives it; every
bank is Empty in task mode with every scalar register 0, every semaphore word 0, no boot step is done and the module
registers read as R401 lists them; memory is in its canonical form. Memory reads 0 by log entry 3, and a register whose
reset value the spec does not give holds the value of log entry 2. -/
def Obligations.ResetState : Prop :=
  MemOk State.reset
  ∧ (∀ c, State.reset.ctx c = Ctx.reset ∧ (State.reset.ctx c).cstate = 0)
  ∧ (∀ c off, State.reset.readCtx c off = if off = 0x048 then w64 (4 * 2 ^ 40 + 7 * 2 ^ 37 + 16 * 2 ^ 16 + 64) else 0)
  ∧ (∀ off, State.reset.readModl off = if off = 0x038 then 60 else if off = 0x040 then 1800 else if off = 0x048 then 3000 else 0)
  ∧ (∀ bk, (State.reset.bank bk).st = .empty ∧ (State.reset.bank bk).mode = .task ∧ ∀ r, (State.reset.bank bk).rx r = 0)
  ∧ (∀ k, State.reset.semRead k = 0)
  ∧ (∀ a, Memory.read State.reset.mem a = 0)
  ∧ State.reset.modl.boot = 0 ∧ State.reset.modl.linkUp = false ∧ State.reset.slots = []
end

