-- ==== Sys2Proof/Laws/Maps.lean ====
section
/-! SUPPORT. Laws/Maps.lean: sparse tables: reading what was put, set or removed, and the canonical form. -/

namespace Sys2Proof.Machine

theorem SMap.find_put_same {α : Type} (m : SMap α) (k : Nat) (v : α) : SMap.find (SMap.put m k v) k = some v := by
  induction m with
  | nil => simp [SMap.put, SMap.find]
  | cons e t ih =>
    obtain ⟨k', v'⟩ := e
    simp only [SMap.put]
    split
    · simp [SMap.find]
    · split
      · simp [SMap.find]
      · rename_i h
        have h' : ¬k' = k := fun e => h e.symm
        simp [SMap.find, ih, h']

theorem SMap.find_put_ne {α : Type} (m : SMap α) {k j : Nat} (v : α) (h : j ≠ k) :
    SMap.find (SMap.put m k v) j = SMap.find m j := by
  induction m with
  | nil => simp [SMap.put, SMap.find, h.symm]
  | cons e t ih =>
    obtain ⟨k', v'⟩ := e
    simp only [SMap.put]
    split
    · simp [SMap.find, h.symm]
    · split
      · rename_i h1
        subst h1
        simp [SMap.find, h.symm]
      · simp [SMap.find, ih]

@[simp] theorem SMap.get_put_same {α : Type} (d : α) (m : SMap α) (k : Nat) (v : α) :
    SMap.get d (SMap.put m k v) k = v := by simp [SMap.get, SMap.find_put_same]

theorem SMap.get_put_ne {α : Type} (d : α) (m : SMap α) {k j : Nat} (v : α) (h : j ≠ k) :
    SMap.get d (SMap.put m k v) j = SMap.get d m j := by simp [SMap.get, SMap.find_put_ne m v h]

/-- Every key of a table lies above a bound. -/
def SMap.Above {α : Type} (b : Nat) (m : SMap α) : Prop := ∀ e ∈ m, b < e.1

theorem SMap.rising_cons {α : Type} (k : Nat) (v : α) (t : SMap α) :
    SMap.rising ((k, v) :: t) = true ↔ SMap.Above k t ∧ SMap.rising t = true := by
  induction t generalizing k v with
  | nil => simp [SMap.rising, SMap.Above]
  | cons e t ih =>
    obtain ⟨k', v'⟩ := e
    simp only [SMap.rising, Bool.and_eq_true, decide_eq_true_eq, ih k' v']
    constructor
    · rintro ⟨h1, h2, h3⟩
      refine ⟨?_, h2, h3⟩
      intro e he
      rcases List.mem_cons.mp he with rfl | he
      · exact h1
      · exact Nat.lt_trans h1 (h2 e he)
    · rintro ⟨h1, h2, h3⟩
      exact ⟨h1 (k', v') (by simp), h2, h3⟩

theorem SMap.wf_iff {α : Type} [DecidableEq α] (d : α) (m : SMap α) :
    SMap.wf d m = true ↔ SMap.rising m = true ∧ ∀ e ∈ m, e.2 ≠ d := by simp [SMap.wf]

theorem SMap.filter_above {α : Type} {b : Nat} {m : SMap α} (p : Nat × α → Bool) (h : SMap.Above b m) :
    SMap.Above b (m.filter p) := fun e he => h e ((List.mem_filter.mp he).1)

theorem SMap.filter_rising {α : Type} (m : SMap α) (p : Nat × α → Bool) (h : SMap.rising m = true) :
    SMap.rising (m.filter p) = true := by
  induction m with
  | nil => rfl
  | cons e t ih =>
    obtain ⟨k, v⟩ := e
    have h' := (SMap.rising_cons k v t).mp h
    simp only [List.filter]
    split
    · exact (SMap.rising_cons k v _).mpr ⟨SMap.filter_above p h'.1, ih h'.2⟩
    · exact ih h'.2

theorem SMap.mem_put {α : Type} {m : SMap α} {k : Nat} {v : α} {e : Nat × α} (h : e ∈ SMap.put m k v) :
    e = (k, v) ∨ e ∈ m := by
  induction m with
  | nil => simpa [SMap.put] using h
  | cons x t ih =>
    obtain ⟨k', v'⟩ := x
    simp only [SMap.put] at h
    split at h
    · exact List.mem_cons.mp h
    · split at h
      · rcases List.mem_cons.mp h with h | h
        · exact .inl h
        · exact .inr (by simp [h])
      · rcases List.mem_cons.mp h with h | h
        · exact .inr (by simp [h])
        · rcases ih h with h | h
          · exact .inl h
          · exact .inr (by simp [h])

theorem SMap.put_rising {α : Type} (m : SMap α) (k : Nat) (v : α) (h : SMap.rising m = true) :
    SMap.rising (SMap.put m k v) = true := by
  induction m with
  | nil => simp [SMap.put, SMap.rising]
  | cons x t ih =>
    obtain ⟨k', v'⟩ := x
    have h' := (SMap.rising_cons k' v' t).mp h
    simp only [SMap.put]
    split
    · rename_i hlt
      refine (SMap.rising_cons k v _).mpr ⟨?_, h⟩
      intro e he
      rcases List.mem_cons.mp he with rfl | he
      · exact hlt
      · exact Nat.lt_trans hlt (h'.1 e he)
    · split
      · rename_i heq
        subst heq
        exact (SMap.rising_cons k v t).mpr h'
      · refine (SMap.rising_cons k' v' _).mpr ⟨?_, ih h'.2⟩
        intro e he
        rcases SMap.mem_put he with rfl | he
        · simp only
          omega
        · exact h'.1 e he

theorem SMap.find_del_same {α : Type} (m : SMap α) (k : Nat) : SMap.find (SMap.del m k) k = none := by
  induction m with
  | nil => rfl
  | cons x t ih =>
    obtain ⟨k', v'⟩ := x
    by_cases h : k' = k
    · simpa [SMap.del, h] using ih
    · simpa [SMap.del, SMap.find, h] using ih

theorem SMap.find_del_ne {α : Type} (m : SMap α) {k j : Nat} (h : j ≠ k) :
    SMap.find (SMap.del m k) j = SMap.find m j := by
  induction m with
  | nil => rfl
  | cons x t ih =>
    obtain ⟨k', v'⟩ := x
    by_cases h1 : k' = k
    · subst h1
      simpa [SMap.del, SMap.find, h.symm] using ih
    · by_cases h2 : k' = j
      · simp [SMap.del, SMap.find, h2, h]
      · simpa [SMap.del, SMap.find, h1, h2] using ih

@[simp] theorem SMap.get_set_same {α : Type} [DecidableEq α] (d : α) (m : SMap α) (k : Nat) (v : α) :
    SMap.get d (SMap.set d m k v) k = v := by
  unfold SMap.set
  split
  · simp [SMap.get, SMap.find_del_same, *]
  · exact SMap.get_put_same d m k v

theorem SMap.get_set_ne {α : Type} [DecidableEq α] (d : α) (m : SMap α) {k j : Nat} (v : α)
    (hj : j ≠ k) : SMap.get d (SMap.set d m k v) j = SMap.get d m j := by
  unfold SMap.set
  split
  · simp [SMap.get, SMap.find_del_ne m hj]
  · exact SMap.get_put_ne d m v hj

theorem SMap.filter_wf {α : Type} [DecidableEq α] (d : α) (m : SMap α) (p : Nat × α → Bool)
    (h : SMap.wf d m = true) : SMap.wf d (m.filter p) = true := by
  rw [SMap.wf_iff] at h ⊢
  exact ⟨SMap.filter_rising m p h.1, fun e he => h.2 e ((List.mem_filter.mp he).1)⟩

theorem SMap.erase_wf {α : Type} [DecidableEq α] (d : α) (m : SMap α) (p : Nat → Bool)
    (h : SMap.wf d m = true) : SMap.wf d (SMap.erase m p) = true := SMap.filter_wf d m _ h

theorem SMap.set_wf {α : Type} [DecidableEq α] (d : α) (m : SMap α) (k : Nat) (v : α)
    (h : SMap.wf d m = true) : SMap.wf d (SMap.set d m k v) = true := by
  unfold SMap.set
  split
  · exact SMap.filter_wf d m _ h
  · rename_i hv
    rw [SMap.wf_iff] at h ⊢
    refine ⟨SMap.put_rising m k v h.1, fun e he => ?_⟩
    rcases SMap.mem_put he with rfl | he
    · exact hv
    · exact h.2 e he

end Sys2Proof.Machine
end

