-- ==== Sys2Proof/Laws/State.lean ====
section
/-! SUPPORT. Laws/State.lean: each field of the state after each of its updates, and reading a table back. -/

namespace Sys2Proof.Machine

/-! ### setBank -/

@[simp] theorem State.setBank_inputs (s : State) (bk : Nat) (b : Bank) : (s.setBank bk b).inputs = s.inputs := rfl
@[simp] theorem State.setBank_hostHeld (s : State) (bk : Nat) (b : Bank) : (s.setBank bk b).hostHeld = s.hostHeld := rfl
@[simp] theorem State.setBank_curCore (s : State) (bk : Nat) (b : Bank) : (s.setBank bk b).curCore = s.curCore := rfl
@[simp] theorem State.setBank_curBank (s : State) (bk : Nat) (b : Bank) : (s.setBank bk b).curBank = s.curBank := rfl
@[simp] theorem State.setBank_ir (s : State) (bk : Nat) (b : Bank) : (s.setBank bk b).ir = s.ir := rfl
@[simp] theorem State.setBank_fresh (s : State) (bk : Nat) (b : Bank) : (s.setBank bk b).fresh = s.fresh := rfl
@[simp] theorem State.setBank_cycle (s : State) (bk : Nat) (b : Bank) : (s.setBank bk b).cycle = s.cycle := rfl
@[simp] theorem State.setBank_budgetTicks (s : State) (bk : Nat) (b : Bank) : (s.setBank bk b).budgetTicks = s.budgetTicks := rfl
@[simp] theorem State.setBank_mem (s : State) (bk : Nat) (b : Bank) : (s.setBank bk b).mem = s.mem := rfl
@[simp] theorem State.setBank_sem (s : State) (bk : Nat) (b : Bank) : (s.setBank bk b).sem = s.sem := rfl
@[simp] theorem State.setBank_banks (s : State) (bk : Nat) (b : Bank) : (s.setBank bk b).banks = SMap.put s.banks bk b := rfl
@[simp] theorem State.setBank_cores (s : State) (bk : Nat) (b : Bank) : (s.setBank bk b).cores = s.cores := rfl
@[simp] theorem State.setBank_ctxs (s : State) (bk : Nat) (b : Bank) : (s.setBank bk b).ctxs = s.ctxs := rfl
@[simp] theorem State.setBank_tasks (s : State) (bk : Nat) (b : Bank) : (s.setBank bk b).tasks = s.tasks := rfl
@[simp] theorem State.setBank_dir (s : State) (bk : Nat) (b : Bank) : (s.setBank bk b).dir = s.dir := rfl
@[simp] theorem State.setBank_resv (s : State) (bk : Nat) (b : Bank) : (s.setBank bk b).resv = s.resv := rfl
@[simp] theorem State.setBank_bad (s : State) (bk : Nat) (b : Bank) : (s.setBank bk b).bad = s.bad := rfl
@[simp] theorem State.setBank_hostBad (s : State) (bk : Nat) (b : Bank) : (s.setBank bk b).hostBad = s.hostBad := rfl
@[simp] theorem State.setBank_faults (s : State) (bk : Nat) (b : Bank) : (s.setBank bk b).faults = s.faults := rfl
@[simp] theorem State.setBank_heldFaults (s : State) (bk : Nat) (b : Bank) : (s.setBank bk b).heldFaults = s.heldFaults := rfl
@[simp] theorem State.setBank_faultGen (s : State) (bk : Nat) (b : Bank) : (s.setBank bk b).faultGen = s.faultGen := rfl
@[simp] theorem State.setBank_heldGen (s : State) (bk : Nat) (b : Bank) : (s.setBank bk b).heldGen = s.heldGen := rfl
@[simp] theorem State.setBank_msix (s : State) (bk : Nat) (b : Bank) : (s.setBank bk b).msix = s.msix := rfl
@[simp] theorem State.setBank_groups (s : State) (bk : Nat) (b : Bank) : (s.setBank bk b).groups = s.groups := rfl
@[simp] theorem State.setBank_withdrawn (s : State) (bk : Nat) (b : Bank) : (s.setBank bk b).withdrawn = s.withdrawn := rfl
@[simp] theorem State.setBank_flights (s : State) (bk : Nat) (b : Bank) : (s.setBank bk b).flights = s.flights := rfl
@[simp] theorem State.setBank_notices (s : State) (bk : Nat) (b : Bank) : (s.setBank bk b).notices = s.notices := rfl
@[simp] theorem State.setBank_work (s : State) (bk : Nat) (b : Bank) : (s.setBank bk b).work = s.work := rfl
@[simp] theorem State.setBank_tlb2 (s : State) (bk : Nat) (b : Bank) : (s.setBank bk b).tlb2 = s.tlb2 := rfl
@[simp] theorem State.setBank_moves (s : State) (bk : Nat) (b : Bank) : (s.setBank bk b).moves = s.moves := rfl
@[simp] theorem State.setBank_slots (s : State) (bk : Nat) (b : Bank) : (s.setBank bk b).slots = s.slots := rfl
@[simp] theorem State.setBank_seals (s : State) (bk : Nat) (b : Bank) : (s.setBank bk b).seals = s.seals := rfl
@[simp] theorem State.setBank_sealCount (s : State) (bk : Nat) (b : Bank) : (s.setBank bk b).sealCount = s.sealCount := rfl
@[simp] theorem State.setBank_lmap (s : State) (bk : Nat) (b : Bank) : (s.setBank bk b).lmap = s.lmap := rfl
@[simp] theorem State.setBank_lastPhys (s : State) (bk : Nat) (b : Bank) : (s.setBank bk b).lastPhys = s.lastPhys := rfl
@[simp] theorem State.setBank_phys (s : State) (bk : Nat) (b : Bank) : (s.setBank bk b).phys = s.phys := rfl
@[simp] theorem State.setBank_quads (s : State) (bk : Nat) (b : Bank) : (s.setBank bk b).quads = s.quads := rfl
@[simp] theorem State.setBank_hbm (s : State) (bk : Nat) (b : Bank) : (s.setBank bk b).hbm = s.hbm := rfl
@[simp] theorem State.setBank_ports (s : State) (bk : Nat) (b : Bank) : (s.setBank bk b).ports = s.ports := rfl
@[simp] theorem State.setBank_modl (s : State) (bk : Nat) (b : Bank) : (s.setBank bk b).modl = s.modl := rfl

/-! ### modBank -/

@[simp] theorem State.modBank_inputs (s : State) (bk : Nat) (f : Bank → Bank) : (s.modBank bk f).inputs = s.inputs := rfl
@[simp] theorem State.modBank_hostHeld (s : State) (bk : Nat) (f : Bank → Bank) : (s.modBank bk f).hostHeld = s.hostHeld := rfl
@[simp] theorem State.modBank_curCore (s : State) (bk : Nat) (f : Bank → Bank) : (s.modBank bk f).curCore = s.curCore := rfl
@[simp] theorem State.modBank_curBank (s : State) (bk : Nat) (f : Bank → Bank) : (s.modBank bk f).curBank = s.curBank := rfl
@[simp] theorem State.modBank_ir (s : State) (bk : Nat) (f : Bank → Bank) : (s.modBank bk f).ir = s.ir := rfl
@[simp] theorem State.modBank_fresh (s : State) (bk : Nat) (f : Bank → Bank) : (s.modBank bk f).fresh = s.fresh := rfl
@[simp] theorem State.modBank_cycle (s : State) (bk : Nat) (f : Bank → Bank) : (s.modBank bk f).cycle = s.cycle := rfl
@[simp] theorem State.modBank_budgetTicks (s : State) (bk : Nat) (f : Bank → Bank) : (s.modBank bk f).budgetTicks = s.budgetTicks := rfl
@[simp] theorem State.modBank_mem (s : State) (bk : Nat) (f : Bank → Bank) : (s.modBank bk f).mem = s.mem := rfl
@[simp] theorem State.modBank_sem (s : State) (bk : Nat) (f : Bank → Bank) : (s.modBank bk f).sem = s.sem := rfl
@[simp] theorem State.modBank_banks (s : State) (bk : Nat) (f : Bank → Bank) : (s.modBank bk f).banks = SMap.put s.banks bk (f (s.bank bk)) := rfl
@[simp] theorem State.modBank_cores (s : State) (bk : Nat) (f : Bank → Bank) : (s.modBank bk f).cores = s.cores := rfl
@[simp] theorem State.modBank_ctxs (s : State) (bk : Nat) (f : Bank → Bank) : (s.modBank bk f).ctxs = s.ctxs := rfl
@[simp] theorem State.modBank_tasks (s : State) (bk : Nat) (f : Bank → Bank) : (s.modBank bk f).tasks = s.tasks := rfl
@[simp] theorem State.modBank_dir (s : State) (bk : Nat) (f : Bank → Bank) : (s.modBank bk f).dir = s.dir := rfl
@[simp] theorem State.modBank_resv (s : State) (bk : Nat) (f : Bank → Bank) : (s.modBank bk f).resv = s.resv := rfl
@[simp] theorem State.modBank_bad (s : State) (bk : Nat) (f : Bank → Bank) : (s.modBank bk f).bad = s.bad := rfl
@[simp] theorem State.modBank_hostBad (s : State) (bk : Nat) (f : Bank → Bank) : (s.modBank bk f).hostBad = s.hostBad := rfl
@[simp] theorem State.modBank_faults (s : State) (bk : Nat) (f : Bank → Bank) : (s.modBank bk f).faults = s.faults := rfl
@[simp] theorem State.modBank_heldFaults (s : State) (bk : Nat) (f : Bank → Bank) : (s.modBank bk f).heldFaults = s.heldFaults := rfl
@[simp] theorem State.modBank_faultGen (s : State) (bk : Nat) (f : Bank → Bank) : (s.modBank bk f).faultGen = s.faultGen := rfl
@[simp] theorem State.modBank_heldGen (s : State) (bk : Nat) (f : Bank → Bank) : (s.modBank bk f).heldGen = s.heldGen := rfl
@[simp] theorem State.modBank_msix (s : State) (bk : Nat) (f : Bank → Bank) : (s.modBank bk f).msix = s.msix := rfl
@[simp] theorem State.modBank_groups (s : State) (bk : Nat) (f : Bank → Bank) : (s.modBank bk f).groups = s.groups := rfl
@[simp] theorem State.modBank_withdrawn (s : State) (bk : Nat) (f : Bank → Bank) : (s.modBank bk f).withdrawn = s.withdrawn := rfl
@[simp] theorem State.modBank_flights (s : State) (bk : Nat) (f : Bank → Bank) : (s.modBank bk f).flights = s.flights := rfl
@[simp] theorem State.modBank_notices (s : State) (bk : Nat) (f : Bank → Bank) : (s.modBank bk f).notices = s.notices := rfl
@[simp] theorem State.modBank_work (s : State) (bk : Nat) (f : Bank → Bank) : (s.modBank bk f).work = s.work := rfl
@[simp] theorem State.modBank_tlb2 (s : State) (bk : Nat) (f : Bank → Bank) : (s.modBank bk f).tlb2 = s.tlb2 := rfl
@[simp] theorem State.modBank_moves (s : State) (bk : Nat) (f : Bank → Bank) : (s.modBank bk f).moves = s.moves := rfl
@[simp] theorem State.modBank_slots (s : State) (bk : Nat) (f : Bank → Bank) : (s.modBank bk f).slots = s.slots := rfl
@[simp] theorem State.modBank_seals (s : State) (bk : Nat) (f : Bank → Bank) : (s.modBank bk f).seals = s.seals := rfl
@[simp] theorem State.modBank_sealCount (s : State) (bk : Nat) (f : Bank → Bank) : (s.modBank bk f).sealCount = s.sealCount := rfl
@[simp] theorem State.modBank_lmap (s : State) (bk : Nat) (f : Bank → Bank) : (s.modBank bk f).lmap = s.lmap := rfl
@[simp] theorem State.modBank_lastPhys (s : State) (bk : Nat) (f : Bank → Bank) : (s.modBank bk f).lastPhys = s.lastPhys := rfl
@[simp] theorem State.modBank_phys (s : State) (bk : Nat) (f : Bank → Bank) : (s.modBank bk f).phys = s.phys := rfl
@[simp] theorem State.modBank_quads (s : State) (bk : Nat) (f : Bank → Bank) : (s.modBank bk f).quads = s.quads := rfl
@[simp] theorem State.modBank_hbm (s : State) (bk : Nat) (f : Bank → Bank) : (s.modBank bk f).hbm = s.hbm := rfl
@[simp] theorem State.modBank_ports (s : State) (bk : Nat) (f : Bank → Bank) : (s.modBank bk f).ports = s.ports := rfl
@[simp] theorem State.modBank_modl (s : State) (bk : Nat) (f : Bank → Bank) : (s.modBank bk f).modl = s.modl := rfl

/-! ### setCore -/

@[simp] theorem State.setCore_inputs (s : State) (ck : Nat) (c : Core) : (s.setCore ck c).inputs = s.inputs := rfl
@[simp] theorem State.setCore_hostHeld (s : State) (ck : Nat) (c : Core) : (s.setCore ck c).hostHeld = s.hostHeld := rfl
@[simp] theorem State.setCore_curCore (s : State) (ck : Nat) (c : Core) : (s.setCore ck c).curCore = s.curCore := rfl
@[simp] theorem State.setCore_curBank (s : State) (ck : Nat) (c : Core) : (s.setCore ck c).curBank = s.curBank := rfl
@[simp] theorem State.setCore_ir (s : State) (ck : Nat) (c : Core) : (s.setCore ck c).ir = s.ir := rfl
@[simp] theorem State.setCore_fresh (s : State) (ck : Nat) (c : Core) : (s.setCore ck c).fresh = s.fresh := rfl
@[simp] theorem State.setCore_cycle (s : State) (ck : Nat) (c : Core) : (s.setCore ck c).cycle = s.cycle := rfl
@[simp] theorem State.setCore_budgetTicks (s : State) (ck : Nat) (c : Core) : (s.setCore ck c).budgetTicks = s.budgetTicks := rfl
@[simp] theorem State.setCore_mem (s : State) (ck : Nat) (c : Core) : (s.setCore ck c).mem = s.mem := rfl
@[simp] theorem State.setCore_sem (s : State) (ck : Nat) (c : Core) : (s.setCore ck c).sem = s.sem := rfl
@[simp] theorem State.setCore_banks (s : State) (ck : Nat) (c : Core) : (s.setCore ck c).banks = s.banks := rfl
@[simp] theorem State.setCore_cores (s : State) (ck : Nat) (c : Core) : (s.setCore ck c).cores = SMap.put s.cores ck c := rfl
@[simp] theorem State.setCore_ctxs (s : State) (ck : Nat) (c : Core) : (s.setCore ck c).ctxs = s.ctxs := rfl
@[simp] theorem State.setCore_tasks (s : State) (ck : Nat) (c : Core) : (s.setCore ck c).tasks = s.tasks := rfl
@[simp] theorem State.setCore_dir (s : State) (ck : Nat) (c : Core) : (s.setCore ck c).dir = s.dir := rfl
@[simp] theorem State.setCore_resv (s : State) (ck : Nat) (c : Core) : (s.setCore ck c).resv = s.resv := rfl
@[simp] theorem State.setCore_bad (s : State) (ck : Nat) (c : Core) : (s.setCore ck c).bad = s.bad := rfl
@[simp] theorem State.setCore_hostBad (s : State) (ck : Nat) (c : Core) : (s.setCore ck c).hostBad = s.hostBad := rfl
@[simp] theorem State.setCore_faults (s : State) (ck : Nat) (c : Core) : (s.setCore ck c).faults = s.faults := rfl
@[simp] theorem State.setCore_heldFaults (s : State) (ck : Nat) (c : Core) : (s.setCore ck c).heldFaults = s.heldFaults := rfl
@[simp] theorem State.setCore_faultGen (s : State) (ck : Nat) (c : Core) : (s.setCore ck c).faultGen = s.faultGen := rfl
@[simp] theorem State.setCore_heldGen (s : State) (ck : Nat) (c : Core) : (s.setCore ck c).heldGen = s.heldGen := rfl
@[simp] theorem State.setCore_msix (s : State) (ck : Nat) (c : Core) : (s.setCore ck c).msix = s.msix := rfl
@[simp] theorem State.setCore_groups (s : State) (ck : Nat) (c : Core) : (s.setCore ck c).groups = s.groups := rfl
@[simp] theorem State.setCore_withdrawn (s : State) (ck : Nat) (c : Core) : (s.setCore ck c).withdrawn = s.withdrawn := rfl
@[simp] theorem State.setCore_flights (s : State) (ck : Nat) (c : Core) : (s.setCore ck c).flights = s.flights := rfl
@[simp] theorem State.setCore_notices (s : State) (ck : Nat) (c : Core) : (s.setCore ck c).notices = s.notices := rfl
@[simp] theorem State.setCore_work (s : State) (ck : Nat) (c : Core) : (s.setCore ck c).work = s.work := rfl
@[simp] theorem State.setCore_tlb2 (s : State) (ck : Nat) (c : Core) : (s.setCore ck c).tlb2 = s.tlb2 := rfl
@[simp] theorem State.setCore_moves (s : State) (ck : Nat) (c : Core) : (s.setCore ck c).moves = s.moves := rfl
@[simp] theorem State.setCore_slots (s : State) (ck : Nat) (c : Core) : (s.setCore ck c).slots = s.slots := rfl
@[simp] theorem State.setCore_seals (s : State) (ck : Nat) (c : Core) : (s.setCore ck c).seals = s.seals := rfl
@[simp] theorem State.setCore_sealCount (s : State) (ck : Nat) (c : Core) : (s.setCore ck c).sealCount = s.sealCount := rfl
@[simp] theorem State.setCore_lmap (s : State) (ck : Nat) (c : Core) : (s.setCore ck c).lmap = s.lmap := rfl
@[simp] theorem State.setCore_lastPhys (s : State) (ck : Nat) (c : Core) : (s.setCore ck c).lastPhys = s.lastPhys := rfl
@[simp] theorem State.setCore_phys (s : State) (ck : Nat) (c : Core) : (s.setCore ck c).phys = s.phys := rfl
@[simp] theorem State.setCore_quads (s : State) (ck : Nat) (c : Core) : (s.setCore ck c).quads = s.quads := rfl
@[simp] theorem State.setCore_hbm (s : State) (ck : Nat) (c : Core) : (s.setCore ck c).hbm = s.hbm := rfl
@[simp] theorem State.setCore_ports (s : State) (ck : Nat) (c : Core) : (s.setCore ck c).ports = s.ports := rfl
@[simp] theorem State.setCore_modl (s : State) (ck : Nat) (c : Core) : (s.setCore ck c).modl = s.modl := rfl

/-! ### modCore -/

@[simp] theorem State.modCore_inputs (s : State) (ck : Nat) (f : Core → Core) : (s.modCore ck f).inputs = s.inputs := rfl
@[simp] theorem State.modCore_hostHeld (s : State) (ck : Nat) (f : Core → Core) : (s.modCore ck f).hostHeld = s.hostHeld := rfl
@[simp] theorem State.modCore_curCore (s : State) (ck : Nat) (f : Core → Core) : (s.modCore ck f).curCore = s.curCore := rfl
@[simp] theorem State.modCore_curBank (s : State) (ck : Nat) (f : Core → Core) : (s.modCore ck f).curBank = s.curBank := rfl
@[simp] theorem State.modCore_ir (s : State) (ck : Nat) (f : Core → Core) : (s.modCore ck f).ir = s.ir := rfl
@[simp] theorem State.modCore_fresh (s : State) (ck : Nat) (f : Core → Core) : (s.modCore ck f).fresh = s.fresh := rfl
@[simp] theorem State.modCore_cycle (s : State) (ck : Nat) (f : Core → Core) : (s.modCore ck f).cycle = s.cycle := rfl
@[simp] theorem State.modCore_budgetTicks (s : State) (ck : Nat) (f : Core → Core) : (s.modCore ck f).budgetTicks = s.budgetTicks := rfl
@[simp] theorem State.modCore_mem (s : State) (ck : Nat) (f : Core → Core) : (s.modCore ck f).mem = s.mem := rfl
@[simp] theorem State.modCore_sem (s : State) (ck : Nat) (f : Core → Core) : (s.modCore ck f).sem = s.sem := rfl
@[simp] theorem State.modCore_banks (s : State) (ck : Nat) (f : Core → Core) : (s.modCore ck f).banks = s.banks := rfl
@[simp] theorem State.modCore_cores (s : State) (ck : Nat) (f : Core → Core) : (s.modCore ck f).cores = SMap.put s.cores ck (f (s.core ck)) := rfl
@[simp] theorem State.modCore_ctxs (s : State) (ck : Nat) (f : Core → Core) : (s.modCore ck f).ctxs = s.ctxs := rfl
@[simp] theorem State.modCore_tasks (s : State) (ck : Nat) (f : Core → Core) : (s.modCore ck f).tasks = s.tasks := rfl
@[simp] theorem State.modCore_dir (s : State) (ck : Nat) (f : Core → Core) : (s.modCore ck f).dir = s.dir := rfl
@[simp] theorem State.modCore_resv (s : State) (ck : Nat) (f : Core → Core) : (s.modCore ck f).resv = s.resv := rfl
@[simp] theorem State.modCore_bad (s : State) (ck : Nat) (f : Core → Core) : (s.modCore ck f).bad = s.bad := rfl
@[simp] theorem State.modCore_hostBad (s : State) (ck : Nat) (f : Core → Core) : (s.modCore ck f).hostBad = s.hostBad := rfl
@[simp] theorem State.modCore_faults (s : State) (ck : Nat) (f : Core → Core) : (s.modCore ck f).faults = s.faults := rfl
@[simp] theorem State.modCore_heldFaults (s : State) (ck : Nat) (f : Core → Core) : (s.modCore ck f).heldFaults = s.heldFaults := rfl
@[simp] theorem State.modCore_faultGen (s : State) (ck : Nat) (f : Core → Core) : (s.modCore ck f).faultGen = s.faultGen := rfl
@[simp] theorem State.modCore_heldGen (s : State) (ck : Nat) (f : Core → Core) : (s.modCore ck f).heldGen = s.heldGen := rfl
@[simp] theorem State.modCore_msix (s : State) (ck : Nat) (f : Core → Core) : (s.modCore ck f).msix = s.msix := rfl
@[simp] theorem State.modCore_groups (s : State) (ck : Nat) (f : Core → Core) : (s.modCore ck f).groups = s.groups := rfl
@[simp] theorem State.modCore_withdrawn (s : State) (ck : Nat) (f : Core → Core) : (s.modCore ck f).withdrawn = s.withdrawn := rfl
@[simp] theorem State.modCore_flights (s : State) (ck : Nat) (f : Core → Core) : (s.modCore ck f).flights = s.flights := rfl
@[simp] theorem State.modCore_notices (s : State) (ck : Nat) (f : Core → Core) : (s.modCore ck f).notices = s.notices := rfl
@[simp] theorem State.modCore_work (s : State) (ck : Nat) (f : Core → Core) : (s.modCore ck f).work = s.work := rfl
@[simp] theorem State.modCore_tlb2 (s : State) (ck : Nat) (f : Core → Core) : (s.modCore ck f).tlb2 = s.tlb2 := rfl
@[simp] theorem State.modCore_moves (s : State) (ck : Nat) (f : Core → Core) : (s.modCore ck f).moves = s.moves := rfl
@[simp] theorem State.modCore_slots (s : State) (ck : Nat) (f : Core → Core) : (s.modCore ck f).slots = s.slots := rfl
@[simp] theorem State.modCore_seals (s : State) (ck : Nat) (f : Core → Core) : (s.modCore ck f).seals = s.seals := rfl
@[simp] theorem State.modCore_sealCount (s : State) (ck : Nat) (f : Core → Core) : (s.modCore ck f).sealCount = s.sealCount := rfl
@[simp] theorem State.modCore_lmap (s : State) (ck : Nat) (f : Core → Core) : (s.modCore ck f).lmap = s.lmap := rfl
@[simp] theorem State.modCore_lastPhys (s : State) (ck : Nat) (f : Core → Core) : (s.modCore ck f).lastPhys = s.lastPhys := rfl
@[simp] theorem State.modCore_phys (s : State) (ck : Nat) (f : Core → Core) : (s.modCore ck f).phys = s.phys := rfl
@[simp] theorem State.modCore_quads (s : State) (ck : Nat) (f : Core → Core) : (s.modCore ck f).quads = s.quads := rfl
@[simp] theorem State.modCore_hbm (s : State) (ck : Nat) (f : Core → Core) : (s.modCore ck f).hbm = s.hbm := rfl
@[simp] theorem State.modCore_ports (s : State) (ck : Nat) (f : Core → Core) : (s.modCore ck f).ports = s.ports := rfl
@[simp] theorem State.modCore_modl (s : State) (ck : Nat) (f : Core → Core) : (s.modCore ck f).modl = s.modl := rfl

/-! ### setCtx -/

@[simp] theorem State.setCtx_inputs (s : State) (n : Nat) (c : Ctx) : (s.setCtx n c).inputs = s.inputs := rfl
@[simp] theorem State.setCtx_hostHeld (s : State) (n : Nat) (c : Ctx) : (s.setCtx n c).hostHeld = s.hostHeld := rfl
@[simp] theorem State.setCtx_curCore (s : State) (n : Nat) (c : Ctx) : (s.setCtx n c).curCore = s.curCore := rfl
@[simp] theorem State.setCtx_curBank (s : State) (n : Nat) (c : Ctx) : (s.setCtx n c).curBank = s.curBank := rfl
@[simp] theorem State.setCtx_ir (s : State) (n : Nat) (c : Ctx) : (s.setCtx n c).ir = s.ir := rfl
@[simp] theorem State.setCtx_fresh (s : State) (n : Nat) (c : Ctx) : (s.setCtx n c).fresh = s.fresh := rfl
@[simp] theorem State.setCtx_cycle (s : State) (n : Nat) (c : Ctx) : (s.setCtx n c).cycle = s.cycle := rfl
@[simp] theorem State.setCtx_budgetTicks (s : State) (n : Nat) (c : Ctx) : (s.setCtx n c).budgetTicks = s.budgetTicks := rfl
@[simp] theorem State.setCtx_mem (s : State) (n : Nat) (c : Ctx) : (s.setCtx n c).mem = s.mem := rfl
@[simp] theorem State.setCtx_sem (s : State) (n : Nat) (c : Ctx) : (s.setCtx n c).sem = s.sem := rfl
@[simp] theorem State.setCtx_banks (s : State) (n : Nat) (c : Ctx) : (s.setCtx n c).banks = s.banks := rfl
@[simp] theorem State.setCtx_cores (s : State) (n : Nat) (c : Ctx) : (s.setCtx n c).cores = s.cores := rfl
@[simp] theorem State.setCtx_ctxs (s : State) (n : Nat) (c : Ctx) : (s.setCtx n c).ctxs = SMap.put s.ctxs n c := rfl
@[simp] theorem State.setCtx_tasks (s : State) (n : Nat) (c : Ctx) : (s.setCtx n c).tasks = s.tasks := rfl
@[simp] theorem State.setCtx_dir (s : State) (n : Nat) (c : Ctx) : (s.setCtx n c).dir = s.dir := rfl
@[simp] theorem State.setCtx_resv (s : State) (n : Nat) (c : Ctx) : (s.setCtx n c).resv = s.resv := rfl
@[simp] theorem State.setCtx_bad (s : State) (n : Nat) (c : Ctx) : (s.setCtx n c).bad = s.bad := rfl
@[simp] theorem State.setCtx_hostBad (s : State) (n : Nat) (c : Ctx) : (s.setCtx n c).hostBad = s.hostBad := rfl
@[simp] theorem State.setCtx_faults (s : State) (n : Nat) (c : Ctx) : (s.setCtx n c).faults = s.faults := rfl
@[simp] theorem State.setCtx_heldFaults (s : State) (n : Nat) (c : Ctx) : (s.setCtx n c).heldFaults = s.heldFaults := rfl
@[simp] theorem State.setCtx_faultGen (s : State) (n : Nat) (c : Ctx) : (s.setCtx n c).faultGen = s.faultGen := rfl
@[simp] theorem State.setCtx_heldGen (s : State) (n : Nat) (c : Ctx) : (s.setCtx n c).heldGen = s.heldGen := rfl
@[simp] theorem State.setCtx_msix (s : State) (n : Nat) (c : Ctx) : (s.setCtx n c).msix = s.msix := rfl
@[simp] theorem State.setCtx_groups (s : State) (n : Nat) (c : Ctx) : (s.setCtx n c).groups = s.groups := rfl
@[simp] theorem State.setCtx_withdrawn (s : State) (n : Nat) (c : Ctx) : (s.setCtx n c).withdrawn = s.withdrawn := rfl
@[simp] theorem State.setCtx_flights (s : State) (n : Nat) (c : Ctx) : (s.setCtx n c).flights = s.flights := rfl
@[simp] theorem State.setCtx_notices (s : State) (n : Nat) (c : Ctx) : (s.setCtx n c).notices = s.notices := rfl
@[simp] theorem State.setCtx_work (s : State) (n : Nat) (c : Ctx) : (s.setCtx n c).work = s.work := rfl
@[simp] theorem State.setCtx_tlb2 (s : State) (n : Nat) (c : Ctx) : (s.setCtx n c).tlb2 = s.tlb2 := rfl
@[simp] theorem State.setCtx_moves (s : State) (n : Nat) (c : Ctx) : (s.setCtx n c).moves = s.moves := rfl
@[simp] theorem State.setCtx_slots (s : State) (n : Nat) (c : Ctx) : (s.setCtx n c).slots = s.slots := rfl
@[simp] theorem State.setCtx_seals (s : State) (n : Nat) (c : Ctx) : (s.setCtx n c).seals = s.seals := rfl
@[simp] theorem State.setCtx_sealCount (s : State) (n : Nat) (c : Ctx) : (s.setCtx n c).sealCount = s.sealCount := rfl
@[simp] theorem State.setCtx_lmap (s : State) (n : Nat) (c : Ctx) : (s.setCtx n c).lmap = s.lmap := rfl
@[simp] theorem State.setCtx_lastPhys (s : State) (n : Nat) (c : Ctx) : (s.setCtx n c).lastPhys = s.lastPhys := rfl
@[simp] theorem State.setCtx_phys (s : State) (n : Nat) (c : Ctx) : (s.setCtx n c).phys = s.phys := rfl
@[simp] theorem State.setCtx_quads (s : State) (n : Nat) (c : Ctx) : (s.setCtx n c).quads = s.quads := rfl
@[simp] theorem State.setCtx_hbm (s : State) (n : Nat) (c : Ctx) : (s.setCtx n c).hbm = s.hbm := rfl
@[simp] theorem State.setCtx_ports (s : State) (n : Nat) (c : Ctx) : (s.setCtx n c).ports = s.ports := rfl
@[simp] theorem State.setCtx_modl (s : State) (n : Nat) (c : Ctx) : (s.setCtx n c).modl = s.modl := rfl

/-! ### modCtx -/

@[simp] theorem State.modCtx_inputs (s : State) (n : Nat) (f : Ctx → Ctx) : (s.modCtx n f).inputs = s.inputs := rfl
@[simp] theorem State.modCtx_hostHeld (s : State) (n : Nat) (f : Ctx → Ctx) : (s.modCtx n f).hostHeld = s.hostHeld := rfl
@[simp] theorem State.modCtx_curCore (s : State) (n : Nat) (f : Ctx → Ctx) : (s.modCtx n f).curCore = s.curCore := rfl
@[simp] theorem State.modCtx_curBank (s : State) (n : Nat) (f : Ctx → Ctx) : (s.modCtx n f).curBank = s.curBank := rfl
@[simp] theorem State.modCtx_ir (s : State) (n : Nat) (f : Ctx → Ctx) : (s.modCtx n f).ir = s.ir := rfl
@[simp] theorem State.modCtx_fresh (s : State) (n : Nat) (f : Ctx → Ctx) : (s.modCtx n f).fresh = s.fresh := rfl
@[simp] theorem State.modCtx_cycle (s : State) (n : Nat) (f : Ctx → Ctx) : (s.modCtx n f).cycle = s.cycle := rfl
@[simp] theorem State.modCtx_budgetTicks (s : State) (n : Nat) (f : Ctx → Ctx) : (s.modCtx n f).budgetTicks = s.budgetTicks := rfl
@[simp] theorem State.modCtx_mem (s : State) (n : Nat) (f : Ctx → Ctx) : (s.modCtx n f).mem = s.mem := rfl
@[simp] theorem State.modCtx_sem (s : State) (n : Nat) (f : Ctx → Ctx) : (s.modCtx n f).sem = s.sem := rfl
@[simp] theorem State.modCtx_banks (s : State) (n : Nat) (f : Ctx → Ctx) : (s.modCtx n f).banks = s.banks := rfl
@[simp] theorem State.modCtx_cores (s : State) (n : Nat) (f : Ctx → Ctx) : (s.modCtx n f).cores = s.cores := rfl
@[simp] theorem State.modCtx_ctxs (s : State) (n : Nat) (f : Ctx → Ctx) : (s.modCtx n f).ctxs = SMap.put s.ctxs n (f (s.ctx n)) := rfl
@[simp] theorem State.modCtx_tasks (s : State) (n : Nat) (f : Ctx → Ctx) : (s.modCtx n f).tasks = s.tasks := rfl
@[simp] theorem State.modCtx_dir (s : State) (n : Nat) (f : Ctx → Ctx) : (s.modCtx n f).dir = s.dir := rfl
@[simp] theorem State.modCtx_resv (s : State) (n : Nat) (f : Ctx → Ctx) : (s.modCtx n f).resv = s.resv := rfl
@[simp] theorem State.modCtx_bad (s : State) (n : Nat) (f : Ctx → Ctx) : (s.modCtx n f).bad = s.bad := rfl
@[simp] theorem State.modCtx_hostBad (s : State) (n : Nat) (f : Ctx → Ctx) : (s.modCtx n f).hostBad = s.hostBad := rfl
@[simp] theorem State.modCtx_faults (s : State) (n : Nat) (f : Ctx → Ctx) : (s.modCtx n f).faults = s.faults := rfl
@[simp] theorem State.modCtx_heldFaults (s : State) (n : Nat) (f : Ctx → Ctx) : (s.modCtx n f).heldFaults = s.heldFaults := rfl
@[simp] theorem State.modCtx_faultGen (s : State) (n : Nat) (f : Ctx → Ctx) : (s.modCtx n f).faultGen = s.faultGen := rfl
@[simp] theorem State.modCtx_heldGen (s : State) (n : Nat) (f : Ctx → Ctx) : (s.modCtx n f).heldGen = s.heldGen := rfl
@[simp] theorem State.modCtx_msix (s : State) (n : Nat) (f : Ctx → Ctx) : (s.modCtx n f).msix = s.msix := rfl
@[simp] theorem State.modCtx_groups (s : State) (n : Nat) (f : Ctx → Ctx) : (s.modCtx n f).groups = s.groups := rfl
@[simp] theorem State.modCtx_withdrawn (s : State) (n : Nat) (f : Ctx → Ctx) : (s.modCtx n f).withdrawn = s.withdrawn := rfl
@[simp] theorem State.modCtx_flights (s : State) (n : Nat) (f : Ctx → Ctx) : (s.modCtx n f).flights = s.flights := rfl
@[simp] theorem State.modCtx_notices (s : State) (n : Nat) (f : Ctx → Ctx) : (s.modCtx n f).notices = s.notices := rfl
@[simp] theorem State.modCtx_work (s : State) (n : Nat) (f : Ctx → Ctx) : (s.modCtx n f).work = s.work := rfl
@[simp] theorem State.modCtx_tlb2 (s : State) (n : Nat) (f : Ctx → Ctx) : (s.modCtx n f).tlb2 = s.tlb2 := rfl
@[simp] theorem State.modCtx_moves (s : State) (n : Nat) (f : Ctx → Ctx) : (s.modCtx n f).moves = s.moves := rfl
@[simp] theorem State.modCtx_slots (s : State) (n : Nat) (f : Ctx → Ctx) : (s.modCtx n f).slots = s.slots := rfl
@[simp] theorem State.modCtx_seals (s : State) (n : Nat) (f : Ctx → Ctx) : (s.modCtx n f).seals = s.seals := rfl
@[simp] theorem State.modCtx_sealCount (s : State) (n : Nat) (f : Ctx → Ctx) : (s.modCtx n f).sealCount = s.sealCount := rfl
@[simp] theorem State.modCtx_lmap (s : State) (n : Nat) (f : Ctx → Ctx) : (s.modCtx n f).lmap = s.lmap := rfl
@[simp] theorem State.modCtx_lastPhys (s : State) (n : Nat) (f : Ctx → Ctx) : (s.modCtx n f).lastPhys = s.lastPhys := rfl
@[simp] theorem State.modCtx_phys (s : State) (n : Nat) (f : Ctx → Ctx) : (s.modCtx n f).phys = s.phys := rfl
@[simp] theorem State.modCtx_quads (s : State) (n : Nat) (f : Ctx → Ctx) : (s.modCtx n f).quads = s.quads := rfl
@[simp] theorem State.modCtx_hbm (s : State) (n : Nat) (f : Ctx → Ctx) : (s.modCtx n f).hbm = s.hbm := rfl
@[simp] theorem State.modCtx_ports (s : State) (n : Nat) (f : Ctx → Ctx) : (s.modCtx n f).ports = s.ports := rfl
@[simp] theorem State.modCtx_modl (s : State) (n : Nat) (f : Ctx → Ctx) : (s.modCtx n f).modl = s.modl := rfl

/-! ### setTask -/

@[simp] theorem State.setTask_inputs (s : State) (u : Nat) (t : Task) : (s.setTask u t).inputs = s.inputs := rfl
@[simp] theorem State.setTask_hostHeld (s : State) (u : Nat) (t : Task) : (s.setTask u t).hostHeld = s.hostHeld := rfl
@[simp] theorem State.setTask_curCore (s : State) (u : Nat) (t : Task) : (s.setTask u t).curCore = s.curCore := rfl
@[simp] theorem State.setTask_curBank (s : State) (u : Nat) (t : Task) : (s.setTask u t).curBank = s.curBank := rfl
@[simp] theorem State.setTask_ir (s : State) (u : Nat) (t : Task) : (s.setTask u t).ir = s.ir := rfl
@[simp] theorem State.setTask_fresh (s : State) (u : Nat) (t : Task) : (s.setTask u t).fresh = s.fresh := rfl
@[simp] theorem State.setTask_cycle (s : State) (u : Nat) (t : Task) : (s.setTask u t).cycle = s.cycle := rfl
@[simp] theorem State.setTask_budgetTicks (s : State) (u : Nat) (t : Task) : (s.setTask u t).budgetTicks = s.budgetTicks := rfl
@[simp] theorem State.setTask_mem (s : State) (u : Nat) (t : Task) : (s.setTask u t).mem = s.mem := rfl
@[simp] theorem State.setTask_sem (s : State) (u : Nat) (t : Task) : (s.setTask u t).sem = s.sem := rfl
@[simp] theorem State.setTask_banks (s : State) (u : Nat) (t : Task) : (s.setTask u t).banks = s.banks := rfl
@[simp] theorem State.setTask_cores (s : State) (u : Nat) (t : Task) : (s.setTask u t).cores = s.cores := rfl
@[simp] theorem State.setTask_ctxs (s : State) (u : Nat) (t : Task) : (s.setTask u t).ctxs = s.ctxs := rfl
@[simp] theorem State.setTask_tasks (s : State) (u : Nat) (t : Task) : (s.setTask u t).tasks = SMap.put s.tasks u t := rfl
@[simp] theorem State.setTask_dir (s : State) (u : Nat) (t : Task) : (s.setTask u t).dir = s.dir := rfl
@[simp] theorem State.setTask_resv (s : State) (u : Nat) (t : Task) : (s.setTask u t).resv = s.resv := rfl
@[simp] theorem State.setTask_bad (s : State) (u : Nat) (t : Task) : (s.setTask u t).bad = s.bad := rfl
@[simp] theorem State.setTask_hostBad (s : State) (u : Nat) (t : Task) : (s.setTask u t).hostBad = s.hostBad := rfl
@[simp] theorem State.setTask_faults (s : State) (u : Nat) (t : Task) : (s.setTask u t).faults = s.faults := rfl
@[simp] theorem State.setTask_heldFaults (s : State) (u : Nat) (t : Task) : (s.setTask u t).heldFaults = s.heldFaults := rfl
@[simp] theorem State.setTask_faultGen (s : State) (u : Nat) (t : Task) : (s.setTask u t).faultGen = s.faultGen := rfl
@[simp] theorem State.setTask_heldGen (s : State) (u : Nat) (t : Task) : (s.setTask u t).heldGen = s.heldGen := rfl
@[simp] theorem State.setTask_msix (s : State) (u : Nat) (t : Task) : (s.setTask u t).msix = s.msix := rfl
@[simp] theorem State.setTask_groups (s : State) (u : Nat) (t : Task) : (s.setTask u t).groups = s.groups := rfl
@[simp] theorem State.setTask_withdrawn (s : State) (u : Nat) (t : Task) : (s.setTask u t).withdrawn = s.withdrawn := rfl
@[simp] theorem State.setTask_flights (s : State) (u : Nat) (t : Task) : (s.setTask u t).flights = s.flights := rfl
@[simp] theorem State.setTask_notices (s : State) (u : Nat) (t : Task) : (s.setTask u t).notices = s.notices := rfl
@[simp] theorem State.setTask_work (s : State) (u : Nat) (t : Task) : (s.setTask u t).work = s.work := rfl
@[simp] theorem State.setTask_tlb2 (s : State) (u : Nat) (t : Task) : (s.setTask u t).tlb2 = s.tlb2 := rfl
@[simp] theorem State.setTask_moves (s : State) (u : Nat) (t : Task) : (s.setTask u t).moves = s.moves := rfl
@[simp] theorem State.setTask_slots (s : State) (u : Nat) (t : Task) : (s.setTask u t).slots = s.slots := rfl
@[simp] theorem State.setTask_seals (s : State) (u : Nat) (t : Task) : (s.setTask u t).seals = s.seals := rfl
@[simp] theorem State.setTask_sealCount (s : State) (u : Nat) (t : Task) : (s.setTask u t).sealCount = s.sealCount := rfl
@[simp] theorem State.setTask_lmap (s : State) (u : Nat) (t : Task) : (s.setTask u t).lmap = s.lmap := rfl
@[simp] theorem State.setTask_lastPhys (s : State) (u : Nat) (t : Task) : (s.setTask u t).lastPhys = s.lastPhys := rfl
@[simp] theorem State.setTask_phys (s : State) (u : Nat) (t : Task) : (s.setTask u t).phys = s.phys := rfl
@[simp] theorem State.setTask_quads (s : State) (u : Nat) (t : Task) : (s.setTask u t).quads = s.quads := rfl
@[simp] theorem State.setTask_hbm (s : State) (u : Nat) (t : Task) : (s.setTask u t).hbm = s.hbm := rfl
@[simp] theorem State.setTask_ports (s : State) (u : Nat) (t : Task) : (s.setTask u t).ports = s.ports := rfl
@[simp] theorem State.setTask_modl (s : State) (u : Nat) (t : Task) : (s.setTask u t).modl = s.modl := rfl

/-! ### signal -/

@[simp] theorem State.signal_inputs (s : State) (v : Nat) : (s.signal v).inputs = s.inputs := rfl
@[simp] theorem State.signal_hostHeld (s : State) (v : Nat) : (s.signal v).hostHeld = s.hostHeld := rfl
@[simp] theorem State.signal_curCore (s : State) (v : Nat) : (s.signal v).curCore = s.curCore := rfl
@[simp] theorem State.signal_curBank (s : State) (v : Nat) : (s.signal v).curBank = s.curBank := rfl
@[simp] theorem State.signal_ir (s : State) (v : Nat) : (s.signal v).ir = s.ir := rfl
@[simp] theorem State.signal_fresh (s : State) (v : Nat) : (s.signal v).fresh = s.fresh := rfl
@[simp] theorem State.signal_cycle (s : State) (v : Nat) : (s.signal v).cycle = s.cycle := rfl
@[simp] theorem State.signal_budgetTicks (s : State) (v : Nat) : (s.signal v).budgetTicks = s.budgetTicks := rfl
@[simp] theorem State.signal_mem (s : State) (v : Nat) : (s.signal v).mem = s.mem := rfl
@[simp] theorem State.signal_sem (s : State) (v : Nat) : (s.signal v).sem = s.sem := rfl
@[simp] theorem State.signal_banks (s : State) (v : Nat) : (s.signal v).banks = s.banks := rfl
@[simp] theorem State.signal_cores (s : State) (v : Nat) : (s.signal v).cores = s.cores := rfl
@[simp] theorem State.signal_ctxs (s : State) (v : Nat) : (s.signal v).ctxs = s.ctxs := rfl
@[simp] theorem State.signal_tasks (s : State) (v : Nat) : (s.signal v).tasks = s.tasks := rfl
@[simp] theorem State.signal_dir (s : State) (v : Nat) : (s.signal v).dir = s.dir := rfl
@[simp] theorem State.signal_resv (s : State) (v : Nat) : (s.signal v).resv = s.resv := rfl
@[simp] theorem State.signal_bad (s : State) (v : Nat) : (s.signal v).bad = s.bad := rfl
@[simp] theorem State.signal_hostBad (s : State) (v : Nat) : (s.signal v).hostBad = s.hostBad := rfl
@[simp] theorem State.signal_faults (s : State) (v : Nat) : (s.signal v).faults = s.faults := rfl
@[simp] theorem State.signal_heldFaults (s : State) (v : Nat) : (s.signal v).heldFaults = s.heldFaults := rfl
@[simp] theorem State.signal_faultGen (s : State) (v : Nat) : (s.signal v).faultGen = s.faultGen := rfl
@[simp] theorem State.signal_heldGen (s : State) (v : Nat) : (s.signal v).heldGen = s.heldGen := rfl
@[simp] theorem State.signal_msix (s : State) (v : Nat) : (s.signal v).msix = s.msix ++ [v] := rfl
@[simp] theorem State.signal_groups (s : State) (v : Nat) : (s.signal v).groups = s.groups := rfl
@[simp] theorem State.signal_withdrawn (s : State) (v : Nat) : (s.signal v).withdrawn = s.withdrawn := rfl
@[simp] theorem State.signal_flights (s : State) (v : Nat) : (s.signal v).flights = s.flights := rfl
@[simp] theorem State.signal_notices (s : State) (v : Nat) : (s.signal v).notices = s.notices := rfl
@[simp] theorem State.signal_work (s : State) (v : Nat) : (s.signal v).work = s.work := rfl
@[simp] theorem State.signal_tlb2 (s : State) (v : Nat) : (s.signal v).tlb2 = s.tlb2 := rfl
@[simp] theorem State.signal_moves (s : State) (v : Nat) : (s.signal v).moves = s.moves := rfl
@[simp] theorem State.signal_slots (s : State) (v : Nat) : (s.signal v).slots = s.slots := rfl
@[simp] theorem State.signal_seals (s : State) (v : Nat) : (s.signal v).seals = s.seals := rfl
@[simp] theorem State.signal_sealCount (s : State) (v : Nat) : (s.signal v).sealCount = s.sealCount := rfl
@[simp] theorem State.signal_lmap (s : State) (v : Nat) : (s.signal v).lmap = s.lmap := rfl
@[simp] theorem State.signal_lastPhys (s : State) (v : Nat) : (s.signal v).lastPhys = s.lastPhys := rfl
@[simp] theorem State.signal_phys (s : State) (v : Nat) : (s.signal v).phys = s.phys := rfl
@[simp] theorem State.signal_quads (s : State) (v : Nat) : (s.signal v).quads = s.quads := rfl
@[simp] theorem State.signal_hbm (s : State) (v : Nat) : (s.signal v).hbm = s.hbm := rfl
@[simp] theorem State.signal_ports (s : State) (v : Nat) : (s.signal v).ports = s.ports := rfl
@[simp] theorem State.signal_modl (s : State) (v : Nat) : (s.signal v).modl = s.modl := rfl

/-! ### wx -/

@[simp] theorem State.wx_inputs (s : State) (bk : Nat) (r : BitVec 5) (v : Word) : (s.wx bk r v).inputs = s.inputs := rfl
@[simp] theorem State.wx_hostHeld (s : State) (bk : Nat) (r : BitVec 5) (v : Word) : (s.wx bk r v).hostHeld = s.hostHeld := rfl
@[simp] theorem State.wx_curCore (s : State) (bk : Nat) (r : BitVec 5) (v : Word) : (s.wx bk r v).curCore = s.curCore := rfl
@[simp] theorem State.wx_curBank (s : State) (bk : Nat) (r : BitVec 5) (v : Word) : (s.wx bk r v).curBank = s.curBank := rfl
@[simp] theorem State.wx_ir (s : State) (bk : Nat) (r : BitVec 5) (v : Word) : (s.wx bk r v).ir = s.ir := rfl
@[simp] theorem State.wx_fresh (s : State) (bk : Nat) (r : BitVec 5) (v : Word) : (s.wx bk r v).fresh = s.fresh := rfl
@[simp] theorem State.wx_cycle (s : State) (bk : Nat) (r : BitVec 5) (v : Word) : (s.wx bk r v).cycle = s.cycle := rfl
@[simp] theorem State.wx_budgetTicks (s : State) (bk : Nat) (r : BitVec 5) (v : Word) : (s.wx bk r v).budgetTicks = s.budgetTicks := rfl
@[simp] theorem State.wx_mem (s : State) (bk : Nat) (r : BitVec 5) (v : Word) : (s.wx bk r v).mem = s.mem := rfl
@[simp] theorem State.wx_sem (s : State) (bk : Nat) (r : BitVec 5) (v : Word) : (s.wx bk r v).sem = s.sem := rfl
@[simp] theorem State.wx_banks (s : State) (bk : Nat) (r : BitVec 5) (v : Word) : (s.wx bk r v).banks = SMap.put s.banks bk ((s.bank bk).wx r.toNat v) := rfl
@[simp] theorem State.wx_cores (s : State) (bk : Nat) (r : BitVec 5) (v : Word) : (s.wx bk r v).cores = s.cores := rfl
@[simp] theorem State.wx_ctxs (s : State) (bk : Nat) (r : BitVec 5) (v : Word) : (s.wx bk r v).ctxs = s.ctxs := rfl
@[simp] theorem State.wx_tasks (s : State) (bk : Nat) (r : BitVec 5) (v : Word) : (s.wx bk r v).tasks = s.tasks := rfl
@[simp] theorem State.wx_dir (s : State) (bk : Nat) (r : BitVec 5) (v : Word) : (s.wx bk r v).dir = s.dir := rfl
@[simp] theorem State.wx_resv (s : State) (bk : Nat) (r : BitVec 5) (v : Word) : (s.wx bk r v).resv = s.resv := rfl
@[simp] theorem State.wx_bad (s : State) (bk : Nat) (r : BitVec 5) (v : Word) : (s.wx bk r v).bad = s.bad := rfl
@[simp] theorem State.wx_hostBad (s : State) (bk : Nat) (r : BitVec 5) (v : Word) : (s.wx bk r v).hostBad = s.hostBad := rfl
@[simp] theorem State.wx_faults (s : State) (bk : Nat) (r : BitVec 5) (v : Word) : (s.wx bk r v).faults = s.faults := rfl
@[simp] theorem State.wx_heldFaults (s : State) (bk : Nat) (r : BitVec 5) (v : Word) : (s.wx bk r v).heldFaults = s.heldFaults := rfl
@[simp] theorem State.wx_faultGen (s : State) (bk : Nat) (r : BitVec 5) (v : Word) : (s.wx bk r v).faultGen = s.faultGen := rfl
@[simp] theorem State.wx_heldGen (s : State) (bk : Nat) (r : BitVec 5) (v : Word) : (s.wx bk r v).heldGen = s.heldGen := rfl
@[simp] theorem State.wx_msix (s : State) (bk : Nat) (r : BitVec 5) (v : Word) : (s.wx bk r v).msix = s.msix := rfl
@[simp] theorem State.wx_groups (s : State) (bk : Nat) (r : BitVec 5) (v : Word) : (s.wx bk r v).groups = s.groups := rfl
@[simp] theorem State.wx_withdrawn (s : State) (bk : Nat) (r : BitVec 5) (v : Word) : (s.wx bk r v).withdrawn = s.withdrawn := rfl
@[simp] theorem State.wx_flights (s : State) (bk : Nat) (r : BitVec 5) (v : Word) : (s.wx bk r v).flights = s.flights := rfl
@[simp] theorem State.wx_notices (s : State) (bk : Nat) (r : BitVec 5) (v : Word) : (s.wx bk r v).notices = s.notices := rfl
@[simp] theorem State.wx_work (s : State) (bk : Nat) (r : BitVec 5) (v : Word) : (s.wx bk r v).work = s.work := rfl
@[simp] theorem State.wx_tlb2 (s : State) (bk : Nat) (r : BitVec 5) (v : Word) : (s.wx bk r v).tlb2 = s.tlb2 := rfl
@[simp] theorem State.wx_moves (s : State) (bk : Nat) (r : BitVec 5) (v : Word) : (s.wx bk r v).moves = s.moves := rfl
@[simp] theorem State.wx_slots (s : State) (bk : Nat) (r : BitVec 5) (v : Word) : (s.wx bk r v).slots = s.slots := rfl
@[simp] theorem State.wx_seals (s : State) (bk : Nat) (r : BitVec 5) (v : Word) : (s.wx bk r v).seals = s.seals := rfl
@[simp] theorem State.wx_sealCount (s : State) (bk : Nat) (r : BitVec 5) (v : Word) : (s.wx bk r v).sealCount = s.sealCount := rfl
@[simp] theorem State.wx_lmap (s : State) (bk : Nat) (r : BitVec 5) (v : Word) : (s.wx bk r v).lmap = s.lmap := rfl
@[simp] theorem State.wx_lastPhys (s : State) (bk : Nat) (r : BitVec 5) (v : Word) : (s.wx bk r v).lastPhys = s.lastPhys := rfl
@[simp] theorem State.wx_phys (s : State) (bk : Nat) (r : BitVec 5) (v : Word) : (s.wx bk r v).phys = s.phys := rfl
@[simp] theorem State.wx_quads (s : State) (bk : Nat) (r : BitVec 5) (v : Word) : (s.wx bk r v).quads = s.quads := rfl
@[simp] theorem State.wx_hbm (s : State) (bk : Nat) (r : BitVec 5) (v : Word) : (s.wx bk r v).hbm = s.hbm := rfl
@[simp] theorem State.wx_ports (s : State) (bk : Nat) (r : BitVec 5) (v : Word) : (s.wx bk r v).ports = s.ports := rfl
@[simp] theorem State.wx_modl (s : State) (bk : Nat) (r : BitVec 5) (v : Word) : (s.wx bk r v).modl = s.modl := rfl

/-! ### writeLoc -/

@[simp] theorem State.writeLoc_inputs (s : State) (loc : Nat) (bs : List Byte) : (s.writeLoc loc bs).inputs = s.inputs := rfl
@[simp] theorem State.writeLoc_hostHeld (s : State) (loc : Nat) (bs : List Byte) : (s.writeLoc loc bs).hostHeld = s.hostHeld := rfl
@[simp] theorem State.writeLoc_curCore (s : State) (loc : Nat) (bs : List Byte) : (s.writeLoc loc bs).curCore = s.curCore := rfl
@[simp] theorem State.writeLoc_curBank (s : State) (loc : Nat) (bs : List Byte) : (s.writeLoc loc bs).curBank = s.curBank := rfl
@[simp] theorem State.writeLoc_ir (s : State) (loc : Nat) (bs : List Byte) : (s.writeLoc loc bs).ir = s.ir := rfl
@[simp] theorem State.writeLoc_fresh (s : State) (loc : Nat) (bs : List Byte) : (s.writeLoc loc bs).fresh = s.fresh := rfl
@[simp] theorem State.writeLoc_cycle (s : State) (loc : Nat) (bs : List Byte) : (s.writeLoc loc bs).cycle = s.cycle := rfl
@[simp] theorem State.writeLoc_budgetTicks (s : State) (loc : Nat) (bs : List Byte) : (s.writeLoc loc bs).budgetTicks = s.budgetTicks := rfl
@[simp] theorem State.writeLoc_mem (s : State) (loc : Nat) (bs : List Byte) : (s.writeLoc loc bs).mem = Memory.writeList s.mem loc bs := rfl
@[simp] theorem State.writeLoc_sem (s : State) (loc : Nat) (bs : List Byte) : (s.writeLoc loc bs).sem = s.sem := rfl
@[simp] theorem State.writeLoc_banks (s : State) (loc : Nat) (bs : List Byte) : (s.writeLoc loc bs).banks = s.banks := rfl
@[simp] theorem State.writeLoc_cores (s : State) (loc : Nat) (bs : List Byte) : (s.writeLoc loc bs).cores = s.cores := rfl
@[simp] theorem State.writeLoc_ctxs (s : State) (loc : Nat) (bs : List Byte) : (s.writeLoc loc bs).ctxs = s.ctxs := rfl
@[simp] theorem State.writeLoc_tasks (s : State) (loc : Nat) (bs : List Byte) : (s.writeLoc loc bs).tasks = s.tasks := rfl
@[simp] theorem State.writeLoc_dir (s : State) (loc : Nat) (bs : List Byte) : (s.writeLoc loc bs).dir = s.dir := rfl
@[simp] theorem State.writeLoc_resv (s : State) (loc : Nat) (bs : List Byte) : (s.writeLoc loc bs).resv = s.resv.filter fun r => !(decide (sectorOf loc ≤ r.2) && decide (r.2 ≤ sectorOf (loc + bs.length - 1))) := rfl
@[simp] theorem State.writeLoc_bad (s : State) (loc : Nat) (bs : List Byte) : (s.writeLoc loc bs).bad = s.bad.filter fun x => !(decide (loc ≤ 32 * x) && decide (32 * x + 32 ≤ loc + bs.length)) := rfl
@[simp] theorem State.writeLoc_hostBad (s : State) (loc : Nat) (bs : List Byte) : (s.writeLoc loc bs).hostBad = s.hostBad := rfl
@[simp] theorem State.writeLoc_faults (s : State) (loc : Nat) (bs : List Byte) : (s.writeLoc loc bs).faults = s.faults := rfl
@[simp] theorem State.writeLoc_heldFaults (s : State) (loc : Nat) (bs : List Byte) : (s.writeLoc loc bs).heldFaults = s.heldFaults := rfl
@[simp] theorem State.writeLoc_faultGen (s : State) (loc : Nat) (bs : List Byte) : (s.writeLoc loc bs).faultGen = s.faultGen := rfl
@[simp] theorem State.writeLoc_heldGen (s : State) (loc : Nat) (bs : List Byte) : (s.writeLoc loc bs).heldGen = s.heldGen := rfl
@[simp] theorem State.writeLoc_msix (s : State) (loc : Nat) (bs : List Byte) : (s.writeLoc loc bs).msix = s.msix := rfl
@[simp] theorem State.writeLoc_groups (s : State) (loc : Nat) (bs : List Byte) : (s.writeLoc loc bs).groups = s.groups := rfl
@[simp] theorem State.writeLoc_withdrawn (s : State) (loc : Nat) (bs : List Byte) : (s.writeLoc loc bs).withdrawn = s.withdrawn := rfl
@[simp] theorem State.writeLoc_flights (s : State) (loc : Nat) (bs : List Byte) : (s.writeLoc loc bs).flights = s.flights := rfl
@[simp] theorem State.writeLoc_notices (s : State) (loc : Nat) (bs : List Byte) : (s.writeLoc loc bs).notices = s.notices := rfl
@[simp] theorem State.writeLoc_work (s : State) (loc : Nat) (bs : List Byte) : (s.writeLoc loc bs).work = s.work := rfl
@[simp] theorem State.writeLoc_tlb2 (s : State) (loc : Nat) (bs : List Byte) : (s.writeLoc loc bs).tlb2 = s.tlb2 := rfl
@[simp] theorem State.writeLoc_moves (s : State) (loc : Nat) (bs : List Byte) : (s.writeLoc loc bs).moves = s.moves := rfl
@[simp] theorem State.writeLoc_slots (s : State) (loc : Nat) (bs : List Byte) : (s.writeLoc loc bs).slots = s.slots := rfl
@[simp] theorem State.writeLoc_seals (s : State) (loc : Nat) (bs : List Byte) : (s.writeLoc loc bs).seals = s.seals := rfl
@[simp] theorem State.writeLoc_sealCount (s : State) (loc : Nat) (bs : List Byte) : (s.writeLoc loc bs).sealCount = s.sealCount := rfl
@[simp] theorem State.writeLoc_lmap (s : State) (loc : Nat) (bs : List Byte) : (s.writeLoc loc bs).lmap = s.lmap := rfl
@[simp] theorem State.writeLoc_lastPhys (s : State) (loc : Nat) (bs : List Byte) : (s.writeLoc loc bs).lastPhys = s.lastPhys := rfl
@[simp] theorem State.writeLoc_phys (s : State) (loc : Nat) (bs : List Byte) : (s.writeLoc loc bs).phys = s.phys := rfl
@[simp] theorem State.writeLoc_quads (s : State) (loc : Nat) (bs : List Byte) : (s.writeLoc loc bs).quads = s.quads := rfl
@[simp] theorem State.writeLoc_hbm (s : State) (loc : Nat) (bs : List Byte) : (s.writeLoc loc bs).hbm = s.hbm := rfl
@[simp] theorem State.writeLoc_ports (s : State) (loc : Nat) (bs : List Byte) : (s.writeLoc loc bs).ports = s.ports := rfl
@[simp] theorem State.writeLoc_modl (s : State) (loc : Nat) (bs : List Byte) : (s.writeLoc loc bs).modl = s.modl := rfl

/-! ### semWrite -/

@[simp] theorem State.semWrite_inputs (s : State) (k : Nat) (v : Word) : (s.semWrite k v).inputs = s.inputs := by unfold State.semWrite; split <;> rfl
@[simp] theorem State.semWrite_hostHeld (s : State) (k : Nat) (v : Word) : (s.semWrite k v).hostHeld = s.hostHeld := by unfold State.semWrite; split <;> rfl
@[simp] theorem State.semWrite_curCore (s : State) (k : Nat) (v : Word) : (s.semWrite k v).curCore = s.curCore := by unfold State.semWrite; split <;> rfl
@[simp] theorem State.semWrite_curBank (s : State) (k : Nat) (v : Word) : (s.semWrite k v).curBank = s.curBank := by unfold State.semWrite; split <;> rfl
@[simp] theorem State.semWrite_ir (s : State) (k : Nat) (v : Word) : (s.semWrite k v).ir = s.ir := by unfold State.semWrite; split <;> rfl
@[simp] theorem State.semWrite_fresh (s : State) (k : Nat) (v : Word) : (s.semWrite k v).fresh = s.fresh := by unfold State.semWrite; split <;> rfl
@[simp] theorem State.semWrite_cycle (s : State) (k : Nat) (v : Word) : (s.semWrite k v).cycle = s.cycle := by unfold State.semWrite; split <;> rfl
@[simp] theorem State.semWrite_budgetTicks (s : State) (k : Nat) (v : Word) : (s.semWrite k v).budgetTicks = s.budgetTicks := by unfold State.semWrite; split <;> rfl
@[simp] theorem State.semWrite_mem (s : State) (k : Nat) (v : Word) : (s.semWrite k v).mem = s.mem := by unfold State.semWrite; split <;> rfl
@[simp] theorem State.semWrite_sem (s : State) (k : Nat) (v : Word) : (s.semWrite k v).sem = SMap.set 0 s.sem k v := by unfold State.semWrite; split <;> rfl
@[simp] theorem State.semWrite_banks (s : State) (k : Nat) (v : Word) : (s.semWrite k v).banks = s.banks := by unfold State.semWrite; split <;> rfl
@[simp] theorem State.semWrite_cores (s : State) (k : Nat) (v : Word) : (s.semWrite k v).cores = s.cores := by unfold State.semWrite; split <;> rfl
@[simp] theorem State.semWrite_ctxs (s : State) (k : Nat) (v : Word) : (s.semWrite k v).ctxs = s.ctxs := by unfold State.semWrite; split <;> rfl
@[simp] theorem State.semWrite_dir (s : State) (k : Nat) (v : Word) : (s.semWrite k v).dir = s.dir := by unfold State.semWrite; split <;> rfl
@[simp] theorem State.semWrite_resv (s : State) (k : Nat) (v : Word) : (s.semWrite k v).resv = s.resv := by unfold State.semWrite; split <;> rfl
@[simp] theorem State.semWrite_bad (s : State) (k : Nat) (v : Word) : (s.semWrite k v).bad = s.bad := by unfold State.semWrite; split <;> rfl
@[simp] theorem State.semWrite_hostBad (s : State) (k : Nat) (v : Word) : (s.semWrite k v).hostBad = s.hostBad := by unfold State.semWrite; split <;> rfl
@[simp] theorem State.semWrite_faults (s : State) (k : Nat) (v : Word) : (s.semWrite k v).faults = s.faults := by unfold State.semWrite; split <;> rfl
@[simp] theorem State.semWrite_heldFaults (s : State) (k : Nat) (v : Word) : (s.semWrite k v).heldFaults = s.heldFaults := by unfold State.semWrite; split <;> rfl
@[simp] theorem State.semWrite_faultGen (s : State) (k : Nat) (v : Word) : (s.semWrite k v).faultGen = s.faultGen := by unfold State.semWrite; split <;> rfl
@[simp] theorem State.semWrite_heldGen (s : State) (k : Nat) (v : Word) : (s.semWrite k v).heldGen = s.heldGen := by unfold State.semWrite; split <;> rfl
@[simp] theorem State.semWrite_msix (s : State) (k : Nat) (v : Word) : (s.semWrite k v).msix = s.msix := by unfold State.semWrite; split <;> rfl
@[simp] theorem State.semWrite_groups (s : State) (k : Nat) (v : Word) : (s.semWrite k v).groups = s.groups := by unfold State.semWrite; split <;> rfl
@[simp] theorem State.semWrite_withdrawn (s : State) (k : Nat) (v : Word) : (s.semWrite k v).withdrawn = s.withdrawn := by unfold State.semWrite; split <;> rfl
@[simp] theorem State.semWrite_flights (s : State) (k : Nat) (v : Word) : (s.semWrite k v).flights = s.flights := by unfold State.semWrite; split <;> rfl
@[simp] theorem State.semWrite_notices (s : State) (k : Nat) (v : Word) : (s.semWrite k v).notices = s.notices := by unfold State.semWrite; split <;> rfl
@[simp] theorem State.semWrite_work (s : State) (k : Nat) (v : Word) : (s.semWrite k v).work = s.work := by unfold State.semWrite; split <;> rfl
@[simp] theorem State.semWrite_tlb2 (s : State) (k : Nat) (v : Word) : (s.semWrite k v).tlb2 = s.tlb2 := by unfold State.semWrite; split <;> rfl
@[simp] theorem State.semWrite_moves (s : State) (k : Nat) (v : Word) : (s.semWrite k v).moves = s.moves := by unfold State.semWrite; split <;> rfl
@[simp] theorem State.semWrite_slots (s : State) (k : Nat) (v : Word) : (s.semWrite k v).slots = s.slots := by unfold State.semWrite; split <;> rfl
@[simp] theorem State.semWrite_seals (s : State) (k : Nat) (v : Word) : (s.semWrite k v).seals = s.seals := by unfold State.semWrite; split <;> rfl
@[simp] theorem State.semWrite_sealCount (s : State) (k : Nat) (v : Word) : (s.semWrite k v).sealCount = s.sealCount := by unfold State.semWrite; split <;> rfl
@[simp] theorem State.semWrite_lmap (s : State) (k : Nat) (v : Word) : (s.semWrite k v).lmap = s.lmap := by unfold State.semWrite; split <;> rfl
@[simp] theorem State.semWrite_lastPhys (s : State) (k : Nat) (v : Word) : (s.semWrite k v).lastPhys = s.lastPhys := by unfold State.semWrite; split <;> rfl
@[simp] theorem State.semWrite_phys (s : State) (k : Nat) (v : Word) : (s.semWrite k v).phys = s.phys := by unfold State.semWrite; split <;> rfl
@[simp] theorem State.semWrite_quads (s : State) (k : Nat) (v : Word) : (s.semWrite k v).quads = s.quads := by unfold State.semWrite; split <;> rfl
@[simp] theorem State.semWrite_hbm (s : State) (k : Nat) (v : Word) : (s.semWrite k v).hbm = s.hbm := by unfold State.semWrite; split <;> rfl
@[simp] theorem State.semWrite_ports (s : State) (k : Nat) (v : Word) : (s.semWrite k v).ports = s.ports := by unfold State.semWrite; split <;> rfl
@[simp] theorem State.semWrite_modl (s : State) (k : Nat) (v : Word) : (s.semWrite k v).modl = s.modl := by unfold State.semWrite; split <;> rfl

/-! ### Bank.wx -/

@[simp] theorem Bank.wx_st (b : Bank) (r : Nat) (v : Word) : (b.wx r v).st = b.st := by unfold Bank.wx; split <;> rfl
@[simp] theorem Bank.wx_uid (b : Bank) (r : Nat) (v : Word) : (b.wx r v).uid = b.uid := by unfold Bank.wx; split <;> rfl
@[simp] theorem Bank.wx_mode (b : Bank) (r : Nat) (v : Word) : (b.wx r v).mode = b.mode := by unfold Bank.wx; split <;> rfl
@[simp] theorem Bank.wx_pc (b : Bank) (r : Nat) (v : Word) : (b.wx r v).pc = b.pc := by unfold Bank.wx; split <;> rfl
@[simp] theorem Bank.wx_v (b : Bank) (r : Nat) (v : Word) : (b.wx r v).v = b.v := by unfold Bank.wx; split <;> rfl
@[simp] theorem Bank.wx_rot (b : Bank) (r : Nat) (v : Word) : (b.wx r v).rot = b.rot := by unfold Bank.wx; split <;> rfl
@[simp] theorem Bank.wx_grant (b : Bank) (r : Nat) (v : Word) : (b.wx r v).grant = b.grant := by unfold Bank.wx; split <;> rfl
@[simp] theorem Bank.wx_p (b : Bank) (r : Nat) (v : Word) : (b.wx r v).p = b.p := by unfold Bank.wx; split <;> rfl
@[simp] theorem Bank.wx_vrb (b : Bank) (r : Nat) (v : Word) : (b.wx r v).vrb = b.vrb := by unfold Bank.wx; split <;> rfl
@[simp] theorem Bank.wx_prb (b : Bank) (r : Nat) (v : Word) : (b.wx r v).prb = b.prb := by unfold Bank.wx; split <;> rfl
@[simp] theorem Bank.wx_lc (b : Bank) (r : Nat) (v : Word) : (b.wx r v).lc = b.lc := by unfold Bank.wx; split <;> rfl
@[simp] theorem Bank.wx_streams (b : Bank) (r : Nat) (v : Word) : (b.wx r v).streams = b.streams := by unfold Bank.wx; split <;> rfl
@[simp] theorem Bank.wx_nrm (b : Bank) (r : Nat) (v : Word) : (b.wx r v).nrm = b.nrm := by unfold Bank.wx; split <;> rfl
@[simp] theorem Bank.wx_ntdet (b : Bank) (r : Nat) (v : Word) : (b.wx r v).ntdet = b.ntdet := by unfold Bank.wx; split <;> rfl
@[simp] theorem Bank.wx_stvec (b : Bank) (r : Nat) (v : Word) : (b.wx r v).stvec = b.stvec := by unfold Bank.wx; split <;> rfl
@[simp] theorem Bank.wx_sscratch (b : Bank) (r : Nat) (v : Word) : (b.wx r v).sscratch = b.sscratch := by unfold Bank.wx; split <;> rfl
@[simp] theorem Bank.wx_sepc (b : Bank) (r : Nat) (v : Word) : (b.wx r v).sepc = b.sepc := by unfold Bank.wx; split <;> rfl
@[simp] theorem Bank.wx_scause (b : Bank) (r : Nat) (v : Word) : (b.wx r v).scause = b.scause := by unfold Bank.wx; split <;> rfl
@[simp] theorem Bank.wx_stval (b : Bank) (r : Nat) (v : Word) : (b.wx r v).stval = b.stval := by unfold Bank.wx; split <;> rfl
@[simp] theorem Bank.wx_vupc (b : Bank) (r : Nat) (v : Word) : (b.wx r v).vupc = b.vupc := by unfold Bank.wx; split <;> rfl
@[simp] theorem Bank.wx_vl0 (b : Bank) (r : Nat) (v : Word) : (b.wx r v).vl0 = b.vl0 := by unfold Bank.wx; split <;> rfl
@[simp] theorem Bank.wx_vl1 (b : Bank) (r : Nat) (v : Word) : (b.wx r v).vl1 = b.vl1 := by unfold Bank.wx; split <;> rfl
@[simp] theorem Bank.wx_mupc (b : Bank) (r : Nat) (v : Word) : (b.wx r v).mupc = b.mupc := by unfold Bank.wx; split <;> rfl
@[simp] theorem Bank.wx_row (b : Bank) (r : Nat) (v : Word) : (b.wx r v).row = b.row := by unfold Bank.wx; split <;> rfl
@[simp] theorem Bank.wx_col (b : Bank) (r : Nat) (v : Word) : (b.wx r v).col = b.col := by unfold Bank.wx; split <;> rfl
@[simp] theorem Bank.wx_depth (b : Bank) (r : Nat) (v : Word) : (b.wx r v).depth = b.depth := by unfold Bank.wx; split <;> rfl
@[simp] theorem Bank.wx_cupc (b : Bank) (r : Nat) (v : Word) : (b.wx r v).cupc = b.cupc := by unfold Bank.wx; split <;> rfl
@[simp] theorem Bank.wx_cli (b : Bank) (r : Nat) (v : Word) : (b.wx r v).cli = b.cli := by unfold Bank.wx; split <;> rfl
@[simp] theorem Bank.wx_kseq (b : Bank) (r : Nat) (v : Word) : (b.wx r v).kseq = b.kseq := by unfold Bank.wx; split <;> rfl
@[simp] theorem Bank.wx_kstep (b : Bank) (r : Nat) (v : Word) : (b.wx r v).kstep = b.kstep := by unfold Bank.wx; split <;> rfl
@[simp] theorem Bank.wx_tl (b : Bank) (r : Nat) (v : Word) : (b.wx r v).tl = b.tl := by unfold Bank.wx; split <;> rfl
@[simp] theorem Bank.wx_claim (b : Bank) (r : Nat) (v : Word) : (b.wx r v).claim = b.claim := by unfold Bank.wx; split <;> rfl
@[simp] theorem Bank.wx_hold (b : Bank) (r : Nat) (v : Word) : (b.wx r v).hold = b.hold := by unfold Bank.wx; split <;> rfl
@[simp] theorem Bank.wx_crew (b : Bank) (r : Nat) (v : Word) : (b.wx r v).crew = b.crew := by unfold Bank.wx; split <;> rfl
@[simp] theorem Bank.wx_exposed (b : Bank) (r : Nat) (v : Word) : (b.wx r v).exposed = b.exposed := by unfold Bank.wx; split <;> rfl
@[simp] theorem Bank.wx_replay (b : Bank) (r : Nat) (v : Word) : (b.wx r v).replay = b.replay := by unfold Bank.wx; split <;> rfl
@[simp] theorem Bank.wx_waitFrom (b : Bank) (r : Nat) (v : Word) : (b.wx r v).waitFrom = b.waitFrom := by unfold Bank.wx; split <;> rfl
@[simp] theorem Bank.wx_waitCount (b : Bank) (r : Nat) (v : Word) : (b.wx r v).waitCount = b.waitCount := by unfold Bank.wx; split <;> rfl
@[simp] theorem Bank.wx_wait (b : Bank) (r : Nat) (v : Word) : (b.wx r v).wait = b.wait := by unfold Bank.wx; split <;> rfl
@[simp] theorem Bank.wx_granted (b : Bank) (r : Nat) (v : Word) : (b.wx r v).granted = b.granted := by unfold Bank.wx; split <;> rfl
@[simp] theorem Bank.wx_stuck (b : Bank) (r : Nat) (v : Word) : (b.wx r v).stuck = b.stuck := by unfold Bank.wx; split <;> rfl
@[simp] theorem Bank.wx_due (b : Bank) (r : Nat) (v : Word) : (b.wx r v).due = b.due := by unfold Bank.wx; split <;> rfl
@[simp] theorem Bank.wx_seq (b : Bank) (r : Nat) (v : Word) : (b.wx r v).seq = b.seq := by unfold Bank.wx; split <;> rfl
@[simp] theorem Bank.wx_pendX (b : Bank) (r : Nat) (v : Word) : (b.wx r v).pendX = b.pendX := by unfold Bank.wx; split <;> rfl
@[simp] theorem Bank.wx_hans (b : Bank) (r : Nat) (v : Word) : (b.wx r v).hans = b.hans := by unfold Bank.wx; split <;> rfl
@[simp] theorem Bank.wx_pf (b : Bank) (r : Nat) (v : Word) : (b.wx r v).pf = b.pf := by unfold Bank.wx; split <;> rfl
@[simp] theorem Bank.wx_parkTick (b : Bank) (r : Nat) (v : Word) : (b.wx r v).parkTick = b.parkTick := by unfold Bank.wx; split <;> rfl
@[simp] theorem Bank.wx_runAt (b : Bank) (r : Nat) (v : Word) : (b.wx r v).runAt = b.runAt := by unfold Bank.wx; split <;> rfl
@[simp] theorem Bank.wx_prevMat (b : Bank) (r : Nat) (v : Word) : (b.wx r v).prevMat = b.prevMat := by unfold Bank.wx; split <;> rfl
@[simp] theorem Bank.wx_vouching (b : Bank) (r : Nat) (v : Word) : (b.wx r v).vouching = b.vouching := by unfold Bank.wx; split <;> rfl

/-! ### Bank.pass -/

@[simp] theorem Bank.pass_st (b : Bank) (pc : Word) : (b.pass pc).st = b.st := rfl
@[simp] theorem Bank.pass_uid (b : Bank) (pc : Word) : (b.pass pc).uid = b.uid := rfl
@[simp] theorem Bank.pass_mode (b : Bank) (pc : Word) : (b.pass pc).mode = b.mode := rfl
@[simp] theorem Bank.pass_pc (b : Bank) (pc : Word) : (b.pass pc).pc = pc := rfl
@[simp] theorem Bank.pass_x (b : Bank) (pc : Word) : (b.pass pc).x = b.x := rfl
@[simp] theorem Bank.pass_v (b : Bank) (pc : Word) : (b.pass pc).v = b.v := rfl
@[simp] theorem Bank.pass_rot (b : Bank) (pc : Word) : (b.pass pc).rot = b.rot := rfl
@[simp] theorem Bank.pass_grant (b : Bank) (pc : Word) : (b.pass pc).grant = b.grant := rfl
@[simp] theorem Bank.pass_p (b : Bank) (pc : Word) : (b.pass pc).p = b.p := rfl
@[simp] theorem Bank.pass_vrb (b : Bank) (pc : Word) : (b.pass pc).vrb = b.vrb := rfl
@[simp] theorem Bank.pass_prb (b : Bank) (pc : Word) : (b.pass pc).prb = b.prb := rfl
@[simp] theorem Bank.pass_lc (b : Bank) (pc : Word) : (b.pass pc).lc = b.lc := rfl
@[simp] theorem Bank.pass_streams (b : Bank) (pc : Word) : (b.pass pc).streams = b.streams := rfl
@[simp] theorem Bank.pass_nrm (b : Bank) (pc : Word) : (b.pass pc).nrm = b.nrm := rfl
@[simp] theorem Bank.pass_ntdet (b : Bank) (pc : Word) : (b.pass pc).ntdet = b.ntdet := rfl
@[simp] theorem Bank.pass_stvec (b : Bank) (pc : Word) : (b.pass pc).stvec = b.stvec := rfl
@[simp] theorem Bank.pass_sscratch (b : Bank) (pc : Word) : (b.pass pc).sscratch = b.sscratch := rfl
@[simp] theorem Bank.pass_sepc (b : Bank) (pc : Word) : (b.pass pc).sepc = b.sepc := rfl
@[simp] theorem Bank.pass_scause (b : Bank) (pc : Word) : (b.pass pc).scause = b.scause := rfl
@[simp] theorem Bank.pass_stval (b : Bank) (pc : Word) : (b.pass pc).stval = b.stval := rfl
@[simp] theorem Bank.pass_vupc (b : Bank) (pc : Word) : (b.pass pc).vupc = b.vupc := rfl
@[simp] theorem Bank.pass_vl0 (b : Bank) (pc : Word) : (b.pass pc).vl0 = b.vl0 := rfl
@[simp] theorem Bank.pass_vl1 (b : Bank) (pc : Word) : (b.pass pc).vl1 = b.vl1 := rfl
@[simp] theorem Bank.pass_mupc (b : Bank) (pc : Word) : (b.pass pc).mupc = b.mupc := rfl
@[simp] theorem Bank.pass_row (b : Bank) (pc : Word) : (b.pass pc).row = b.row := rfl
@[simp] theorem Bank.pass_col (b : Bank) (pc : Word) : (b.pass pc).col = b.col := rfl
@[simp] theorem Bank.pass_depth (b : Bank) (pc : Word) : (b.pass pc).depth = b.depth := rfl
@[simp] theorem Bank.pass_cupc (b : Bank) (pc : Word) : (b.pass pc).cupc = b.cupc := rfl
@[simp] theorem Bank.pass_cli (b : Bank) (pc : Word) : (b.pass pc).cli = b.cli := rfl
@[simp] theorem Bank.pass_kseq (b : Bank) (pc : Word) : (b.pass pc).kseq = b.kseq := rfl
@[simp] theorem Bank.pass_kstep (b : Bank) (pc : Word) : (b.pass pc).kstep = b.kstep := rfl
@[simp] theorem Bank.pass_tl (b : Bank) (pc : Word) : (b.pass pc).tl = b.tl := rfl
@[simp] theorem Bank.pass_claim (b : Bank) (pc : Word) : (b.pass pc).claim = b.claim := rfl
@[simp] theorem Bank.pass_hold (b : Bank) (pc : Word) : (b.pass pc).hold = b.hold := rfl
@[simp] theorem Bank.pass_crew (b : Bank) (pc : Word) : (b.pass pc).crew = b.crew := rfl
@[simp] theorem Bank.pass_exposed (b : Bank) (pc : Word) : (b.pass pc).exposed = b.exposed := rfl
@[simp] theorem Bank.pass_replay (b : Bank) (pc : Word) : (b.pass pc).replay = b.replay := rfl
@[simp] theorem Bank.pass_waitFrom (b : Bank) (pc : Word) : (b.pass pc).waitFrom = b.waitFrom := rfl
@[simp] theorem Bank.pass_waitCount (b : Bank) (pc : Word) : (b.pass pc).waitCount = 0 := rfl
@[simp] theorem Bank.pass_wait (b : Bank) (pc : Word) : (b.pass pc).wait = none := rfl
@[simp] theorem Bank.pass_granted (b : Bank) (pc : Word) : (b.pass pc).granted = false := rfl
@[simp] theorem Bank.pass_stuck (b : Bank) (pc : Word) : (b.pass pc).stuck = false := rfl
@[simp] theorem Bank.pass_due (b : Bank) (pc : Word) : (b.pass pc).due = b.due := rfl
@[simp] theorem Bank.pass_seq (b : Bank) (pc : Word) : (b.pass pc).seq = b.seq := rfl
@[simp] theorem Bank.pass_pendX (b : Bank) (pc : Word) : (b.pass pc).pendX = b.pendX := rfl
@[simp] theorem Bank.pass_hans (b : Bank) (pc : Word) : (b.pass pc).hans = b.hans := rfl
@[simp] theorem Bank.pass_pf (b : Bank) (pc : Word) : (b.pass pc).pf = b.pf := rfl
@[simp] theorem Bank.pass_parkTick (b : Bank) (pc : Word) : (b.pass pc).parkTick = b.parkTick := rfl
@[simp] theorem Bank.pass_runAt (b : Bank) (pc : Word) : (b.pass pc).runAt = b.runAt := rfl
@[simp] theorem Bank.pass_prevMat (b : Bank) (pc : Word) : (b.pass pc).prevMat = none := rfl
@[simp] theorem Bank.pass_vouching (b : Bank) (pc : Word) : (b.pass pc).vouching = b.vouching := rfl

/-! ### Bank.tlGive -/

@[simp] theorem Bank.tlGive_st (b : Bank) (k : Nat) : (b.tlGive k).st = b.st := rfl
@[simp] theorem Bank.tlGive_uid (b : Bank) (k : Nat) : (b.tlGive k).uid = b.uid := rfl
@[simp] theorem Bank.tlGive_mode (b : Bank) (k : Nat) : (b.tlGive k).mode = b.mode := rfl
@[simp] theorem Bank.tlGive_pc (b : Bank) (k : Nat) : (b.tlGive k).pc = b.pc := rfl
@[simp] theorem Bank.tlGive_x (b : Bank) (k : Nat) : (b.tlGive k).x = b.x := rfl
@[simp] theorem Bank.tlGive_v (b : Bank) (k : Nat) : (b.tlGive k).v = b.v := rfl
@[simp] theorem Bank.tlGive_rot (b : Bank) (k : Nat) : (b.tlGive k).rot = b.rot := rfl
@[simp] theorem Bank.tlGive_grant (b : Bank) (k : Nat) : (b.tlGive k).grant = b.grant := rfl
@[simp] theorem Bank.tlGive_p (b : Bank) (k : Nat) : (b.tlGive k).p = b.p := rfl
@[simp] theorem Bank.tlGive_vrb (b : Bank) (k : Nat) : (b.tlGive k).vrb = b.vrb := rfl
@[simp] theorem Bank.tlGive_prb (b : Bank) (k : Nat) : (b.tlGive k).prb = b.prb := rfl
@[simp] theorem Bank.tlGive_lc (b : Bank) (k : Nat) : (b.tlGive k).lc = b.lc := rfl
@[simp] theorem Bank.tlGive_streams (b : Bank) (k : Nat) : (b.tlGive k).streams = b.streams := rfl
@[simp] theorem Bank.tlGive_nrm (b : Bank) (k : Nat) : (b.tlGive k).nrm = b.nrm := rfl
@[simp] theorem Bank.tlGive_ntdet (b : Bank) (k : Nat) : (b.tlGive k).ntdet = b.ntdet := rfl
@[simp] theorem Bank.tlGive_stvec (b : Bank) (k : Nat) : (b.tlGive k).stvec = b.stvec := rfl
@[simp] theorem Bank.tlGive_sscratch (b : Bank) (k : Nat) : (b.tlGive k).sscratch = b.sscratch := rfl
@[simp] theorem Bank.tlGive_sepc (b : Bank) (k : Nat) : (b.tlGive k).sepc = b.sepc := rfl
@[simp] theorem Bank.tlGive_scause (b : Bank) (k : Nat) : (b.tlGive k).scause = b.scause := rfl
@[simp] theorem Bank.tlGive_stval (b : Bank) (k : Nat) : (b.tlGive k).stval = b.stval := rfl
@[simp] theorem Bank.tlGive_vupc (b : Bank) (k : Nat) : (b.tlGive k).vupc = b.vupc := rfl
@[simp] theorem Bank.tlGive_vl0 (b : Bank) (k : Nat) : (b.tlGive k).vl0 = b.vl0 := rfl
@[simp] theorem Bank.tlGive_vl1 (b : Bank) (k : Nat) : (b.tlGive k).vl1 = b.vl1 := rfl
@[simp] theorem Bank.tlGive_mupc (b : Bank) (k : Nat) : (b.tlGive k).mupc = b.mupc := rfl
@[simp] theorem Bank.tlGive_row (b : Bank) (k : Nat) : (b.tlGive k).row = b.row := rfl
@[simp] theorem Bank.tlGive_col (b : Bank) (k : Nat) : (b.tlGive k).col = b.col := rfl
@[simp] theorem Bank.tlGive_depth (b : Bank) (k : Nat) : (b.tlGive k).depth = b.depth := rfl
@[simp] theorem Bank.tlGive_cupc (b : Bank) (k : Nat) : (b.tlGive k).cupc = b.cupc := rfl
@[simp] theorem Bank.tlGive_cli (b : Bank) (k : Nat) : (b.tlGive k).cli = b.cli := rfl
@[simp] theorem Bank.tlGive_kseq (b : Bank) (k : Nat) : (b.tlGive k).kseq = b.kseq := rfl
@[simp] theorem Bank.tlGive_kstep (b : Bank) (k : Nat) : (b.tlGive k).kstep = b.kstep := rfl
@[simp] theorem Bank.tlGive_tl (b : Bank) (k : Nat) : (b.tlGive k).tl = SMap.put b.tl k { b.timeline k with last := b.tlNext k } := rfl
@[simp] theorem Bank.tlGive_claim (b : Bank) (k : Nat) : (b.tlGive k).claim = b.claim := rfl
@[simp] theorem Bank.tlGive_hold (b : Bank) (k : Nat) : (b.tlGive k).hold = b.hold := rfl
@[simp] theorem Bank.tlGive_crew (b : Bank) (k : Nat) : (b.tlGive k).crew = b.crew := rfl
@[simp] theorem Bank.tlGive_exposed (b : Bank) (k : Nat) : (b.tlGive k).exposed = b.exposed := rfl
@[simp] theorem Bank.tlGive_replay (b : Bank) (k : Nat) : (b.tlGive k).replay = b.replay := rfl
@[simp] theorem Bank.tlGive_waitFrom (b : Bank) (k : Nat) : (b.tlGive k).waitFrom = b.waitFrom := rfl
@[simp] theorem Bank.tlGive_waitCount (b : Bank) (k : Nat) : (b.tlGive k).waitCount = b.waitCount := rfl
@[simp] theorem Bank.tlGive_wait (b : Bank) (k : Nat) : (b.tlGive k).wait = b.wait := rfl
@[simp] theorem Bank.tlGive_granted (b : Bank) (k : Nat) : (b.tlGive k).granted = b.granted := rfl
@[simp] theorem Bank.tlGive_stuck (b : Bank) (k : Nat) : (b.tlGive k).stuck = b.stuck := rfl
@[simp] theorem Bank.tlGive_due (b : Bank) (k : Nat) : (b.tlGive k).due = b.due := rfl
@[simp] theorem Bank.tlGive_seq (b : Bank) (k : Nat) : (b.tlGive k).seq = b.seq := rfl
@[simp] theorem Bank.tlGive_pendX (b : Bank) (k : Nat) : (b.tlGive k).pendX = b.pendX := rfl
@[simp] theorem Bank.tlGive_hans (b : Bank) (k : Nat) : (b.tlGive k).hans = b.hans := rfl
@[simp] theorem Bank.tlGive_pf (b : Bank) (k : Nat) : (b.tlGive k).pf = b.pf := rfl
@[simp] theorem Bank.tlGive_parkTick (b : Bank) (k : Nat) : (b.tlGive k).parkTick = b.parkTick := rfl
@[simp] theorem Bank.tlGive_runAt (b : Bank) (k : Nat) : (b.tlGive k).runAt = b.runAt := rfl
@[simp] theorem Bank.tlGive_prevMat (b : Bank) (k : Nat) : (b.tlGive k).prevMat = b.prevMat := rfl
@[simp] theorem Bank.tlGive_vouching (b : Bank) (k : Nat) : (b.tlGive k).vouching = b.vouching := rfl

/-! ### Bank.tlDone -/

@[simp] theorem Bank.tlDone_st (b : Bank) (k n : Nat) : (b.tlDone k n).st = b.st := rfl
@[simp] theorem Bank.tlDone_uid (b : Bank) (k n : Nat) : (b.tlDone k n).uid = b.uid := rfl
@[simp] theorem Bank.tlDone_mode (b : Bank) (k n : Nat) : (b.tlDone k n).mode = b.mode := rfl
@[simp] theorem Bank.tlDone_pc (b : Bank) (k n : Nat) : (b.tlDone k n).pc = b.pc := rfl
@[simp] theorem Bank.tlDone_x (b : Bank) (k n : Nat) : (b.tlDone k n).x = b.x := rfl
@[simp] theorem Bank.tlDone_v (b : Bank) (k n : Nat) : (b.tlDone k n).v = b.v := rfl
@[simp] theorem Bank.tlDone_rot (b : Bank) (k n : Nat) : (b.tlDone k n).rot = b.rot := rfl
@[simp] theorem Bank.tlDone_grant (b : Bank) (k n : Nat) : (b.tlDone k n).grant = b.grant := rfl
@[simp] theorem Bank.tlDone_p (b : Bank) (k n : Nat) : (b.tlDone k n).p = b.p := rfl
@[simp] theorem Bank.tlDone_vrb (b : Bank) (k n : Nat) : (b.tlDone k n).vrb = b.vrb := rfl
@[simp] theorem Bank.tlDone_prb (b : Bank) (k n : Nat) : (b.tlDone k n).prb = b.prb := rfl
@[simp] theorem Bank.tlDone_lc (b : Bank) (k n : Nat) : (b.tlDone k n).lc = b.lc := rfl
@[simp] theorem Bank.tlDone_streams (b : Bank) (k n : Nat) : (b.tlDone k n).streams = b.streams := rfl
@[simp] theorem Bank.tlDone_nrm (b : Bank) (k n : Nat) : (b.tlDone k n).nrm = b.nrm := rfl
@[simp] theorem Bank.tlDone_ntdet (b : Bank) (k n : Nat) : (b.tlDone k n).ntdet = b.ntdet := rfl
@[simp] theorem Bank.tlDone_stvec (b : Bank) (k n : Nat) : (b.tlDone k n).stvec = b.stvec := rfl
@[simp] theorem Bank.tlDone_sscratch (b : Bank) (k n : Nat) : (b.tlDone k n).sscratch = b.sscratch := rfl
@[simp] theorem Bank.tlDone_sepc (b : Bank) (k n : Nat) : (b.tlDone k n).sepc = b.sepc := rfl
@[simp] theorem Bank.tlDone_scause (b : Bank) (k n : Nat) : (b.tlDone k n).scause = b.scause := rfl
@[simp] theorem Bank.tlDone_stval (b : Bank) (k n : Nat) : (b.tlDone k n).stval = b.stval := rfl
@[simp] theorem Bank.tlDone_vupc (b : Bank) (k n : Nat) : (b.tlDone k n).vupc = b.vupc := rfl
@[simp] theorem Bank.tlDone_vl0 (b : Bank) (k n : Nat) : (b.tlDone k n).vl0 = b.vl0 := rfl
@[simp] theorem Bank.tlDone_vl1 (b : Bank) (k n : Nat) : (b.tlDone k n).vl1 = b.vl1 := rfl
@[simp] theorem Bank.tlDone_mupc (b : Bank) (k n : Nat) : (b.tlDone k n).mupc = b.mupc := rfl
@[simp] theorem Bank.tlDone_row (b : Bank) (k n : Nat) : (b.tlDone k n).row = b.row := rfl
@[simp] theorem Bank.tlDone_col (b : Bank) (k n : Nat) : (b.tlDone k n).col = b.col := rfl
@[simp] theorem Bank.tlDone_depth (b : Bank) (k n : Nat) : (b.tlDone k n).depth = b.depth := rfl
@[simp] theorem Bank.tlDone_cupc (b : Bank) (k n : Nat) : (b.tlDone k n).cupc = b.cupc := rfl
@[simp] theorem Bank.tlDone_cli (b : Bank) (k n : Nat) : (b.tlDone k n).cli = b.cli := rfl
@[simp] theorem Bank.tlDone_kseq (b : Bank) (k n : Nat) : (b.tlDone k n).kseq = b.kseq := rfl
@[simp] theorem Bank.tlDone_kstep (b : Bank) (k n : Nat) : (b.tlDone k n).kstep = b.kstep := rfl
@[simp] theorem Bank.tlDone_tl (b : Bank) (k n : Nat) : (b.tlDone k n).tl = SMap.put b.tl k ((b.timeline k).complete n) := rfl
@[simp] theorem Bank.tlDone_claim (b : Bank) (k n : Nat) : (b.tlDone k n).claim = b.claim := rfl
@[simp] theorem Bank.tlDone_hold (b : Bank) (k n : Nat) : (b.tlDone k n).hold = b.hold := rfl
@[simp] theorem Bank.tlDone_crew (b : Bank) (k n : Nat) : (b.tlDone k n).crew = b.crew := rfl
@[simp] theorem Bank.tlDone_exposed (b : Bank) (k n : Nat) : (b.tlDone k n).exposed = b.exposed := rfl
@[simp] theorem Bank.tlDone_replay (b : Bank) (k n : Nat) : (b.tlDone k n).replay = b.replay := rfl
@[simp] theorem Bank.tlDone_waitFrom (b : Bank) (k n : Nat) : (b.tlDone k n).waitFrom = b.waitFrom := rfl
@[simp] theorem Bank.tlDone_waitCount (b : Bank) (k n : Nat) : (b.tlDone k n).waitCount = b.waitCount := rfl
@[simp] theorem Bank.tlDone_wait (b : Bank) (k n : Nat) : (b.tlDone k n).wait = b.wait := rfl
@[simp] theorem Bank.tlDone_granted (b : Bank) (k n : Nat) : (b.tlDone k n).granted = b.granted := rfl
@[simp] theorem Bank.tlDone_stuck (b : Bank) (k n : Nat) : (b.tlDone k n).stuck = b.stuck := rfl
@[simp] theorem Bank.tlDone_due (b : Bank) (k n : Nat) : (b.tlDone k n).due = b.due := rfl
@[simp] theorem Bank.tlDone_seq (b : Bank) (k n : Nat) : (b.tlDone k n).seq = b.seq := rfl
@[simp] theorem Bank.tlDone_pendX (b : Bank) (k n : Nat) : (b.tlDone k n).pendX = b.pendX := rfl
@[simp] theorem Bank.tlDone_hans (b : Bank) (k n : Nat) : (b.tlDone k n).hans = b.hans := rfl
@[simp] theorem Bank.tlDone_pf (b : Bank) (k n : Nat) : (b.tlDone k n).pf = b.pf := rfl
@[simp] theorem Bank.tlDone_parkTick (b : Bank) (k n : Nat) : (b.tlDone k n).parkTick = b.parkTick := rfl
@[simp] theorem Bank.tlDone_runAt (b : Bank) (k n : Nat) : (b.tlDone k n).runAt = b.runAt := rfl
@[simp] theorem Bank.tlDone_prevMat (b : Bank) (k n : Nat) : (b.tlDone k n).prevMat = b.prevMat := rfl
@[simp] theorem Bank.tlDone_vouching (b : Bank) (k n : Nat) : (b.tlDone k n).vouching = b.vouching := rfl

/-! ### Bank.addFlags -/

@[simp] theorem Bank.addFlags_st (b : Bank) (fl : Fl) : (b.addFlags fl).st = b.st := rfl
@[simp] theorem Bank.addFlags_uid (b : Bank) (fl : Fl) : (b.addFlags fl).uid = b.uid := rfl
@[simp] theorem Bank.addFlags_mode (b : Bank) (fl : Fl) : (b.addFlags fl).mode = b.mode := rfl
@[simp] theorem Bank.addFlags_pc (b : Bank) (fl : Fl) : (b.addFlags fl).pc = b.pc := rfl
@[simp] theorem Bank.addFlags_x (b : Bank) (fl : Fl) : (b.addFlags fl).x = b.x := rfl
@[simp] theorem Bank.addFlags_v (b : Bank) (fl : Fl) : (b.addFlags fl).v = b.v := rfl
@[simp] theorem Bank.addFlags_rot (b : Bank) (fl : Fl) : (b.addFlags fl).rot = b.rot := rfl
@[simp] theorem Bank.addFlags_grant (b : Bank) (fl : Fl) : (b.addFlags fl).grant = b.grant := rfl
@[simp] theorem Bank.addFlags_p (b : Bank) (fl : Fl) : (b.addFlags fl).p = b.p := rfl
@[simp] theorem Bank.addFlags_vrb (b : Bank) (fl : Fl) : (b.addFlags fl).vrb = b.vrb := rfl
@[simp] theorem Bank.addFlags_prb (b : Bank) (fl : Fl) : (b.addFlags fl).prb = b.prb := rfl
@[simp] theorem Bank.addFlags_lc (b : Bank) (fl : Fl) : (b.addFlags fl).lc = b.lc := rfl
@[simp] theorem Bank.addFlags_streams (b : Bank) (fl : Fl) : (b.addFlags fl).streams = b.streams := rfl
@[simp] theorem Bank.addFlags_nrm (b : Bank) (fl : Fl) : (b.addFlags fl).nrm = b.nrm ||| (fl &&& 0xF8#8).setWidth 64 := rfl
@[simp] theorem Bank.addFlags_ntdet (b : Bank) (fl : Fl) : (b.addFlags fl).ntdet = b.ntdet := rfl
@[simp] theorem Bank.addFlags_stvec (b : Bank) (fl : Fl) : (b.addFlags fl).stvec = b.stvec := rfl
@[simp] theorem Bank.addFlags_sscratch (b : Bank) (fl : Fl) : (b.addFlags fl).sscratch = b.sscratch := rfl
@[simp] theorem Bank.addFlags_sepc (b : Bank) (fl : Fl) : (b.addFlags fl).sepc = b.sepc := rfl
@[simp] theorem Bank.addFlags_scause (b : Bank) (fl : Fl) : (b.addFlags fl).scause = b.scause := rfl
@[simp] theorem Bank.addFlags_stval (b : Bank) (fl : Fl) : (b.addFlags fl).stval = b.stval := rfl
@[simp] theorem Bank.addFlags_vupc (b : Bank) (fl : Fl) : (b.addFlags fl).vupc = b.vupc := rfl
@[simp] theorem Bank.addFlags_vl0 (b : Bank) (fl : Fl) : (b.addFlags fl).vl0 = b.vl0 := rfl
@[simp] theorem Bank.addFlags_vl1 (b : Bank) (fl : Fl) : (b.addFlags fl).vl1 = b.vl1 := rfl
@[simp] theorem Bank.addFlags_mupc (b : Bank) (fl : Fl) : (b.addFlags fl).mupc = b.mupc := rfl
@[simp] theorem Bank.addFlags_row (b : Bank) (fl : Fl) : (b.addFlags fl).row = b.row := rfl
@[simp] theorem Bank.addFlags_col (b : Bank) (fl : Fl) : (b.addFlags fl).col = b.col := rfl
@[simp] theorem Bank.addFlags_depth (b : Bank) (fl : Fl) : (b.addFlags fl).depth = b.depth := rfl
@[simp] theorem Bank.addFlags_cupc (b : Bank) (fl : Fl) : (b.addFlags fl).cupc = b.cupc := rfl
@[simp] theorem Bank.addFlags_cli (b : Bank) (fl : Fl) : (b.addFlags fl).cli = b.cli := rfl
@[simp] theorem Bank.addFlags_kseq (b : Bank) (fl : Fl) : (b.addFlags fl).kseq = b.kseq := rfl
@[simp] theorem Bank.addFlags_kstep (b : Bank) (fl : Fl) : (b.addFlags fl).kstep = b.kstep := rfl
@[simp] theorem Bank.addFlags_tl (b : Bank) (fl : Fl) : (b.addFlags fl).tl = b.tl := rfl
@[simp] theorem Bank.addFlags_claim (b : Bank) (fl : Fl) : (b.addFlags fl).claim = b.claim := rfl
@[simp] theorem Bank.addFlags_hold (b : Bank) (fl : Fl) : (b.addFlags fl).hold = b.hold := rfl
@[simp] theorem Bank.addFlags_crew (b : Bank) (fl : Fl) : (b.addFlags fl).crew = b.crew := rfl
@[simp] theorem Bank.addFlags_exposed (b : Bank) (fl : Fl) : (b.addFlags fl).exposed = b.exposed := rfl
@[simp] theorem Bank.addFlags_replay (b : Bank) (fl : Fl) : (b.addFlags fl).replay = b.replay := rfl
@[simp] theorem Bank.addFlags_waitFrom (b : Bank) (fl : Fl) : (b.addFlags fl).waitFrom = b.waitFrom := rfl
@[simp] theorem Bank.addFlags_waitCount (b : Bank) (fl : Fl) : (b.addFlags fl).waitCount = b.waitCount := rfl
@[simp] theorem Bank.addFlags_wait (b : Bank) (fl : Fl) : (b.addFlags fl).wait = b.wait := rfl
@[simp] theorem Bank.addFlags_granted (b : Bank) (fl : Fl) : (b.addFlags fl).granted = b.granted := rfl
@[simp] theorem Bank.addFlags_stuck (b : Bank) (fl : Fl) : (b.addFlags fl).stuck = b.stuck := rfl
@[simp] theorem Bank.addFlags_due (b : Bank) (fl : Fl) : (b.addFlags fl).due = b.due := rfl
@[simp] theorem Bank.addFlags_seq (b : Bank) (fl : Fl) : (b.addFlags fl).seq = b.seq := rfl
@[simp] theorem Bank.addFlags_pendX (b : Bank) (fl : Fl) : (b.addFlags fl).pendX = b.pendX := rfl
@[simp] theorem Bank.addFlags_hans (b : Bank) (fl : Fl) : (b.addFlags fl).hans = b.hans := rfl
@[simp] theorem Bank.addFlags_pf (b : Bank) (fl : Fl) : (b.addFlags fl).pf = b.pf := rfl
@[simp] theorem Bank.addFlags_parkTick (b : Bank) (fl : Fl) : (b.addFlags fl).parkTick = b.parkTick := rfl
@[simp] theorem Bank.addFlags_runAt (b : Bank) (fl : Fl) : (b.addFlags fl).runAt = b.runAt := rfl
@[simp] theorem Bank.addFlags_prevMat (b : Bank) (fl : Fl) : (b.addFlags fl).prevMat = b.prevMat := rfl
@[simp] theorem Bank.addFlags_vouching (b : Bank) (fl : Fl) : (b.addFlags fl).vouching = b.vouching := rfl

/-! ### Bank.suspendCrew -/

@[simp] theorem Bank.suspendCrew_st (b : Bank) : b.suspendCrew.st = b.st := rfl
@[simp] theorem Bank.suspendCrew_uid (b : Bank) : b.suspendCrew.uid = b.uid := rfl
@[simp] theorem Bank.suspendCrew_mode (b : Bank) : b.suspendCrew.mode = b.mode := rfl
@[simp] theorem Bank.suspendCrew_pc (b : Bank) : b.suspendCrew.pc = b.pc := rfl
@[simp] theorem Bank.suspendCrew_x (b : Bank) : b.suspendCrew.x = b.x := rfl
@[simp] theorem Bank.suspendCrew_v (b : Bank) : b.suspendCrew.v = b.v := rfl
@[simp] theorem Bank.suspendCrew_rot (b : Bank) : b.suspendCrew.rot = b.rot := rfl
@[simp] theorem Bank.suspendCrew_grant (b : Bank) : b.suspendCrew.grant = b.grant := rfl
@[simp] theorem Bank.suspendCrew_p (b : Bank) : b.suspendCrew.p = b.p := rfl
@[simp] theorem Bank.suspendCrew_vrb (b : Bank) : b.suspendCrew.vrb = b.vrb := rfl
@[simp] theorem Bank.suspendCrew_prb (b : Bank) : b.suspendCrew.prb = b.prb := rfl
@[simp] theorem Bank.suspendCrew_lc (b : Bank) : b.suspendCrew.lc = b.lc := rfl
@[simp] theorem Bank.suspendCrew_streams (b : Bank) : b.suspendCrew.streams = b.streams := rfl
@[simp] theorem Bank.suspendCrew_nrm (b : Bank) : b.suspendCrew.nrm = b.nrm := rfl
@[simp] theorem Bank.suspendCrew_ntdet (b : Bank) : b.suspendCrew.ntdet = b.ntdet := rfl
@[simp] theorem Bank.suspendCrew_stvec (b : Bank) : b.suspendCrew.stvec = b.stvec := rfl
@[simp] theorem Bank.suspendCrew_sscratch (b : Bank) : b.suspendCrew.sscratch = b.sscratch := rfl
@[simp] theorem Bank.suspendCrew_sepc (b : Bank) : b.suspendCrew.sepc = b.sepc := rfl
@[simp] theorem Bank.suspendCrew_scause (b : Bank) : b.suspendCrew.scause = b.scause := rfl
@[simp] theorem Bank.suspendCrew_stval (b : Bank) : b.suspendCrew.stval = b.stval := rfl
@[simp] theorem Bank.suspendCrew_vupc (b : Bank) : b.suspendCrew.vupc = b.vupc := rfl
@[simp] theorem Bank.suspendCrew_vl0 (b : Bank) : b.suspendCrew.vl0 = b.vl0 := rfl
@[simp] theorem Bank.suspendCrew_vl1 (b : Bank) : b.suspendCrew.vl1 = b.vl1 := rfl
@[simp] theorem Bank.suspendCrew_mupc (b : Bank) : b.suspendCrew.mupc = b.mupc := rfl
@[simp] theorem Bank.suspendCrew_row (b : Bank) : b.suspendCrew.row = b.row := rfl
@[simp] theorem Bank.suspendCrew_col (b : Bank) : b.suspendCrew.col = b.col := rfl
@[simp] theorem Bank.suspendCrew_depth (b : Bank) : b.suspendCrew.depth = b.depth := rfl
@[simp] theorem Bank.suspendCrew_cupc (b : Bank) : b.suspendCrew.cupc = b.cupc := rfl
@[simp] theorem Bank.suspendCrew_cli (b : Bank) : b.suspendCrew.cli = b.cli := rfl
@[simp] theorem Bank.suspendCrew_kseq (b : Bank) : b.suspendCrew.kseq = b.kseq := rfl
@[simp] theorem Bank.suspendCrew_kstep (b : Bank) : b.suspendCrew.kstep = b.kstep := rfl
@[simp] theorem Bank.suspendCrew_tl (b : Bank) : b.suspendCrew.tl = b.tl := rfl
@[simp] theorem Bank.suspendCrew_claim (b : Bank) : b.suspendCrew.claim = b.claim := rfl
@[simp] theorem Bank.suspendCrew_hold (b : Bank) : b.suspendCrew.hold = b.hold := rfl
@[simp] theorem Bank.suspendCrew_exposed (b : Bank) : b.suspendCrew.exposed = b.exposed := rfl
@[simp] theorem Bank.suspendCrew_replay (b : Bank) : b.suspendCrew.replay = b.replay := rfl
@[simp] theorem Bank.suspendCrew_waitFrom (b : Bank) : b.suspendCrew.waitFrom = b.waitFrom := rfl
@[simp] theorem Bank.suspendCrew_waitCount (b : Bank) : b.suspendCrew.waitCount = b.waitCount := rfl
@[simp] theorem Bank.suspendCrew_wait (b : Bank) : b.suspendCrew.wait = b.wait := rfl
@[simp] theorem Bank.suspendCrew_granted (b : Bank) : b.suspendCrew.granted = b.granted := rfl
@[simp] theorem Bank.suspendCrew_stuck (b : Bank) : b.suspendCrew.stuck = b.stuck := rfl
@[simp] theorem Bank.suspendCrew_due (b : Bank) : b.suspendCrew.due = b.due := rfl
@[simp] theorem Bank.suspendCrew_seq (b : Bank) : b.suspendCrew.seq = b.seq := rfl
@[simp] theorem Bank.suspendCrew_pendX (b : Bank) : b.suspendCrew.pendX = b.pendX := rfl
@[simp] theorem Bank.suspendCrew_hans (b : Bank) : b.suspendCrew.hans = b.hans := rfl
@[simp] theorem Bank.suspendCrew_pf (b : Bank) : b.suspendCrew.pf = b.pf := rfl
@[simp] theorem Bank.suspendCrew_parkTick (b : Bank) : b.suspendCrew.parkTick = b.parkTick := rfl
@[simp] theorem Bank.suspendCrew_runAt (b : Bank) : b.suspendCrew.runAt = b.runAt := rfl
@[simp] theorem Bank.suspendCrew_prevMat (b : Bank) : b.suspendCrew.prevMat = b.prevMat := rfl
@[simp] theorem Bank.suspendCrew_vouching (b : Bank) : b.suspendCrew.vouching = b.vouching := rfl

/-! ### Bank.resumeCrew -/

@[simp] theorem Bank.resumeCrew_st (b : Bank) : b.resumeCrew.st = b.st := rfl
@[simp] theorem Bank.resumeCrew_uid (b : Bank) : b.resumeCrew.uid = b.uid := rfl
@[simp] theorem Bank.resumeCrew_mode (b : Bank) : b.resumeCrew.mode = b.mode := rfl
@[simp] theorem Bank.resumeCrew_pc (b : Bank) : b.resumeCrew.pc = b.pc := rfl
@[simp] theorem Bank.resumeCrew_x (b : Bank) : b.resumeCrew.x = b.x := rfl
@[simp] theorem Bank.resumeCrew_v (b : Bank) : b.resumeCrew.v = b.v := rfl
@[simp] theorem Bank.resumeCrew_rot (b : Bank) : b.resumeCrew.rot = b.rot := rfl
@[simp] theorem Bank.resumeCrew_grant (b : Bank) : b.resumeCrew.grant = b.grant := rfl
@[simp] theorem Bank.resumeCrew_p (b : Bank) : b.resumeCrew.p = b.p := rfl
@[simp] theorem Bank.resumeCrew_vrb (b : Bank) : b.resumeCrew.vrb = b.vrb := rfl
@[simp] theorem Bank.resumeCrew_prb (b : Bank) : b.resumeCrew.prb = b.prb := rfl
@[simp] theorem Bank.resumeCrew_lc (b : Bank) : b.resumeCrew.lc = b.lc := rfl
@[simp] theorem Bank.resumeCrew_streams (b : Bank) : b.resumeCrew.streams = b.streams := rfl
@[simp] theorem Bank.resumeCrew_nrm (b : Bank) : b.resumeCrew.nrm = b.nrm := rfl
@[simp] theorem Bank.resumeCrew_ntdet (b : Bank) : b.resumeCrew.ntdet = b.ntdet := rfl
@[simp] theorem Bank.resumeCrew_stvec (b : Bank) : b.resumeCrew.stvec = b.stvec := rfl
@[simp] theorem Bank.resumeCrew_sscratch (b : Bank) : b.resumeCrew.sscratch = b.sscratch := rfl
@[simp] theorem Bank.resumeCrew_sepc (b : Bank) : b.resumeCrew.sepc = b.sepc := rfl
@[simp] theorem Bank.resumeCrew_scause (b : Bank) : b.resumeCrew.scause = b.scause := rfl
@[simp] theorem Bank.resumeCrew_stval (b : Bank) : b.resumeCrew.stval = b.stval := rfl
@[simp] theorem Bank.resumeCrew_vupc (b : Bank) : b.resumeCrew.vupc = b.vupc := rfl
@[simp] theorem Bank.resumeCrew_vl0 (b : Bank) : b.resumeCrew.vl0 = b.vl0 := rfl
@[simp] theorem Bank.resumeCrew_vl1 (b : Bank) : b.resumeCrew.vl1 = b.vl1 := rfl
@[simp] theorem Bank.resumeCrew_mupc (b : Bank) : b.resumeCrew.mupc = b.mupc := rfl
@[simp] theorem Bank.resumeCrew_row (b : Bank) : b.resumeCrew.row = b.row := rfl
@[simp] theorem Bank.resumeCrew_col (b : Bank) : b.resumeCrew.col = b.col := rfl
@[simp] theorem Bank.resumeCrew_depth (b : Bank) : b.resumeCrew.depth = b.depth := rfl
@[simp] theorem Bank.resumeCrew_cupc (b : Bank) : b.resumeCrew.cupc = b.cupc := rfl
@[simp] theorem Bank.resumeCrew_cli (b : Bank) : b.resumeCrew.cli = b.cli := rfl
@[simp] theorem Bank.resumeCrew_kseq (b : Bank) : b.resumeCrew.kseq = b.kseq := rfl
@[simp] theorem Bank.resumeCrew_kstep (b : Bank) : b.resumeCrew.kstep = b.kstep := rfl
@[simp] theorem Bank.resumeCrew_tl (b : Bank) : b.resumeCrew.tl = b.tl := rfl
@[simp] theorem Bank.resumeCrew_claim (b : Bank) : b.resumeCrew.claim = b.claim := rfl
@[simp] theorem Bank.resumeCrew_hold (b : Bank) : b.resumeCrew.hold = b.hold := rfl
@[simp] theorem Bank.resumeCrew_exposed (b : Bank) : b.resumeCrew.exposed = b.exposed := rfl
@[simp] theorem Bank.resumeCrew_replay (b : Bank) : b.resumeCrew.replay = b.replay := rfl
@[simp] theorem Bank.resumeCrew_waitFrom (b : Bank) : b.resumeCrew.waitFrom = b.waitFrom := rfl
@[simp] theorem Bank.resumeCrew_waitCount (b : Bank) : b.resumeCrew.waitCount = b.waitCount := rfl
@[simp] theorem Bank.resumeCrew_wait (b : Bank) : b.resumeCrew.wait = b.wait := rfl
@[simp] theorem Bank.resumeCrew_granted (b : Bank) : b.resumeCrew.granted = b.granted := rfl
@[simp] theorem Bank.resumeCrew_stuck (b : Bank) : b.resumeCrew.stuck = b.stuck := rfl
@[simp] theorem Bank.resumeCrew_due (b : Bank) : b.resumeCrew.due = b.due := rfl
@[simp] theorem Bank.resumeCrew_seq (b : Bank) : b.resumeCrew.seq = b.seq := rfl
@[simp] theorem Bank.resumeCrew_pendX (b : Bank) : b.resumeCrew.pendX = b.pendX := rfl
@[simp] theorem Bank.resumeCrew_hans (b : Bank) : b.resumeCrew.hans = b.hans := rfl
@[simp] theorem Bank.resumeCrew_pf (b : Bank) : b.resumeCrew.pf = b.pf := rfl
@[simp] theorem Bank.resumeCrew_parkTick (b : Bank) : b.resumeCrew.parkTick = b.parkTick := rfl
@[simp] theorem Bank.resumeCrew_runAt (b : Bank) : b.resumeCrew.runAt = b.runAt := rfl
@[simp] theorem Bank.resumeCrew_prevMat (b : Bank) : b.resumeCrew.prevMat = b.prevMat := rfl
@[simp] theorem Bank.resumeCrew_vouching (b : Bank) : b.resumeCrew.vouching = b.vouching := rfl

/-! ### Reading a table back -/

@[simp] theorem State.bank_setBank_same (s : State) (bk : Nat) (b : Bank) : (s.setBank bk b).bank bk = b := by
  simp [State.bank]

theorem State.bank_setBank_ne (s : State) {bk j : Nat} (b : Bank) (h : j ≠ bk) : (s.setBank bk b).bank j = s.bank j := by
  simp [State.bank, SMap.get_put_ne Bank.reset s.banks b h]

@[simp] theorem State.bank_modBank_same (s : State) (bk : Nat) (f : Bank → Bank) :
    (s.modBank bk f).bank bk = f (s.bank bk) := by simp [State.modBank]

theorem State.bank_modBank_ne (s : State) {bk j : Nat} (f : Bank → Bank) (h : j ≠ bk) :
    (s.modBank bk f).bank j = s.bank j := State.bank_setBank_ne s _ h

@[simp] theorem State.core_setCore_same (s : State) (ck : Nat) (c : Core) : (s.setCore ck c).core ck = c := by
  simp [State.core]

theorem State.core_setCore_ne (s : State) {ck j : Nat} (c : Core) (h : j ≠ ck) : (s.setCore ck c).core j = s.core j := by
  simp [State.core, SMap.get_put_ne Core.reset s.cores c h]

@[simp] theorem State.core_modCore_same (s : State) (ck : Nat) (f : Core → Core) :
    (s.modCore ck f).core ck = f (s.core ck) := by simp [State.modCore]

@[simp] theorem State.ctx_setCtx_same (s : State) (n : Nat) (c : Ctx) : (s.setCtx n c).ctx n = c := by simp [State.ctx]

theorem State.ctx_setCtx_ne (s : State) {n j : Nat} (c : Ctx) (h : j ≠ n) : (s.setCtx n c).ctx j = s.ctx j := by
  simp [State.ctx, SMap.get_put_ne Ctx.reset s.ctxs c h]

@[simp] theorem State.ctx_modCtx_same (s : State) (n : Nat) (f : Ctx → Ctx) : (s.modCtx n f).ctx n = f (s.ctx n) := by
  simp [State.modCtx]

@[simp] theorem State.task_setTask_same (s : State) (u : Nat) (t : Task) : (s.setTask u t).task u = some t := by
  simp [State.task, SMap.find_put_same]

theorem State.task_setTask_ne (s : State) {u j : Nat} (t : Task) (h : j ≠ u) : (s.setTask u t).task j = s.task j := by
  simp [State.task, SMap.find_put_ne s.tasks t h]

@[simp] theorem State.core_setBank (s : State) (bk : Nat) (b : Bank) (j : Nat) : (s.setBank bk b).core j = s.core j := rfl
@[simp] theorem State.ctx_setBank (s : State) (bk : Nat) (b : Bank) (j : Nat) : (s.setBank bk b).ctx j = s.ctx j := rfl
@[simp] theorem State.task_setBank (s : State) (bk : Nat) (b : Bank) (j : Nat) : (s.setBank bk b).task j = s.task j := rfl
@[simp] theorem State.me_setBank (s : State) (bk : Nat) (b : Bank) : (s.setBank bk b).me = s.me := rfl
@[simp] theorem State.core_modBank (s : State) (bk : Nat) (f : Bank → Bank) (j : Nat) : (s.modBank bk f).core j = s.core j := rfl
@[simp] theorem State.ctx_modBank (s : State) (bk : Nat) (f : Bank → Bank) (j : Nat) : (s.modBank bk f).ctx j = s.ctx j := rfl
@[simp] theorem State.task_modBank (s : State) (bk : Nat) (f : Bank → Bank) (j : Nat) : (s.modBank bk f).task j = s.task j := rfl
@[simp] theorem State.me_modBank (s : State) (bk : Nat) (f : Bank → Bank) : (s.modBank bk f).me = s.me := rfl
@[simp] theorem State.bank_setCore (s : State) (ck : Nat) (c : Core) (j : Nat) : (s.setCore ck c).bank j = s.bank j := rfl
@[simp] theorem State.ctx_setCore (s : State) (ck : Nat) (c : Core) (j : Nat) : (s.setCore ck c).ctx j = s.ctx j := rfl
@[simp] theorem State.task_setCore (s : State) (ck : Nat) (c : Core) (j : Nat) : (s.setCore ck c).task j = s.task j := rfl
@[simp] theorem State.me_setCore (s : State) (ck : Nat) (c : Core) : (s.setCore ck c).me = s.me := rfl
@[simp] theorem State.bank_modCore (s : State) (ck : Nat) (f : Core → Core) (j : Nat) : (s.modCore ck f).bank j = s.bank j := rfl
@[simp] theorem State.ctx_modCore (s : State) (ck : Nat) (f : Core → Core) (j : Nat) : (s.modCore ck f).ctx j = s.ctx j := rfl
@[simp] theorem State.task_modCore (s : State) (ck : Nat) (f : Core → Core) (j : Nat) : (s.modCore ck f).task j = s.task j := rfl
@[simp] theorem State.me_modCore (s : State) (ck : Nat) (f : Core → Core) : (s.modCore ck f).me = s.me := rfl
@[simp] theorem State.bank_setCtx (s : State) (n : Nat) (c : Ctx) (j : Nat) : (s.setCtx n c).bank j = s.bank j := rfl
@[simp] theorem State.core_setCtx (s : State) (n : Nat) (c : Ctx) (j : Nat) : (s.setCtx n c).core j = s.core j := rfl
@[simp] theorem State.task_setCtx (s : State) (n : Nat) (c : Ctx) (j : Nat) : (s.setCtx n c).task j = s.task j := rfl
@[simp] theorem State.me_setCtx (s : State) (n : Nat) (c : Ctx) : (s.setCtx n c).me = s.me := rfl
@[simp] theorem State.bank_modCtx (s : State) (n : Nat) (f : Ctx → Ctx) (j : Nat) : (s.modCtx n f).bank j = s.bank j := rfl
@[simp] theorem State.core_modCtx (s : State) (n : Nat) (f : Ctx → Ctx) (j : Nat) : (s.modCtx n f).core j = s.core j := rfl
@[simp] theorem State.task_modCtx (s : State) (n : Nat) (f : Ctx → Ctx) (j : Nat) : (s.modCtx n f).task j = s.task j := rfl
@[simp] theorem State.me_modCtx (s : State) (n : Nat) (f : Ctx → Ctx) : (s.modCtx n f).me = s.me := rfl
@[simp] theorem State.bank_setTask (s : State) (u : Nat) (t : Task) (j : Nat) : (s.setTask u t).bank j = s.bank j := rfl
@[simp] theorem State.core_setTask (s : State) (u : Nat) (t : Task) (j : Nat) : (s.setTask u t).core j = s.core j := rfl
@[simp] theorem State.ctx_setTask (s : State) (u : Nat) (t : Task) (j : Nat) : (s.setTask u t).ctx j = s.ctx j := rfl
@[simp] theorem State.me_setTask (s : State) (u : Nat) (t : Task) : (s.setTask u t).me = s.me := rfl
@[simp] theorem State.bank_signal (s : State) (v : Nat) (j : Nat) : (s.signal v).bank j = s.bank j := rfl
@[simp] theorem State.core_signal (s : State) (v : Nat) (j : Nat) : (s.signal v).core j = s.core j := rfl
@[simp] theorem State.ctx_signal (s : State) (v : Nat) (j : Nat) : (s.signal v).ctx j = s.ctx j := rfl
@[simp] theorem State.task_signal (s : State) (v : Nat) (j : Nat) : (s.signal v).task j = s.task j := rfl
@[simp] theorem State.me_signal (s : State) (v : Nat) : (s.signal v).me = s.me := rfl
@[simp] theorem State.core_wx (s : State) (bk : Nat) (r : BitVec 5) (v : Word) (j : Nat) : (s.wx bk r v).core j = s.core j := rfl
@[simp] theorem State.ctx_wx (s : State) (bk : Nat) (r : BitVec 5) (v : Word) (j : Nat) : (s.wx bk r v).ctx j = s.ctx j := rfl
@[simp] theorem State.task_wx (s : State) (bk : Nat) (r : BitVec 5) (v : Word) (j : Nat) : (s.wx bk r v).task j = s.task j := rfl
@[simp] theorem State.me_wx (s : State) (bk : Nat) (r : BitVec 5) (v : Word) : (s.wx bk r v).me = s.me := rfl
@[simp] theorem State.bank_writeLoc (s : State) (loc : Nat) (bs : List Byte) (j : Nat) : (s.writeLoc loc bs).bank j = s.bank j := rfl
@[simp] theorem State.core_writeLoc (s : State) (loc : Nat) (bs : List Byte) (j : Nat) : (s.writeLoc loc bs).core j = s.core j := rfl
@[simp] theorem State.ctx_writeLoc (s : State) (loc : Nat) (bs : List Byte) (j : Nat) : (s.writeLoc loc bs).ctx j = s.ctx j := rfl
@[simp] theorem State.task_writeLoc (s : State) (loc : Nat) (bs : List Byte) (j : Nat) : (s.writeLoc loc bs).task j = s.task j := rfl
@[simp] theorem State.me_writeLoc (s : State) (loc : Nat) (bs : List Byte) : (s.writeLoc loc bs).me = s.me := rfl
@[simp] theorem State.bank_semWrite (s : State) (k : Nat) (v : Word) (j : Nat) : (s.semWrite k v).bank j = s.bank j := by unfold State.semWrite; split <;> rfl
@[simp] theorem State.core_semWrite (s : State) (k : Nat) (v : Word) (j : Nat) : (s.semWrite k v).core j = s.core j := by unfold State.semWrite; split <;> rfl
@[simp] theorem State.ctx_semWrite (s : State) (k : Nat) (v : Word) (j : Nat) : (s.semWrite k v).ctx j = s.ctx j := by unfold State.semWrite; split <;> rfl
@[simp] theorem State.me_semWrite (s : State) (k : Nat) (v : Word) : (s.semWrite k v).me = s.me := by unfold State.semWrite; split <;> rfl

/-! ### Scalar registers (R28) -/

@[simp] theorem Bank.rx_zero (b : Bank) : b.rx 0 = 0 := rfl

@[simp] theorem Bank.wx_zero (b : Bank) (v : Word) : b.wx 0 v = b := rfl

theorem Bank.rx_wx_ne (b : Bank) {r j : Nat} (v : Word) (h : j ≠ r) : (b.wx r v).rx j = b.rx j := by
  unfold Bank.rx Bank.wx
  split
  · rfl
  · split
    · rfl
    · exact SMap.get_set_ne 0 b.x v h

theorem Bank.rx_wx_same (b : Bank) {r : Nat} (v : Word) (h : r ≠ 0) : (b.wx r v).rx r = v := by
  simp [Bank.rx, Bank.wx, h]

end Sys2Proof.Machine
end

