-- ==== Sys2Proof/Laws/Memory.lean ====
section
/-! SUPPORT. Laws/Memory.lean: reading memory after a write, and the canonical form that every memory operation keeps. -/

namespace Sys2Proof.Machine

theorem Memory.read_write_same (m : List Host.Cell) (a : Nat) (b : Byte) : Memory.read (Memory.write m a b) a = b :=
  SMap.get_set_same Memory.unlisted m a b

theorem Memory.read_write_ne (m : List Host.Cell) {a x : Nat} (b : Byte) (h : x ≠ a) :
    Memory.read (Memory.write m a b) x = Memory.read m x := SMap.get_set_ne Memory.unlisted m b h

theorem Memory.read_writeList_out (bs : List Byte) (m : List Host.Cell) {a x : Nat} (h : ¬(a ≤ x ∧ x < a + bs.length)) :
    Memory.read (Memory.writeList m a bs) x = Memory.read m x := by
  induction bs generalizing m a with
  | nil => rfl
  | cons b bs ih =>
    simp only [List.length_cons] at h
    rw [Memory.writeList, ih _ (by omega), Memory.read_write_ne m b (by omega)]

theorem Memory.read_writeList_in (bs : List Byte) (m : List Host.Cell) (a i : Nat) (h : i < bs.length) :
    Memory.read (Memory.writeList m a bs) (a + i) = bs[i] := by
  induction bs generalizing m a i with
  | nil => simp at h
  | cons b bs ih =>
    rw [Memory.writeList]
    cases i with
    | zero =>
      rw [Memory.read_writeList_out bs _ (by omega)]
      exact Memory.read_write_same m a b
    | succ i =>
      have := ih (Memory.write m a b) (a + 1) i (by simpa using h)
      rw [show a + (i + 1) = a + 1 + i by omega, this]
      rfl

theorem leBytes_length (n v : Nat) : (leBytes n v).length = n := by
  induction n generalizing v with
  | zero => rfl
  | succ n ih => simp [leBytes, ih]

theorem leBytes_getElem (n v i : Nat) (h : i < (leBytes n v).length) :
    (leBytes n v)[i] = BitVec.ofNat 8 (v / 256 ^ i) := by
  induction n generalizing v i with
  | zero => simp [leBytes] at h
  | succ n ih =>
    cases i with
    | zero => simp [leBytes]
    | succ i =>
      have h' : i < (leBytes n (v / 256)).length := by simpa [leBytes] using h
      simp only [leBytes, List.getElem_cons_succ]
      rw [ih (v / 256) i h', Nat.div_div_eq_div_mul, Nat.pow_succ']

/-! ### The canonical form -/

theorem Memory.write_wf (m : List Host.Cell) (a : Nat) (b : Byte) (h : Memory.wf m = true) :
    Memory.wf (Memory.write m a b) = true := SMap.set_wf Memory.unlisted m a b h

theorem Memory.writeList_wf (bs : List Byte) (m : List Host.Cell) (a : Nat) (h : Memory.wf m = true) :
    Memory.wf (Memory.writeList m a bs) = true := by
  induction bs generalizing m a with
  | nil => exact h
  | cons b bs ih => exact ih _ _ (Memory.write_wf m a b h)

theorem cellsIn_wf (m : List Host.Cell) (a n : Nat) (h : Memory.wf m = true) : Memory.wf (cellsIn m a n) = true :=
  SMap.filter_wf Memory.unlisted m _ h

theorem cellsOut_wf (m : List Host.Cell) (a n : Nat) (h : Memory.wf m = true) : Memory.wf (cellsOut m a n) = true :=
  SMap.erase_wf Memory.unlisted m _ h

theorem Memory.foldWrite_wf (es : List Host.Cell) (m : List Host.Cell) (h : Memory.wf m = true) :
    Memory.wf (es.foldl (fun m e => Memory.write m e.1 e.2) m) = true := by
  induction es generalizing m with
  | nil => exact h
  | cons e es ih => exact ih _ (Memory.write_wf m e.1 e.2 h)

theorem Memory.wf_nil : Memory.wf [] = true := rfl

theorem State.writeLoc_wf (s : State) (loc : Nat) (bs : List Byte) (h : Memory.wf s.mem = true) :
    Memory.wf (s.writeLoc loc bs).mem = true := Memory.writeList_wf bs s.mem loc h

/-- Bytes outside a write stay. -/
theorem State.writeLoc_out (s : State) (loc : Nat) (bs : List Byte) {x : Nat} (h : ¬(loc ≤ x ∧ x < loc + bs.length)) :
    Memory.read (s.writeLoc loc bs).mem x = Memory.read s.mem x := Memory.read_writeList_out bs s.mem h

/-- Bytes inside a write are those written. -/
theorem State.writeLoc_in (s : State) (loc n v i : Nat) (h : i < n) :
    Memory.read (s.writeLoc loc (leBytes n v)).mem (loc + i) = BitVec.ofNat 8 (v / 256 ^ i) := by
  have h' : i < (leBytes n v).length := by simpa [leBytes_length] using h
  rw [State.writeLoc_mem, Memory.read_writeList_in _ _ _ _ h', leBytes_getElem]

end Sys2Proof.Machine
end

