-- ==== Sys2Proof/Laws/Ops.lean ====
section
/-! SUPPORT. Laws/Ops.lean: what each shared operation can do. -/

namespace Sys2Proof.Machine

/-! ### How an instruction ends -/

theorem perform_ok (s t : State) (len : Nat) :
    perform s len (.ok t) = .next (t.modBank s.me fun b => b.pass ((s.bank s.me).pc + w64 len)) := rfl

theorem perform_error (s : State) (len : Nat) (e : Stop) : perform s len (.error e) = .next (settleStop s s.me e) := rfl

/-- Every instruction of a bank answers a next state: it completes or it stops. -/
theorem perform_next (s : State) (len : Nat) (r : Except Stop State) : ∃ t, perform s len r = .next t := by
  cases r <;> exact ⟨_, rfl⟩

theorem performJump_next (s : State) (r : Except Stop (State × Word)) : ∃ t, performJump s r = .next t := by
  rcases r with e | ⟨t, pc⟩
  · exact ⟨_, rfl⟩
  · unfold performJump
    split <;> (try split) <;> exact ⟨_, rfl⟩

theorem event_next (s : State) (r : Option State) : ∃ t, event s r = .next t := ⟨_, rfl⟩
theorem eventOn_next (s : State) (ck : Nat) (r : Option State) : ∃ t, eventOn s ck r = .next t := ⟨_, rfl⟩

theorem event_some (s t : State) : event s (some t) = .next t := rfl
theorem event_none (s : State) : event s none = .next s := rfl
theorem eventOn_some (s t : State) (ck : Nat) (h : s.works ck = true) : eventOn s ck (some t) = .next t := by
  simp [eventOn, h]

/-! ### Scalar registers -/

theorem Bank.rx_wx (b : Bank) (r j : Nat) (v : Word) :
    (b.wx r v).rx j = if j = r then (if r = 0 then 0 else v) else b.rx j := by
  by_cases h : j = r
  · subst h
    by_cases h0 : j = 0
    · subst h0
      simp
    · simp [Bank.rx_wx_same b v h0, h0]
  · simp [Bank.rx_wx_ne b v h, h]

@[simp] theorem Bank.restX_wx (b : Bank) (r : Nat) (v : Word) : (b.wx r v).restX = b.restX := by
  unfold Bank.wx
  split <;> rfl

@[simp] theorem Bank.rx_pass (b : Bank) (pc : Word) (r : Nat) : (b.pass pc).rx r = b.rx r := rfl
@[simp] theorem Bank.rest_pass (b : Bank) (pc : Word) : (b.pass pc).rest = b.rest := rfl
@[simp] theorem Bank.restX_pass (b : Bank) (pc : Word) : (b.pass pc).restX = b.restX := rfl

theorem regNum_zero {r : BitVec 5} : r.toNat = 0 ↔ r = 0 := by
  constructor
  · intro h
    exact BitVec.eq_of_toNat_eq (by simpa using h)
  · rintro rfl
    rfl

/-! ### What stays -/

theorem Local.refl (s : State) : Local s s := ⟨rfl, fun _ _ => rfl, fun _ => rfl⟩

theorem Keeps.modBank {f : State → State} {g : Core → Core} {s t : State} (h : Keeps f g s t) (fb : Bank → Bank)
    (hf : ∀ (u : State) bk b, f (u.setBank bk b) = f u) : Keeps f g s (t.modBank s.me fb) := by
  refine ⟨?_, fun bk hb => ?_, fun k => ?_⟩
  · rw [State.modBank, hf, h.state]
  · rw [State.bank_modBank_ne t fb hb, h.others bk hb]
  · exact h.core k

theorem State.rest_setBank (u : State) (bk : Nat) (b : Bank) : (u.setBank bk b).rest = u.rest := rfl
theorem State.restMem_setBank (u : State) (bk : Nat) (b : Bank) : (u.setBank bk b).restMem = u.restMem := rfl

theorem sameMem_refl (s : State) : SameMem s s := fun _ => rfl
theorem sameMem_of_eq {s t : State} (h : t.mem = s.mem) : SameMem s t := fun a => by rw [h]

/-- Writing one scalar register and passing the instruction. -/
theorem writes_wx (s t : State) (len : Nat) (rd : BitVec 5) (v : Word)
    (hb : (t.bank s.me).restX = s.here.restX) (hx : ∀ r, (t.bank s.me).rx r = s.here.rx r) :
    Writes s ((t.wx s.me rd v).modBank s.me fun b => b.pass ((s.bank s.me).pc + w64 len)) len rd v := by
  have e : ((t.wx s.me rd v).modBank s.me fun b => b.pass ((s.bank s.me).pc + w64 len)).bank s.me
      = ((t.bank s.me).wx rd.toNat v).pass ((s.bank s.me).pc + w64 len) := by simp [State.wx]
  refine ⟨?_, ?_, ?_, ?_⟩
  · rw [e]
    rfl
  · rw [e, Bank.rx_pass, Bank.rx_wx]
    simp [regNum_zero]
  · intro r h
    rw [e, Bank.rx_pass, Bank.rx_wx, if_neg h, hx]
  · rw [e]
    simpa using hb

theorem passes_of (s t : State) (len : Nat) (hb : (t.bank s.me).rest = s.here.rest) :
    Passes s (t.modBank s.me fun b => b.pass ((s.bank s.me).pc + w64 len)) len := by
  refine ⟨?_, ?_⟩
  · simp [State.here]
  · simpa using hb

end Sys2Proof.Machine
end

