-- ==== Sys2Proof/Laws/Access.lean ====
section
/-! SUPPORT. Laws/Access.lean: what an access, a store, a release and an acquire change. -/

namespace Sys2Proof.Machine

/-- What a translation may list: nothing, an entry in the core's first level, or the same entry in its partition's second
level too (R337). -/
def TlbListed (s t : State) (ck : Nat) : Prop :=
  t = s ∨ (∃ e, t = s.listTlb ck e) ∨ ∃ e part, t = (s.listTlb ck e).listTlb2 part e

/-- Translation by a core changes at most cached translations. -/
theorem xlatCore_state {s t : State} {ck ctx : Nat} {k : Access} {va : Word} {a : Nat} {p : Place}
    (h : xlatCore s ck ctx k va a = .ok (p, t)) : TlbListed s t ck := by
  simp only [xlatCore] at h
  split at h
  · cases h
    exact .inl rfl
  · split at h
    · split at h <;> cases h
      exact .inl rfl
    · split at h
      · split at h <;> cases h
        exact .inr (.inl ⟨_, rfl⟩)
      · split at h <;> cases h
        exact .inr (.inr ⟨_, _, rfl⟩)

/-- An access that passes its checks changes at most cached translations. -/
theorem access_state {s t : State} {ag : Agent} {k : Access} {home : Bool} {mis : Nat} {va : Word} {n : Nat} {p : Place}
    (h : access s ag k home mis va n = .ok (p, t)) : TlbListed s t ag.key := by
  simp only [access, bind, Except.bind, pure, Except.pure] at h
  split at h
  · cases h
  · split at h
    · cases h
    · split at h
      · split at h
        · cases h
        · cases h
          exact .inl rfl
      · split at h
        · cases h
        · split at h
          · cases h
          · rename_i hx
            split at h
            · cases h
            · split at h
              · cases h
              · split at h
                · cases h
                · cases h
                  exact xlatCore_state hx

theorem State.restCache_modCore (s : State) (ck : Nat) (f : Core → Core) (hf : (f (s.core ck)).restCache = (s.core ck).restCache)
    (c : Nat) : ((s.modCore ck f).core c).restCache = (s.core c).restCache := by
  by_cases hc : c = ck
  · subst hc
    simpa [State.modCore] using hf
  · rw [State.modCore, State.core_setCore_ne s _ hc]

/-- What an access leaves of the state. -/
theorem access_keeps {s t : State} {ag : Agent} {k : Access} {home : Bool} {mis : Nat} {va : Word} {n : Nat} {p : Place}
    (h : access s ag k home mis va n = .ok (p, t)) :
    t.mem = s.mem ∧ t.restCache = s.restCache ∧ (∀ bk, t.bank bk = s.bank bk)
      ∧ (∀ c, (t.core c).restCache = (s.core c).restCache) ∧ t.me = s.me := by
  obtain rfl | ⟨e, rfl⟩ | ⟨e, part, rfl⟩ := access_state h
  · exact ⟨rfl, rfl, fun _ => rfl, fun _ => rfl, rfl⟩
  · exact ⟨rfl, rfl, fun _ => rfl, s.restCache_modCore _ _ rfl, rfl⟩
  · exact ⟨rfl, rfl, fun _ => rfl,
      fun c => s.restCache_modCore ag.key (fun c => { c with tlb := (e :: c.tlb).take 256 }) rfl c, rfl⟩

theorem State.fill_keeps (s : State) (ck : Nat) (p : Place) :
    (s.fill ck p).mem = s.mem ∧ (s.fill ck p).rest = s.rest ∧ (∀ bk, (s.fill ck p).bank bk = s.bank bk)
      ∧ (∀ c, ((s.fill ck p).core c).restCache = (s.core c).restCache) ∧ (s.fill ck p).me = s.me := by
  unfold State.fill
  split
  · exact ⟨rfl, rfl, fun _ => rfl, fun _ => rfl, rfl⟩
  · split
    · exact ⟨rfl, rfl, fun _ => rfl, fun _ => rfl, rfl⟩
    · exact ⟨rfl, rfl, fun _ => rfl, s.restCache_modCore _ _ rfl, rfl⟩

/-! ### Stores, publication, releases and acquires -/

theorem foldl_proj {α β : Type} (g : State → β) (f : State → α → State) (hf : ∀ s a, g (f s a) = g s) (l : List α)
    (s : State) : g (l.foldl f s) = g s := by
  induction l generalizing s with
  | nil => rfl
  | cons a l ih => rw [List.foldl_cons, ih, hf]

/-- A property of states that each item of a fold keeps, the fold keeps. -/
theorem foldl_keep {α : Type} (P : State → Prop) (f : State → α → State) (hf : ∀ s a, P s → P (f s a)) (l : List α)
    (s : State) (h : P s) : P (l.foldl f s) := by
  induction l generalizing s with
  | nil => exact h
  | cons a l ih => exact ih _ (hf s a h)

@[simp] theorem State.setL1_mem (s : State) (ck sec : Nat) (v : L1St) : (s.setL1 ck sec v).mem = s.mem := rfl
@[simp] theorem State.setL1_banks (s : State) (ck sec : Nat) (v : L1St) : (s.setL1 ck sec v).banks = s.banks := rfl
@[simp] theorem State.setL1_ctxs (s : State) (ck sec : Nat) (v : L1St) : (s.setL1 ck sec v).ctxs = s.ctxs := rfl
@[simp] theorem State.setL1_tasks (s : State) (ck sec : Nat) (v : L1St) : (s.setL1 ck sec v).tasks = s.tasks := rfl
@[simp] theorem State.setL1_sem (s : State) (ck sec : Nat) (v : L1St) : (s.setL1 ck sec v).sem = s.sem := rfl
@[simp] theorem State.setL1_curCore (s : State) (ck sec : Nat) (v : L1St) : (s.setL1 ck sec v).curCore = s.curCore := rfl
@[simp] theorem State.setL1_curBank (s : State) (ck sec : Nat) (v : L1St) : (s.setL1 ck sec v).curBank = s.curBank := rfl
@[simp] theorem State.setL1_slots (s : State) (ck sec : Nat) (v : L1St) : (s.setL1 ck sec v).slots = s.slots := rfl
@[simp] theorem State.setL1_faults (s : State) (ck sec : Nat) (v : L1St) : (s.setL1 ck sec v).faults = s.faults := rfl
@[simp] theorem State.dropL1_mem (s : State) (ck sec : Nat) : (s.dropL1 ck sec).mem = s.mem := rfl
@[simp] theorem State.dropL1_banks (s : State) (ck sec : Nat) : (s.dropL1 ck sec).banks = s.banks := rfl
@[simp] theorem State.dropL1_ctxs (s : State) (ck sec : Nat) : (s.dropL1 ck sec).ctxs = s.ctxs := rfl
@[simp] theorem State.dropL1_tasks (s : State) (ck sec : Nat) : (s.dropL1 ck sec).tasks = s.tasks := rfl
@[simp] theorem State.dropL1_sem (s : State) (ck sec : Nat) : (s.dropL1 ck sec).sem = s.sem := rfl
@[simp] theorem State.dropL1_curCore (s : State) (ck sec : Nat) : (s.dropL1 ck sec).curCore = s.curCore := rfl
@[simp] theorem State.dropL1_curBank (s : State) (ck sec : Nat) : (s.dropL1 ck sec).curBank = s.curBank := rfl
@[simp] theorem State.dropL1_slots (s : State) (ck sec : Nat) : (s.dropL1 ck sec).slots = s.slots := rfl
@[simp] theorem State.dropL1_faults (s : State) (ck sec : Nat) : (s.dropL1 ck sec).faults = s.faults := rfl
@[simp] theorem State.publish_mem (s : State) (ck sec : Nat) : (s.publish ck sec).mem = s.mem := rfl
@[simp] theorem State.publish_banks (s : State) (ck sec : Nat) : (s.publish ck sec).banks = s.banks := rfl
@[simp] theorem State.publish_ctxs (s : State) (ck sec : Nat) : (s.publish ck sec).ctxs = s.ctxs := rfl
@[simp] theorem State.publish_tasks (s : State) (ck sec : Nat) : (s.publish ck sec).tasks = s.tasks := rfl
@[simp] theorem State.publish_sem (s : State) (ck sec : Nat) : (s.publish ck sec).sem = s.sem := rfl
@[simp] theorem State.publish_curCore (s : State) (ck sec : Nat) : (s.publish ck sec).curCore = s.curCore := rfl
@[simp] theorem State.publish_curBank (s : State) (ck sec : Nat) : (s.publish ck sec).curBank = s.curBank := rfl
@[simp] theorem State.publish_slots (s : State) (ck sec : Nat) : (s.publish ck sec).slots = s.slots := rfl
@[simp] theorem State.publish_faults (s : State) (ck sec : Nat) : (s.publish ck sec).faults = s.faults := rfl
@[simp] theorem State.tagNarrow_mem (s : State) (sec : Nat) (tag : Tag) (e : Option (Nat × Nat × Nat)) : (s.tagNarrow sec tag e).mem = s.mem := rfl
@[simp] theorem State.tagNarrow_banks (s : State) (sec : Nat) (tag : Tag) (e : Option (Nat × Nat × Nat)) : (s.tagNarrow sec tag e).banks = s.banks := rfl
@[simp] theorem State.tagNarrow_ctxs (s : State) (sec : Nat) (tag : Tag) (e : Option (Nat × Nat × Nat)) : (s.tagNarrow sec tag e).ctxs = s.ctxs := rfl
@[simp] theorem State.tagNarrow_tasks (s : State) (sec : Nat) (tag : Tag) (e : Option (Nat × Nat × Nat)) : (s.tagNarrow sec tag e).tasks = s.tasks := rfl
@[simp] theorem State.tagNarrow_sem (s : State) (sec : Nat) (tag : Tag) (e : Option (Nat × Nat × Nat)) : (s.tagNarrow sec tag e).sem = s.sem := rfl
@[simp] theorem State.tagNarrow_curCore (s : State) (sec : Nat) (tag : Tag) (e : Option (Nat × Nat × Nat)) : (s.tagNarrow sec tag e).curCore = s.curCore := rfl
@[simp] theorem State.tagNarrow_curBank (s : State) (sec : Nat) (tag : Tag) (e : Option (Nat × Nat × Nat)) : (s.tagNarrow sec tag e).curBank = s.curBank := rfl
@[simp] theorem State.tagNarrow_slots (s : State) (sec : Nat) (tag : Tag) (e : Option (Nat × Nat × Nat)) : (s.tagNarrow sec tag e).slots = s.slots := rfl
@[simp] theorem State.tagNarrow_faults (s : State) (sec : Nat) (tag : Tag) (e : Option (Nat × Nat × Nat)) : (s.tagNarrow sec tag e).faults = s.faults := rfl

@[simp] theorem State.publishAll_mem (s : State) (ck : Nat) (secs : List Nat) : (s.publishAll ck secs).mem = s.mem := by
  unfold State.publishAll
  apply foldl_proj (·.mem)
  intros
  rfl

@[simp] theorem State.release_mem (s : State) (ag : Agent) (scope : Nat) : (s.release ag scope).mem = s.mem := by
  unfold State.release
  split <;> simp

@[simp] theorem State.acquire_mem (s : State) (ck scope : Nat) : (s.acquire ck scope).mem = s.mem := by
  unfold State.acquire
  split <;> rfl

@[simp] theorem State.publishAll_banks (s : State) (ck : Nat) (secs : List Nat) : (s.publishAll ck secs).banks = s.banks := by
  unfold State.publishAll
  apply foldl_proj (·.banks)
  intros
  rfl

@[simp] theorem State.release_banks (s : State) (ag : Agent) (scope : Nat) : (s.release ag scope).banks = s.banks := by
  unfold State.release
  split <;> simp

@[simp] theorem State.acquire_banks (s : State) (ck scope : Nat) : (s.acquire ck scope).banks = s.banks := by
  unfold State.acquire
  split <;> rfl

@[simp] theorem State.publishAll_ctxs (s : State) (ck : Nat) (secs : List Nat) : (s.publishAll ck secs).ctxs = s.ctxs := by
  unfold State.publishAll
  apply foldl_proj (·.ctxs)
  intros
  rfl

@[simp] theorem State.release_ctxs (s : State) (ag : Agent) (scope : Nat) : (s.release ag scope).ctxs = s.ctxs := by
  unfold State.release
  split <;> simp

@[simp] theorem State.acquire_ctxs (s : State) (ck scope : Nat) : (s.acquire ck scope).ctxs = s.ctxs := by
  unfold State.acquire
  split <;> rfl

@[simp] theorem State.publishAll_tasks (s : State) (ck : Nat) (secs : List Nat) : (s.publishAll ck secs).tasks = s.tasks := by
  unfold State.publishAll
  apply foldl_proj (·.tasks)
  intros
  rfl

@[simp] theorem State.release_tasks (s : State) (ag : Agent) (scope : Nat) : (s.release ag scope).tasks = s.tasks := by
  unfold State.release
  split <;> simp

@[simp] theorem State.acquire_tasks (s : State) (ck scope : Nat) : (s.acquire ck scope).tasks = s.tasks := by
  unfold State.acquire
  split <;> rfl

@[simp] theorem State.publishAll_sem (s : State) (ck : Nat) (secs : List Nat) : (s.publishAll ck secs).sem = s.sem := by
  unfold State.publishAll
  apply foldl_proj (·.sem)
  intros
  rfl

@[simp] theorem State.release_sem (s : State) (ag : Agent) (scope : Nat) : (s.release ag scope).sem = s.sem := by
  unfold State.release
  split <;> simp

@[simp] theorem State.acquire_sem (s : State) (ck scope : Nat) : (s.acquire ck scope).sem = s.sem := by
  unfold State.acquire
  split <;> rfl

@[simp] theorem State.publishAll_curCore (s : State) (ck : Nat) (secs : List Nat) : (s.publishAll ck secs).curCore = s.curCore := by
  unfold State.publishAll
  apply foldl_proj (·.curCore)
  intros
  rfl

@[simp] theorem State.release_curCore (s : State) (ag : Agent) (scope : Nat) : (s.release ag scope).curCore = s.curCore := by
  unfold State.release
  split <;> simp

@[simp] theorem State.acquire_curCore (s : State) (ck scope : Nat) : (s.acquire ck scope).curCore = s.curCore := by
  unfold State.acquire
  split <;> rfl

@[simp] theorem State.publishAll_curBank (s : State) (ck : Nat) (secs : List Nat) : (s.publishAll ck secs).curBank = s.curBank := by
  unfold State.publishAll
  apply foldl_proj (·.curBank)
  intros
  rfl

@[simp] theorem State.release_curBank (s : State) (ag : Agent) (scope : Nat) : (s.release ag scope).curBank = s.curBank := by
  unfold State.release
  split <;> simp

@[simp] theorem State.acquire_curBank (s : State) (ck scope : Nat) : (s.acquire ck scope).curBank = s.curBank := by
  unfold State.acquire
  split <;> rfl

@[simp] theorem State.publishAll_slots (s : State) (ck : Nat) (secs : List Nat) : (s.publishAll ck secs).slots = s.slots := by
  unfold State.publishAll
  apply foldl_proj (·.slots)
  intros
  rfl

@[simp] theorem State.release_slots (s : State) (ag : Agent) (scope : Nat) : (s.release ag scope).slots = s.slots := by
  unfold State.release
  split <;> simp

@[simp] theorem State.acquire_slots (s : State) (ck scope : Nat) : (s.acquire ck scope).slots = s.slots := by
  unfold State.acquire
  split <;> rfl

@[simp] theorem State.publishAll_faults (s : State) (ck : Nat) (secs : List Nat) : (s.publishAll ck secs).faults = s.faults := by
  unfold State.publishAll
  apply foldl_proj (·.faults)
  intros
  rfl

@[simp] theorem State.release_faults (s : State) (ag : Agent) (scope : Nat) : (s.release ag scope).faults = s.faults := by
  unfold State.release
  split <;> simp

@[simp] theorem State.acquire_faults (s : State) (ck scope : Nat) : (s.acquire ck scope).faults = s.faults := by
  unfold State.acquire
  split <;> rfl

@[simp] theorem State.storeL1_mem (s : State) (ag : Agent) (p : Place) (bs : List Byte) (e : Option (Nat × Nat × Nat)) :
    (s.storeL1 ag p bs e).mem = Memory.writeList s.mem p.loc bs := by
  unfold State.storeL1
  simp only
  split <;> rfl

@[simp] theorem State.storeHome_mem (s : State) (ag : Agent) (p : Place) (bs : List Byte) (e : Nat × Nat × Nat) : (s.storeHome ag p bs e).mem = Memory.writeList s.mem p.loc bs := by
  unfold State.storeHome
  simp only
  split
  · rfl
  · refine Eq.trans (foldl_proj (·.mem) _ ?_ _ _) rfl
    intros
    rfl

@[simp] theorem State.storePublished_mem (s : State) (ck : Nat) (p : Place) (bs : List Byte) : (s.storePublished ck p bs).mem = Memory.writeList s.mem p.loc bs := by
  unfold State.storePublished
  simp only
  split
  · rfl
  · refine Eq.trans (foldl_proj (·.mem) _ ?_ _ _) rfl
    intros
    rfl

@[simp] theorem State.storeL1_banks (s : State) (ag : Agent) (p : Place) (bs : List Byte) (e : Option (Nat × Nat × Nat)) :
    (s.storeL1 ag p bs e).banks = s.banks := by
  unfold State.storeL1
  simp only
  split <;> rfl

@[simp] theorem State.storeHome_banks (s : State) (ag : Agent) (p : Place) (bs : List Byte) (e : Nat × Nat × Nat) : (s.storeHome ag p bs e).banks = s.banks := by
  unfold State.storeHome
  simp only
  split
  · rfl
  · refine Eq.trans (foldl_proj (·.banks) _ ?_ _ _) rfl
    intros
    rfl

@[simp] theorem State.storePublished_banks (s : State) (ck : Nat) (p : Place) (bs : List Byte) : (s.storePublished ck p bs).banks = s.banks := by
  unfold State.storePublished
  simp only
  split
  · rfl
  · refine Eq.trans (foldl_proj (·.banks) _ ?_ _ _) rfl
    intros
    rfl

@[simp] theorem State.storeL1_ctxs (s : State) (ag : Agent) (p : Place) (bs : List Byte) (e : Option (Nat × Nat × Nat)) :
    (s.storeL1 ag p bs e).ctxs = s.ctxs := by
  unfold State.storeL1
  simp only
  split <;> rfl

@[simp] theorem State.storeHome_ctxs (s : State) (ag : Agent) (p : Place) (bs : List Byte) (e : Nat × Nat × Nat) : (s.storeHome ag p bs e).ctxs = s.ctxs := by
  unfold State.storeHome
  simp only
  split
  · rfl
  · refine Eq.trans (foldl_proj (·.ctxs) _ ?_ _ _) rfl
    intros
    rfl

@[simp] theorem State.storePublished_ctxs (s : State) (ck : Nat) (p : Place) (bs : List Byte) : (s.storePublished ck p bs).ctxs = s.ctxs := by
  unfold State.storePublished
  simp only
  split
  · rfl
  · refine Eq.trans (foldl_proj (·.ctxs) _ ?_ _ _) rfl
    intros
    rfl

@[simp] theorem State.storeL1_tasks (s : State) (ag : Agent) (p : Place) (bs : List Byte) (e : Option (Nat × Nat × Nat)) :
    (s.storeL1 ag p bs e).tasks = s.tasks := by
  unfold State.storeL1
  simp only
  split <;> rfl

@[simp] theorem State.storeHome_tasks (s : State) (ag : Agent) (p : Place) (bs : List Byte) (e : Nat × Nat × Nat) : (s.storeHome ag p bs e).tasks = s.tasks := by
  unfold State.storeHome
  simp only
  split
  · rfl
  · refine Eq.trans (foldl_proj (·.tasks) _ ?_ _ _) rfl
    intros
    rfl

@[simp] theorem State.storePublished_tasks (s : State) (ck : Nat) (p : Place) (bs : List Byte) : (s.storePublished ck p bs).tasks = s.tasks := by
  unfold State.storePublished
  simp only
  split
  · rfl
  · refine Eq.trans (foldl_proj (·.tasks) _ ?_ _ _) rfl
    intros
    rfl

@[simp] theorem State.storeL1_sem (s : State) (ag : Agent) (p : Place) (bs : List Byte) (e : Option (Nat × Nat × Nat)) :
    (s.storeL1 ag p bs e).sem = s.sem := by
  unfold State.storeL1
  simp only
  split <;> rfl

@[simp] theorem State.storeHome_sem (s : State) (ag : Agent) (p : Place) (bs : List Byte) (e : Nat × Nat × Nat) : (s.storeHome ag p bs e).sem = s.sem := by
  unfold State.storeHome
  simp only
  split
  · rfl
  · refine Eq.trans (foldl_proj (·.sem) _ ?_ _ _) rfl
    intros
    rfl

@[simp] theorem State.storePublished_sem (s : State) (ck : Nat) (p : Place) (bs : List Byte) : (s.storePublished ck p bs).sem = s.sem := by
  unfold State.storePublished
  simp only
  split
  · rfl
  · refine Eq.trans (foldl_proj (·.sem) _ ?_ _ _) rfl
    intros
    rfl

@[simp] theorem State.storeL1_curCore (s : State) (ag : Agent) (p : Place) (bs : List Byte) (e : Option (Nat × Nat × Nat)) :
    (s.storeL1 ag p bs e).curCore = s.curCore := by
  unfold State.storeL1
  simp only
  split <;> rfl

@[simp] theorem State.storeHome_curCore (s : State) (ag : Agent) (p : Place) (bs : List Byte) (e : Nat × Nat × Nat) : (s.storeHome ag p bs e).curCore = s.curCore := by
  unfold State.storeHome
  simp only
  split
  · rfl
  · refine Eq.trans (foldl_proj (·.curCore) _ ?_ _ _) rfl
    intros
    rfl

@[simp] theorem State.storePublished_curCore (s : State) (ck : Nat) (p : Place) (bs : List Byte) : (s.storePublished ck p bs).curCore = s.curCore := by
  unfold State.storePublished
  simp only
  split
  · rfl
  · refine Eq.trans (foldl_proj (·.curCore) _ ?_ _ _) rfl
    intros
    rfl

@[simp] theorem State.storeL1_curBank (s : State) (ag : Agent) (p : Place) (bs : List Byte) (e : Option (Nat × Nat × Nat)) :
    (s.storeL1 ag p bs e).curBank = s.curBank := by
  unfold State.storeL1
  simp only
  split <;> rfl

@[simp] theorem State.storeHome_curBank (s : State) (ag : Agent) (p : Place) (bs : List Byte) (e : Nat × Nat × Nat) : (s.storeHome ag p bs e).curBank = s.curBank := by
  unfold State.storeHome
  simp only
  split
  · rfl
  · refine Eq.trans (foldl_proj (·.curBank) _ ?_ _ _) rfl
    intros
    rfl

@[simp] theorem State.storePublished_curBank (s : State) (ck : Nat) (p : Place) (bs : List Byte) : (s.storePublished ck p bs).curBank = s.curBank := by
  unfold State.storePublished
  simp only
  split
  · rfl
  · refine Eq.trans (foldl_proj (·.curBank) _ ?_ _ _) rfl
    intros
    rfl

@[simp] theorem State.storeL1_slots (s : State) (ag : Agent) (p : Place) (bs : List Byte) (e : Option (Nat × Nat × Nat)) :
    (s.storeL1 ag p bs e).slots = s.slots := by
  unfold State.storeL1
  simp only
  split <;> rfl

@[simp] theorem State.storeHome_slots (s : State) (ag : Agent) (p : Place) (bs : List Byte) (e : Nat × Nat × Nat) : (s.storeHome ag p bs e).slots = s.slots := by
  unfold State.storeHome
  simp only
  split
  · rfl
  · refine Eq.trans (foldl_proj (·.slots) _ ?_ _ _) rfl
    intros
    rfl

@[simp] theorem State.storePublished_slots (s : State) (ck : Nat) (p : Place) (bs : List Byte) : (s.storePublished ck p bs).slots = s.slots := by
  unfold State.storePublished
  simp only
  split
  · rfl
  · refine Eq.trans (foldl_proj (·.slots) _ ?_ _ _) rfl
    intros
    rfl

@[simp] theorem State.storeL1_faults (s : State) (ag : Agent) (p : Place) (bs : List Byte) (e : Option (Nat × Nat × Nat)) :
    (s.storeL1 ag p bs e).faults = s.faults := by
  unfold State.storeL1
  simp only
  split <;> rfl

@[simp] theorem State.storeHome_faults (s : State) (ag : Agent) (p : Place) (bs : List Byte) (e : Nat × Nat × Nat) : (s.storeHome ag p bs e).faults = s.faults := by
  unfold State.storeHome
  simp only
  split
  · rfl
  · refine Eq.trans (foldl_proj (·.faults) _ ?_ _ _) rfl
    intros
    rfl

@[simp] theorem State.storePublished_faults (s : State) (ck : Nat) (p : Place) (bs : List Byte) : (s.storePublished ck p bs).faults = s.faults := by
  unfold State.storePublished
  simp only
  split
  · rfl
  · refine Eq.trans (foldl_proj (·.faults) _ ?_ _ _) rfl
    intros
    rfl

theorem State.bank_of_banks {s t : State} (h : t.banks = s.banks) (bk : Nat) : t.bank bk = s.bank bk := by
  simp [State.bank, h]

theorem State.me_of_cur {s t : State} (h : t.curCore = s.curCore) (h' : t.curBank = s.curBank) : t.me = s.me := by
  simp [State.me, h, h']

end Sys2Proof.Machine
end

