-- ==== Sys2Proof/Laws/Issue.lean ====
section
/-!
SUPPORT. Laws/Issue.lean: what the start of a word of queue cc does, and what entering the vector queue does, once for every word of
that queue.
-/

namespace Sys2Proof.Machine

/-! ### Words of queue cc -/

/-- A ready word of queue cc starts. -/
theorem ccStart_ready {s : State} {c : Ctl} (h : Ready s c) : ccStart s c = .ok (s.issued c) := by
  have h1 := h.crew
  have h2 := h.turn
  simp only [State.here] at h1 h2
  simp [ccStart, checkCrew, need, h1, h2, State.issued, State.here]

/-- The issue of a ready word records its time in the bank's crew and changes nothing else of the bank. -/
theorem issued_bank {s : State} {c : Ctl} (h : Ready s c) :
    ∃ w k, (s.issued c).bank s.me = { s.here with crew := w, stuck := k } := by
  obtain ⟨u, hu⟩ := Option.isSome_iff_exists.1 h.task
  simp only [State.here] at hu
  have hd : s.here.uid.getD 0 = u := by simp [State.here, hu]
  unfold State.issued stampIssue
  rw [hd]
  dsimp only
  split
  · rw [State.modHome, State.bank_setCore, if_pos hu, State.bank_modBank_same, State.bank_setCore]
    exact ⟨_, _, rfl⟩
  · rw [State.bank_setCore]
    exact ⟨_, _, rfl⟩

/-- Outside its bank the issue of a ready word changes only the issue times of its core. -/
theorem issued_local {s : State} {c : Ctl} (h : Ready s c) : Local s (s.issued c) := by
  obtain ⟨u, hu⟩ := Option.isSome_iff_exists.1 h.task
  simp only [State.here] at hu
  have hl : ∀ l, Local s (s.setCore (keyCore s.me) { s.core (keyCore s.me) with lastIssue := l }) := by
    refine fun l => ⟨rfl, fun bk _ => by rw [State.bank_setCore], fun k => ?_⟩
    by_cases hk : k = keyCore s.me
    · subst hk; simp [Core.rest]
    · rw [State.core_setCore_ne _ _ hk]
  unfold State.issued stampIssue
  simp only [State.here, hu, Option.getD_some]
  split
  · rw [State.modHome, State.bank_setCore, if_pos hu]
    exact Keeps.modBank (hl _) _ State.rest_setBank
  · exact hl _

theorem issued_mem {s : State} {c : Ctl} (h : Ready s c) : (s.issued c).mem = s.mem := by
  have := congrArg State.mem (issued_local h).state
  exact this

theorem issued_restX {s : State} {c : Ctl} (h : Ready s c) : ((s.issued c).bank s.me).restX = s.here.restX := by
  obtain ⟨w, k, e⟩ := issued_bank h
  rw [e]; rfl

theorem issued_rx {s : State} {c : Ctl} (h : Ready s c) (r : Nat) : ((s.issued c).bank s.me).rx r = s.here.rx r := by
  obtain ⟨w, k, e⟩ := issued_bank h
  rw [e]; rfl

/-- A word of queue cc that only writes a register. -/
theorem ccWrites {s t : State} (rd : BitVec 5) (v : Word) (hl : Local s t)
    (hm : t.mem = s.mem) (hb : (t.bank s.me).restX = s.here.restX) (hx : ∀ r, (t.bank s.me).rx r = s.here.rx r) :
    ∃ u, perform s 8 (.ok (t.wx s.me rd v)) = .next u ∧ Writes s u 8 rd v ∧ SameMem s u ∧ Local s u :=
  ⟨_, rfl, writes_wx s t 8 rd v hb hx, sameMem_of_eq (by simpa using hm),
    by unfold State.wx; exact Keeps.modBank (Keeps.modBank hl _ State.rest_setBank) _ State.rest_setBank⟩

/-! ### Words of the vector queue -/

/-- Taking an entry changes nothing of the bank but its streams. -/
theorem takeLoc_ok {b b' : Bank} {l l' : VLoc} (h : takeLoc b l = .ok (l', b')) : b' = { b with streams := b'.streams } := by
  unfold takeLoc at h
  split at h
  · split at h
    · rename_i e b2 he
      unfold takeEntries at he
      cases h
      split at he
      · cases he; rfl
      · split at he
        · cases he
        · split at he
          · cases he
          · cases he; rfl
    · cases h
  · cases h; rfl

theorem VecReady.checked {s : State} {c : Ctl} (h : VecReady s c) : checkCrew s c .vec = .ok () := by
  have := h.crew
  simp_all [checkCrew, need, State.here]

/-- The bank after a word has entered: `b` with its streams as the operands left them. -/
def enteredBank (b : Bank) (m : VCmd) : Bank :=
  if m.xd = 0 then (b.tlGive 4).nextSeq else { (b.tlGive 4).nextSeq with pendX := b.pendX ++ [m.xd] }

/-- Entering the vector queue, where nothing stands in the way. -/
theorem enterVec_ok {s : State} {c : Ctl} {m : VCmd} (hr : VecReady s c) (hl : (s.core (keyCore s.me)).vq.length < 512)
    {va vb vd : VLoc} {b1 b2 b3 : Bank} (h1 : takeLoc s.here m.va = .ok (va, b1)) (h2 : takeLoc b1 m.vb = .ok (vb, b2))
    (h3 : takeLoc b2 m.vd = .ok (vd, b3)) :
    enterVec s c m = .ok ((s.setBank s.me (enteredBank b3 m)).setCore (keyCore s.me)
      { s.core (keyCore s.me) with vq := (s.core (keyCore s.me)).vq ++ [{ m with
          va := va, vb := vb, vd := vd, bank := s.me, uid := s.here.uid.getD 0, ctl := c, tl := s.here.tlNext 4,
          seq := s.here.seq, seed := ((s.myLaunch s.me).map (·.seed)).getD 0 }] }) := by
  have hg := hr.going
  have hf := hr.flowing
  simp only [State.here] at *
  simp [enterVec, hg, hf, trapStopped, trapStream, h1, h2, h3, need, hl, bind, Except.bind, pure, Except.pure, enteredBank,
    Bank.nextSeq, Bank.tlGive]

/-- A word whose operands its builder accepts enters the vector queue. -/
theorem entersVec_of {i : Instr} {s : State} {c : Ctl} {m : VCmd} {build : Bank → Except Stop VCmd} (hr : VecReady s c)
    (hi : exec i s = issueVec c s build) (hb : build s.here = .ok m) : EntersVec i s c m := by
  intro hl va vb vd b1 b2 b3 h1 h2 h3
  have hb3 : b3 = { s.here with streams := b3.streams } := by
    rw [takeLoc_ok h3, takeLoc_ok h2, takeLoc_ok h1]
  have he := enterVec_ok hr hl h1 h2 h3
  have hx : exec i s = .next (((s.setBank s.me (enteredBank b3 m)).setCore (keyCore s.me)
      { s.core (keyCore s.me) with vq := (s.core (keyCore s.me)).vq ++ [{ m with
          va := va, vb := vb, vd := vd, bank := s.me, uid := s.here.uid.getD 0, ctl := c, tl := s.here.tlNext 4,
          seq := s.here.seq, seed := ((s.myLaunch s.me).map (·.seed)).getD 0 }] }).modBank s.me
        fun b => b.pass ((s.bank s.me).pc + w64 8)) := by
    rw [hi]
    unfold issueVec perform
    simp only [State.here] at hb
    simp only [hr.checked, hb, he, bind, Except.bind]
  clear he hb hi h1 h2 h3
  generalize b3.streams = S at hb3 ⊢
  subst hb3
  refine ⟨_, hx, ?_, ?_, ?_, ?_, ⟨?_, ?_, ⟨?_, ?_, ?_⟩, ⟨?_, ?_, ?_, ?_, ?_⟩, ?_, ?_, ?_, ?_⟩⟩
  · simp
  · simp only [State.bank_modBank_same, State.bank_setCore, State.bank_setBank_same, enteredBank]
    split <;> simp [Bank.pass, Bank.nextSeq, Bank.tlGive, Bank.tlNext, Bank.timeline, State.here]
  all_goals first
    | rfl
    | exact sameMem_of_eq rfl
    | (intro k hk; rw [State.bank_modBank_ne _ _ hk, State.bank_setCore, State.bank_setBank_ne _ _ hk])
    | (intro k hk; rw [State.core_modBank, State.core_setCore_ne _ _ hk]; rfl)
    | (simp only [State.bank_modBank_same, State.bank_setCore, State.bank_setBank_same, enteredBank]
       split <;> rfl)

end Sys2Proof.Machine
end

