-- ==== Sys2Proof/Laws/PerInstr.lean ====
section
/-!
SUPPORT. Laws/PerInstr.lean: the family EncodedLength, one lemma per constructor of Instr: an encoded instruction has the
length that its first parcel announces (R43, R44).
-/

namespace Sys2Proof.Laws

/-- The low seven bits of a word that ends in them. -/
theorem low_append {m : Nat} (x : BitVec m) (y : BitVec 7) : (x ++ y).extractLsb' 0 7 = y := by
  ext i hi
  simp [BitVec.getLsbD_append, hi]

/-- The low bits of the first parcel are those of the word. -/
theorem low_parcel (w : BitVec 64) : (w.extractLsb' 0 32).extractLsb' 0 7 = w.extractLsb' 0 7 := by
  ext i hi
  simp

/-- A first parcel whose low bits are those of a Nuten word. -/
theorem parcelBytes_long (p : BitVec 32) (h : p.extractLsb' 0 7 = 0x3F#7) : parcelBytes p = 8 := by
  have h1 : p.toNat % 128 = 63 := by simpa [BitVec.extractLsb'_toNat] using congrArg BitVec.toNat h
  have a : fld p 0 2 = 3 := by simp [fld, BitVec.extractLsb'_toNat]; omega
  have b : fld p 2 3 = 7 := by simp [fld, BitVec.extractLsb'_toNat, Nat.shiftRight_eq_div_pow]; omega
  have c : fld p 0 6 ≠ 0x1F := by simp [fld, BitVec.extractLsb'_toNat]; omega
  have d : fld p 0 7 = 0x3F := by simp [fld, BitVec.extractLsb'_toNat]; omega
  simp [parcelBytes, parcelLength, a, b, c, d]

/-- A parcel whose bits [4:2] are not all ones is a whole instruction. -/
theorem parcelBytes_short (p : BitVec 32) (h : p.toNat / 4 % 8 ≠ 7) : parcelBytes p = 4 := by
  have h' : fld p 2 3 ≠ 7 := by simpa [fld, BitVec.extractLsb'_toNat, Nat.shiftRight_eq_div_pow] using h
  unfold parcelBytes parcelLength
  split <;> rename_i e <;> split at e <;> simp_all

/-- The same by the low seven bits. -/
theorem parcelBytes_low {m : Nat} (x : BitVec m) (y : BitVec 7) (p : BitVec 32) (hp : p.toNat = (x ++ y).toNat)
    (h : y.toNat / 4 % 8 ≠ 7) : parcelBytes p = 4 := by
  refine parcelBytes_short p ?_
  have e := congrArg BitVec.toNat (low_append x y)
  simp only [BitVec.extractLsb'_toNat, Nat.shiftRight_zero] at e
  omega

namespace EncodedLength

/-- An encoded instruction is as long as its first parcel says. -/
def Statement (i : Instr) : Prop := ∀ ws, encode i = some ws → 4 * ws.length = parcelBytes (ws.getD 0 0)

/-- A row of the opcode map. -/
theorem nuten {i : Instr} (w : BitVec 64) (h : encodeNuten i = some w) (l : w.extractLsb' 0 7 = 0x3F#7) : Statement i := by
  intro ws e
  simp only [encode, h, Option.some.injEq] at e
  subst e
  exact (parcelBytes_long _ ((low_parcel w).trans l)).symm

/-- A row of RV64. -/
theorem rv {i : Instr} (n : encodeNuten i = none) (h : ∀ p, encodeRv i = some p → parcelBytes p = 4) : Statement i := by
  intro ws e
  simp only [encode, n] at e
  split at e
  · rename_i p hp
    cases e
    exact (h p hp).symm
  · cases e

/-- A row that is no instruction word. -/
theorem absent {i : Instr} (n : encodeNuten i = none) (h : encodeRv i = none) : Statement i :=
  rv n (by simp [h])

theorem hold (c : Ctl) : Statement (.hold c) :=
  nuten _ rfl (low_append _ _)
theorem catchCrew (c : Ctl) (f : FCr) : Statement (.catchCrew c f) :=
  nuten _ rfl (low_append _ _)
theorem easy (c : Ctl) : Statement (.easy c) :=
  nuten _ rfl (low_append _ _)
theorem launch (c : Ctl) (f : FTk) : Statement (.launch c f) :=
  nuten _ rfl (low_append _ _)
theorem spawn (c : Ctl) (f : FTk) : Statement (.spawn c f) :=
  nuten _ rfl (low_append _ _)
theorem join (c : Ctl) (f : FTk) : Statement (.join c f) :=
  nuten _ rfl (low_append _ _)
theorem tail (c : Ctl) (f : FTk) : Statement (.tail c f) :=
  nuten _ rfl (low_append _ _)
theorem setpri (c : Ctl) (f : FTk) : Statement (.setpri c f) :=
  nuten _ rfl (low_append _ _)
theorem eqsendReserveNext (c : Ctl) (f : FTk) : Statement (.eqsendReserveNext c f) :=
  nuten _ rfl (low_append _ _)
theorem eqsendReserve (c : Ctl) (f : FTk) : Statement (.eqsendReserve c f) :=
  nuten _ rfl (low_append _ _)
theorem eqsendPublish (c : Ctl) (f : FTk) : Statement (.eqsendPublish c f) :=
  nuten _ rfl (low_append _ _)
theorem eqsendClose (c : Ctl) (f : FTk) : Statement (.eqsendClose c f) :=
  nuten _ rfl (low_append _ _)
theorem eqrecvTakeNext (c : Ctl) (f : FTk) : Statement (.eqrecvTakeNext c f) :=
  nuten _ rfl (low_append _ _)
theorem eqrecvTake (c : Ctl) (f : FTk) : Statement (.eqrecvTake c f) :=
  nuten _ rfl (low_append _ _)
theorem eqfree (c : Ctl) (f : FTk) : Statement (.eqfree c f) :=
  nuten _ rfl (low_append _ _)
theorem eqinit (c : Ctl) (f : FTk) : Statement (.eqinit c f) :=
  nuten _ rfl (low_append _ _)
theorem widf (c : Ctl) (f : FTk) : Statement (.widf c f) :=
  nuten _ rfl (low_append _ _)
theorem widins (c : Ctl) (f : FTk) : Statement (.widins c f) :=
  nuten _ rfl (low_append _ _)
theorem budget (c : Ctl) (f : FTk) : Statement (.budget c f) :=
  nuten _ rfl (low_append _ _)
theorem draw (c : Ctl) (f : FTk) : Statement (.draw c f) :=
  nuten _ rfl (low_append _ _)
theorem thallow (c : Ctl) (f : FTk) : Statement (.thallow c f) :=
  nuten _ rfl (low_append _ _)
theorem slip (c : Ctl) (f : FTk) : Statement (.slip c f) :=
  nuten _ rfl (low_append _ _)
theorem lerr (c : Ctl) (f : FTk) : Statement (.lerr c f) :=
  nuten _ rfl (low_append _ _)
theorem ntrap (c : Ctl) (f : FSs) : Statement (.ntrap c f) :=
  nuten _ rfl (low_append _ _)
theorem tret (c : Ctl) (f : FSs) : Statement (.tret c f) :=
  nuten _ rfl (low_append _ _)
theorem killLaunch (c : Ctl) (f : FSs) : Statement (.killLaunch c f) :=
  nuten _ rfl (low_append _ _)
theorem killContext (c : Ctl) (f : FSs) : Statement (.killContext c f) :=
  nuten _ rfl (low_append _ _)
theorem quiesce (c : Ctl) (f : FSs) : Statement (.quiesce c f) :=
  nuten _ rfl (low_append _ _)
theorem gate (c : Ctl) (f : FSs) : Statement (.gate c f) :=
  nuten _ rfl (low_append _ _)
theorem wake (c : Ctl) (f : FSs) : Statement (.wake c f) :=
  nuten _ rfl (low_append _ _)
theorem brk (c : Ctl) (f : FSs) : Statement (.brk c f) :=
  nuten _ rfl (low_append _ _)
theorem tlbinvAll (c : Ctl) (f : FSs) : Statement (.tlbinvAll c f) :=
  nuten _ rfl (low_append _ _)
theorem tlbinvRange (c : Ctl) (f : FSs) : Statement (.tlbinvRange c f) :=
  nuten _ rfl (low_append _ _)
theorem fltans (c : Ctl) (f : FSs) : Statement (.fltans c f) :=
  nuten _ rfl (low_append _ _)
theorem vadd (c : Ctl) (f : FVvv) : Statement (.vadd c f) :=
  nuten _ rfl (low_append _ _)
theorem vsub (c : Ctl) (f : FVvv) : Statement (.vsub c f) :=
  nuten _ rfl (low_append _ _)
theorem vmul (c : Ctl) (f : FVvv) : Statement (.vmul c f) :=
  nuten _ rfl (low_append _ _)
theorem vfma (c : Ctl) (f : FVvv) : Statement (.vfma c f) :=
  nuten _ rfl (low_append _ _)
theorem vfms (c : Ctl) (f : FVvv) : Statement (.vfms c f) :=
  nuten _ rfl (low_append _ _)
theorem vfnma (c : Ctl) (f : FVvv) : Statement (.vfnma c f) :=
  nuten _ rfl (low_append _ _)
theorem vmin (c : Ctl) (f : FVvv) : Statement (.vmin c f) :=
  nuten _ rfl (low_append _ _)
theorem vmax (c : Ctl) (f : FVvv) : Statement (.vmax c f) :=
  nuten _ rfl (low_append _ _)
theorem vdiv (c : Ctl) (f : FVvv) : Statement (.vdiv c f) :=
  nuten _ rfl (low_append _ _)
theorem vamin (c : Ctl) (f : FVvv) : Statement (.vamin c f) :=
  nuten _ rfl (low_append _ _)
theorem vamax (c : Ctl) (f : FVvv) : Statement (.vamax c f) :=
  nuten _ rfl (low_append _ _)
theorem vsadd (c : Ctl) (f : FVvv) : Statement (.vsadd c f) :=
  nuten _ rfl (low_append _ _)
theorem vssub (c : Ctl) (f : FVvv) : Statement (.vssub c f) :=
  nuten _ rfl (low_append _ _)
theorem vmulh (c : Ctl) (f : FVvv) : Statement (.vmulh c f) :=
  nuten _ rfl (low_append _ _)
theorem vdot2 (c : Ctl) (f : FVvv) : Statement (.vdot2 c f) :=
  nuten _ rfl (low_append _ _)
theorem vdot4 (c : Ctl) (f : FVvv) : Statement (.vdot4 c f) :=
  nuten _ rfl (low_append _ _)
theorem vand (c : Ctl) (f : FVvv) : Statement (.vand c f) :=
  nuten _ rfl (low_append _ _)
theorem vor (c : Ctl) (f : FVvv) : Statement (.vor c f) :=
  nuten _ rfl (low_append _ _)
theorem vxor (c : Ctl) (f : FVvv) : Statement (.vxor c f) :=
  nuten _ rfl (low_append _ _)
theorem vandn (c : Ctl) (f : FVvv) : Statement (.vandn c f) :=
  nuten _ rfl (low_append _ _)
theorem vsll (c : Ctl) (f : FVvv) : Statement (.vsll c f) :=
  nuten _ rfl (low_append _ _)
theorem vsrl (c : Ctl) (f : FVvv) : Statement (.vsrl c f) :=
  nuten _ rfl (low_append _ _)
theorem vsra (c : Ctl) (f : FVvv) : Statement (.vsra c f) :=
  nuten _ rfl (low_append _ _)
theorem vsel (c : Ctl) (f : FVvv) : Statement (.vsel c f) :=
  nuten _ rfl (low_append _ _)
theorem vaddi (c : Ctl) (f : FVvi) : Statement (.vaddi c f) :=
  nuten _ rfl (low_append _ _)
theorem vmini (c : Ctl) (f : FVvi) : Statement (.vmini c f) :=
  nuten _ rfl (low_append _ _)
theorem vmaxi (c : Ctl) (f : FVvi) : Statement (.vmaxi c f) :=
  nuten _ rfl (low_append _ _)
theorem vandi (c : Ctl) (f : FVvi) : Statement (.vandi c f) :=
  nuten _ rfl (low_append _ _)
theorem vxori (c : Ctl) (f : FVvi) : Statement (.vxori c f) :=
  nuten _ rfl (low_append _ _)
theorem vslli (c : Ctl) (f : FVvi) : Statement (.vslli c f) :=
  nuten _ rfl (low_append _ _)
theorem vsrli (c : Ctl) (f : FVvi) : Statement (.vsrli c f) :=
  nuten _ rfl (low_append _ _)
theorem vsrai (c : Ctl) (f : FVvi) : Statement (.vsrai c f) :=
  nuten _ rfl (low_append _ _)
theorem vaddx (c : Ctl) (f : FVvx) : Statement (.vaddx c f) :=
  nuten _ rfl (low_append _ _)
theorem vsubx (c : Ctl) (f : FVvx) : Statement (.vsubx c f) :=
  nuten _ rfl (low_append _ _)
theorem vmulx (c : Ctl) (f : FVvx) : Statement (.vmulx c f) :=
  nuten _ rfl (low_append _ _)
theorem vfmax (c : Ctl) (f : FVvx) : Statement (.vfmax c f) :=
  nuten _ rfl (low_append _ _)
theorem vminx (c : Ctl) (f : FVvx) : Statement (.vminx c f) :=
  nuten _ rfl (low_append _ _)
theorem vmaxx (c : Ctl) (f : FVvx) : Statement (.vmaxx c f) :=
  nuten _ rfl (low_append _ _)
theorem vbcast (c : Ctl) (f : FVvx) : Statement (.vbcast c f) :=
  nuten _ rfl (low_append _ _)
theorem vscalex (c : Ctl) (f : FVvx) : Statement (.vscalex c f) :=
  nuten _ rfl (low_append _ _)
theorem vfn (c : Ctl) (f : FVrd) : Statement (.vfn c f) :=
  nuten _ rfl (low_append _ _)
theorem vneg (c : Ctl) (f : FVrd) : Statement (.vneg c f) :=
  nuten _ rfl (low_append _ _)
theorem vabs (c : Ctl) (f : FVrd) : Statement (.vabs c f) :=
  nuten _ rfl (low_append _ _)
theorem vclass (c : Ctl) (f : FVrd) : Statement (.vclass c f) :=
  nuten _ rfl (low_append _ _)
theorem vbits (c : Ctl) (f : FVrd) : Statement (.vbits c f) :=
  nuten _ rfl (low_append _ _)
theorem vcvt (c : Ctl) (f : FVcv) : Statement (.vcvt c f) :=
  nuten _ rfl (low_append _ _)
theorem vrint (c : Ctl) (f : FVcv) : Statement (.vrint c f) :=
  nuten _ rfl (low_append _ _)
theorem vrsum (c : Ctl) (f : FVrd) : Statement (.vrsum c f) :=
  nuten _ rfl (low_append _ _)
theorem vrmax (c : Ctl) (f : FVrd) : Statement (.vrmax c f) :=
  nuten _ rfl (low_append _ _)
theorem vrmin (c : Ctl) (f : FVrd) : Statement (.vrmin c f) :=
  nuten _ rfl (low_append _ _)
theorem vramax (c : Ctl) (f : FVrd) : Statement (.vramax c f) :=
  nuten _ rfl (low_append _ _)
theorem vscan (c : Ctl) (f : FVrd) : Statement (.vscan c f) :=
  nuten _ rfl (low_append _ _)
theorem vcmp (c : Ctl) (f : FPvv) : Statement (.vcmp c f) :=
  nuten _ rfl (low_append _ _)
theorem vld (c : Ctl) (f : FVma) : Statement (.vld c f) :=
  nuten _ rfl (low_append _ _)
theorem vst (c : Ctl) (f : FVma) : Statement (.vst c f) :=
  nuten _ rfl (low_append _ _)
theorem vgath (c : Ctl) (f : FVg) : Statement (.vgath c f) :=
  nuten _ rfl (low_append _ _)
theorem vscat (c : Ctl) (f : FVg) : Statement (.vscat c f) :=
  nuten _ rfl (low_append _ _)
theorem vscadd (c : Ctl) (f : FVg) : Statement (.vscadd c f) :=
  nuten _ rfl (low_append _ _)
theorem rqrel (c : Ctl) (f : FPxf) : Statement (.rqrel c f) :=
  nuten _ rfl (low_append _ _)
theorem rqstat (c : Ctl) (f : FPxf) : Statement (.rqstat c f) :=
  nuten _ rfl (low_append _ _)
theorem vmov (c : Ctl) (f : FVrd) : Statement (.vmov c f) :=
  nuten _ rfl (low_append _ _)
theorem vperm (c : Ctl) (f : FVvv) : Statement (.vperm c f) :=
  nuten _ rfl (low_append _ _)
theorem vrev (c : Ctl) (f : FVrd) : Statement (.vrev c f) :=
  nuten _ rfl (low_append _ _)
theorem vzip (c : Ctl) (f : FVvv) : Statement (.vzip c f) :=
  nuten _ rfl (low_append _ _)
theorem vunzip (c : Ctl) (f : FVvv) : Statement (.vunzip c f) :=
  nuten _ rfl (low_append _ _)
theorem vtrn (c : Ctl) (f : FVvv) : Statement (.vtrn c f) :=
  nuten _ rfl (low_append _ _)
theorem vslide (c : Ctl) (f : FVvi) : Statement (.vslide c f) :=
  nuten _ rfl (low_append _ _)
theorem vrotl (c : Ctl) (f : FVvi) : Statement (.vrotl c f) :=
  nuten _ rfl (low_append _ _)
theorem vbcl (c : Ctl) (f : FVvi) : Statement (.vbcl c f) :=
  nuten _ rfl (low_append _ _)
theorem plog (c : Ctl) (f : FPpp) : Statement (.plog c f) :=
  nuten _ rfl (low_append _ _)
theorem pcnt (c : Ctl) (f : FPxf) : Statement (.pcnt c f) :=
  nuten _ rfl (low_append _ _)
theorem pfirst (c : Ctl) (f : FPxf) : Statement (.pfirst c f) :=
  nuten _ rfl (low_append _ _)
theorem pfromx (c : Ctl) (f : FPxf) : Statement (.pfromx c f) :=
  nuten _ rfl (low_append _ _)
theorem ptox (c : Ctl) (f : FPxf) : Statement (.ptox c f) :=
  nuten _ rfl (low_append _ _)
theorem pwhile (c : Ctl) (f : FPxf) : Statement (.pwhile c f) :=
  nuten _ rfl (low_append _ _)
theorem loopb (c : Ctl) (f : FBr) : Statement (.loopb c f) :=
  nuten _ rfl (low_append _ _)
theorem vresume (c : Ctl) : Statement (.vresume c) :=
  nuten _ rfl (low_append _ _)
theorem mmaE4m3 (c : Ctl) (f : FMt) : Statement (.mmaE4m3 c f) :=
  nuten _ rfl (low_append _ _)
theorem mmaE5m2 (c : Ctl) (f : FMt) : Statement (.mmaE5m2 c f) :=
  nuten _ rfl (low_append _ _)
theorem mmaInt8 (c : Ctl) (f : FMt) : Statement (.mmaInt8 c f) :=
  nuten _ rfl (low_append _ _)
theorem mmaBf16 (c : Ctl) (f : FMt) : Statement (.mmaBf16 c f) :=
  nuten _ rfl (low_append _ _)
theorem mmaFp16 (c : Ctl) (f : FMt) : Statement (.mmaFp16 c f) :=
  nuten _ rfl (low_append _ _)
theorem mmaMxfp8 (c : Ctl) (f : FMt) : Statement (.mmaMxfp8 c f) :=
  nuten _ rfl (low_append _ _)
theorem mmaMxfp6 (c : Ctl) (f : FMt) : Statement (.mmaMxfp6 c f) :=
  nuten _ rfl (low_append _ _)
theorem mmaMxfp4 (c : Ctl) (f : FMt) : Statement (.mmaMxfp4 c f) :=
  nuten _ rfl (low_append _ _)
theorem mmaMxint8 (c : Ctl) (f : FMt) : Statement (.mmaMxint8 c f) :=
  nuten _ rfl (low_append _ _)
theorem mmaTern (c : Ctl) (f : FMt) : Statement (.mmaTern c f) :=
  nuten _ rfl (low_append _ _)
theorem mclaim (c : Ctl) (f : FMs) : Statement (.mclaim c f) :=
  nuten _ rfl (low_append _ _)
theorem mrel (c : Ctl) (f : FMs) : Statement (.mrel c f) :=
  nuten _ rfl (low_append _ _)
theorem mload (c : Ctl) (f : FMs) : Statement (.mload c f) :=
  nuten _ rfl (low_append _ _)
theorem mzero (c : Ctl) (f : FMs) : Statement (.mzero c f) :=
  nuten _ rfl (low_append _ _)
theorem mresume (c : Ctl) : Statement (.mresume c) :=
  nuten _ rfl (low_append _ _)
theorem astore (c : Ctl) (f : FAs) : Statement (.astore c f) :=
  nuten _ rfl (low_append _ _)
theorem astoreT (c : Ctl) (f : FAs) : Statement (.astoreT c f) :=
  nuten _ rfl (low_append _ _)
theorem aclr (c : Ctl) (f : FAs) : Statement (.aclr c f) :=
  nuten _ rfl (low_append _ _)
theorem aload (c : Ctl) (f : FAs) : Statement (.aload c f) :=
  nuten _ rfl (low_append _ _)
theorem copy (c : Ctl) (f : FCp) : Statement (.copy c f) :=
  nuten _ rfl (low_append _ _)
theorem binscat (c : Ctl) (f : FCp) : Statement (.binscat c f) :=
  nuten _ rfl (low_append _ _)
theorem migrate (c : Ctl) (f : FCp) : Statement (.migrate c f) :=
  nuten _ rfl (low_append _ _)
theorem cresume (c : Ctl) (f : FCp) : Statement (.cresume c f) :=
  nuten _ rfl (low_append _ _)
theorem cstatTl (c : Ctl) (f : FCp) : Statement (.cstatTl c f) :=
  nuten _ rfl (low_append _ _)
theorem cstatStatus (c : Ctl) (f : FCp) : Statement (.cstatStatus c f) :=
  nuten _ rfl (low_append _ _)
theorem binset (c : Ctl) (f : FCp) : Statement (.binset c f) :=
  nuten _ rfl (low_append _ _)
theorem bindrop (c : Ctl) (f : FCp) : Statement (.bindrop c f) :=
  nuten _ rfl (low_append _ _)
theorem sbind (c : Ctl) (f : FSb) : Statement (.sbind c f) :=
  nuten _ rfl (low_append _ _)
theorem sunbind (c : Ctl) (f : FSb) : Statement (.sunbind c f) :=
  nuten _ rfl (low_append _ _)
theorem sflush (c : Ctl) (f : FSb) : Statement (.sflush c f) :=
  nuten _ rfl (low_append _ _)
theorem sskip (c : Ctl) (f : FSb) : Statement (.sskip c f) :=
  nuten _ rfl (low_append _ _)
theorem smaxr (c : Ctl) (f : FSb) : Statement (.smaxr c f) :=
  nuten _ rfl (low_append _ _)
theorem smaxc (c : Ctl) (f : FSb) : Statement (.smaxc c f) :=
  nuten _ rfl (low_append _ _)
theorem sstat (c : Ctl) (f : FSb) : Statement (.sstat c f) :=
  nuten _ rfl (low_append _ _)
theorem sptest (c : Ctl) (f : FSb) : Statement (.sptest c f) :=
  nuten _ rfl (low_append _ _)
theorem spcast (c : Ctl) (f : FSb) : Statement (.spcast c f) :=
  nuten _ rfl (low_append _ _)
theorem grpsetWrite (c : Ctl) (f : FGr) : Statement (.grpsetWrite c f) :=
  nuten _ rfl (low_append _ _)
theorem grpsetClaim (c : Ctl) (f : FGr) : Statement (.grpsetClaim c f) :=
  nuten _ rfl (low_append _ _)
theorem grpsetRelease (c : Ctl) (f : FGr) : Statement (.grpsetRelease c f) :=
  nuten _ rfl (low_append _ _)
theorem grpgetStore (c : Ctl) (f : FGr) : Statement (.grpgetStore c f) :=
  nuten _ rfl (low_append _ _)
theorem grpgetWord (c : Ctl) (f : FGr) : Statement (.grpgetWord c f) :=
  nuten _ rfl (low_append _ _)
theorem allred (c : Ctl) (f : FGr) : Statement (.allred c f) :=
  nuten _ rfl (low_append _ _)
theorem redsc (c : Ctl) (f : FGr) : Statement (.redsc c f) :=
  nuten _ rfl (low_append _ _)
theorem allgat (c : Ctl) (f : FGr) : Statement (.allgat c f) :=
  nuten _ rfl (low_append _ _)
theorem bcast (c : Ctl) (f : FGr) : Statement (.bcast c f) :=
  nuten _ rfl (low_append _ _)
theorem owrite (c : Ctl) (f : FGr) : Statement (.owrite c f) :=
  nuten _ rfl (low_append _ _)
theorem owred (c : Ctl) (f : FGr) : Statement (.owred c f) :=
  nuten _ rfl (low_append _ _)
theorem qparm (c : Ctl) (f : FGr) : Statement (.qparm c f) :=
  nuten _ rfl (low_append _ _)
theorem rndwait (c : Ctl) (f : FGr) : Statement (.rndwait c f) :=
  nuten _ rfl (low_append _ _)
theorem slackr (c : Ctl) (f : FGr) : Statement (.slackr c f) :=
  nuten _ rfl (low_append _ _)
theorem kresume (c : Ctl) (f : FGr) : Statement (.kresume c f) :=
  nuten _ rfl (low_append _ _)
theorem fenceSc (c : Ctl) (f : FSc) : Statement (.fenceSc c f) :=
  nuten _ rfl (low_append _ _)
theorem fenceRel (c : Ctl) (f : FSc) : Statement (.fenceRel c f) :=
  nuten _ rfl (low_append _ _)
theorem fenceAcq (c : Ctl) (f : FSc) : Statement (.fenceAcq c f) :=
  nuten _ rfl (low_append _ _)
theorem pfence (c : Ctl) (f : FSc) : Statement (.pfence c f) :=
  nuten _ rfl (low_append _ _)
theorem efence (c : Ctl) (f : FSc) : Statement (.efence c f) :=
  nuten _ rfl (low_append _ _)
theorem vouch (c : Ctl) (f : FSc) : Statement (.vouch c f) :=
  nuten _ rfl (low_append _ _)
theorem waittl (c : Ctl) (f : FTl) : Statement (.waittl c f) :=
  nuten _ rfl (low_append _ _)
theorem tlread (c : Ctl) (f : FTl) : Statement (.tlread c f) :=
  nuten _ rfl (low_append _ _)
theorem semLd (c : Ctl) (f : FSm) : Statement (.semLd c f) :=
  nuten _ rfl (low_append _ _)
theorem semSt (c : Ctl) (f : FSm) : Statement (.semSt c f) :=
  nuten _ rfl (low_append _ _)
theorem semAdd (c : Ctl) (f : FSm) : Statement (.semAdd c f) :=
  nuten _ rfl (low_append _ _)
theorem semCas (c : Ctl) (f : FSm) : Statement (.semCas c f) :=
  nuten _ rfl (low_append _ _)
theorem semMax (c : Ctl) (f : FSm) : Statement (.semMax c f) :=
  nuten _ rfl (low_append _ _)
theorem semSwap (c : Ctl) (f : FSm) : Statement (.semSwap c f) :=
  nuten _ rfl (low_append _ _)
theorem semWait (c : Ctl) (f : FSm) : Statement (.semWait c f) :=
  nuten _ rfl (low_append _ _)
theorem bump (c : Ctl) (f : FSm) : Statement (.bump c f) :=
  nuten _ rfl (low_append _ _)
theorem ldacq (c : Ctl) (f : FMa) : Statement (.ldacq c f) :=
  nuten _ rfl (low_append _ _)
theorem strel (c : Ctl) (f : FMa) : Statement (.strel c f) :=
  nuten _ rfl (low_append _ _)
theorem illegalInstruction (r : Reject) : Statement (.illegalInstruction r) :=
  absent rfl rfl
theorem rv64Load (op : LoadOp) (rd rs1 : BitVec 5) (imm : BitVec 12) : Statement (.rv64Load op rd rs1 imm) :=
  rv rfl (by rintro p ⟨⟩; exact parcelBytes_low _ _ _ rfl (by decide))
theorem rv64Store (op : StoreOp) (rs1 rs2 : BitVec 5) (imm : BitVec 12) : Statement (.rv64Store op rs1 rs2 imm) :=
  rv rfl (by rintro p ⟨⟩; exact parcelBytes_low _ _ _ rfl (by decide))
theorem amo (op : AmoOp) (dbl aq rl : Bool) (rd rs1 rs2 : BitVec 5) : Statement (.amo op dbl aq rl rd rs1 rs2) :=
  rv rfl (by rintro p ⟨⟩; exact parcelBytes_low _ _ _ rfl (by decide))
theorem lr (dbl aq rl : Bool) (rd rs1 : BitVec 5) : Statement (.lr dbl aq rl rd rs1) :=
  rv rfl (by rintro p ⟨⟩; exact parcelBytes_low _ _ _ rfl (by decide))
theorem sc (dbl aq rl : Bool) (rd rs1 rs2 : BitVec 5) : Statement (.sc dbl aq rl rd rs1 rs2) :=
  rv rfl (by rintro p ⟨⟩; exact parcelBytes_low _ _ _ rfl (by decide))
theorem rvFence (fm pred succ : BitVec 4) (rd rs1 : BitVec 5) : Statement (.rvFence fm pred succ rd rs1) :=
  rv rfl (by rintro p ⟨⟩; exact parcelBytes_low _ _ _ rfl (by decide))
theorem fenceI (rd rs1 : BitVec 5) (imm : BitVec 12) : Statement (.fenceI rd rs1 imm) :=
  rv rfl (by rintro p ⟨⟩; exact parcelBytes_low _ _ _ rfl (by decide))
theorem csrrw (rd : BitVec 5) (csr : BitVec 12) (rs1 : BitVec 5) : Statement (.csrrw rd csr rs1) :=
  rv rfl (by rintro p ⟨⟩; exact parcelBytes_low _ _ _ rfl (by decide))
theorem csrrs (rd : BitVec 5) (csr : BitVec 12) (rs1 : BitVec 5) : Statement (.csrrs rd csr rs1) :=
  rv rfl (by rintro p ⟨⟩; exact parcelBytes_low _ _ _ rfl (by decide))
theorem csrrc (rd : BitVec 5) (csr : BitVec 12) (rs1 : BitVec 5) : Statement (.csrrc rd csr rs1) :=
  rv rfl (by rintro p ⟨⟩; exact parcelBytes_low _ _ _ rfl (by decide))
theorem csrrwi (rd : BitVec 5) (csr : BitVec 12) (uimm : BitVec 5) : Statement (.csrrwi rd csr uimm) :=
  rv rfl (by rintro p ⟨⟩; exact parcelBytes_low _ _ _ rfl (by decide))
theorem csrrsi (rd : BitVec 5) (csr : BitVec 12) (uimm : BitVec 5) : Statement (.csrrsi rd csr uimm) :=
  rv rfl (by rintro p ⟨⟩; exact parcelBytes_low _ _ _ rfl (by decide))
theorem csrrci (rd : BitVec 5) (csr : BitVec 12) (uimm : BitVec 5) : Statement (.csrrci rd csr uimm) :=
  rv rfl (by rintro p ⟨⟩; exact parcelBytes_low _ _ _ rfl (by decide))
theorem rv64Instruction (op : RvOp) : Statement (.rv64Instruction op) :=
  rv rfl <| by
  rintro p ⟨⟩
  cases op <;> (first | (rename_i o _ _ _; cases o) | (rename_i o _ _; cases o) | skip) <;> exact parcelBytes_low _ _ _ rfl (by decide)
theorem engineIssue (core : Nat) (q : Queue) : Statement (.engineIssue core q) :=
  absent rfl rfl
theorem vectorIssue (core : Nat) : Statement (.vectorIssue core) :=
  absent rfl rfl
theorem vectorCompletion (core bank : Nat) : Statement (.vectorCompletion core bank) :=
  absent rfl rfl
theorem trapDelivery (core bank : Nat) : Statement (.trapDelivery core bank) :=
  absent rfl rfl
theorem entryArrival (core bank sn : Nat) : Statement (.entryArrival core bank sn) :=
  absent rfl rfl
theorem outputDrain (core bank sn : Nat) : Statement (.outputDrain core bank sn) :=
  absent rfl rfl
theorem copyStart (core tu : Nat) : Statement (.copyStart core tu) :=
  absent rfl rfl
theorem copyIteration (core tu : Nat) : Statement (.copyIteration core tu) :=
  absent rfl rfl
theorem copyCompletion (core tu : Nat) : Statement (.copyCompletion core tu) :=
  absent rfl rfl
theorem binscatToken (core tu : Nat) : Statement (.binscatToken core tu) :=
  absent rfl rfl
theorem pageMove (n : Nat) : Statement (.pageMove n) :=
  absent rfl rfl
theorem migrateCompletion (n : Nat) : Statement (.migrateCompletion n) :=
  absent rfl rfl
theorem tileSchedulerStart (core : Nat) : Statement (.tileSchedulerStart core) :=
  absent rfl rfl
theorem mclaimPerformed (core bank : Nat) : Statement (.mclaimPerformed core bank) :=
  absent rfl rfl
theorem mloadLine (core bank : Nat) : Statement (.mloadLine core bank) :=
  absent rfl rfl
theorem astoreEntry (core bank : Nat) : Statement (.astoreEntry core bank) :=
  absent rfl rfl
theorem aloadEntry (core bank : Nat) : Statement (.aloadEntry core bank) :=
  absent rfl rfl
theorem puntyMark (core array : Nat) : Statement (.puntyMark core array) :=
  absent rfl rfl
theorem matrixCompletion (core bank : Nat) : Statement (.matrixCompletion core bank) :=
  absent rfl rfl
theorem matrixDeadlockPreemption (core : Nat) : Statement (.matrixDeadlockPreemption core) :=
  absent rfl rfl
theorem pop (core bank : Nat) : Statement (.pop core bank) :=
  absent rfl rfl
theorem imageLoaded (core bank : Nat) : Statement (.imageLoaded core bank) :=
  absent rfl rfl
theorem park (core bank : Nat) : Statement (.park core bank) :=
  absent rfl rfl
theorem waitConditionMet (core bank : Nat) : Statement (.waitConditionMet core bank) :=
  absent rfl rfl
theorem eviction (core bank : Nat) : Statement (.eviction core bank) :=
  absent rfl rfl
theorem preEmption (core bank : Nat) : Statement (.preEmption core bank) :=
  absent rfl rfl
theorem imageSaved (core bank : Nat) : Statement (.imageSaved core bank) :=
  absent rfl rfl
theorem ageStep (uid : Nat) : Statement (.ageStep uid) :=
  absent rfl rfl
theorem retirement (core : Nat) : Statement (.retirement core) :=
  absent rfl rfl
theorem preload (core bank : Nat) : Statement (.preload core bank) :=
  absent rfl rfl
theorem budgetEnd (ctx slot : Nat) : Statement (.budgetEnd ctx slot) :=
  absent rfl rfl
theorem controlFormPerformed (core : Nat) : Statement (.controlFormPerformed core) :=
  absent rfl rfl
theorem contributionSend (core bank ch : Nat) : Statement (.contributionSend core bank ch) :=
  absent rfl rfl
theorem contributionArrival (n : Nat) : Statement (.contributionArrival n) :=
  absent rfl rfl
theorem roundReduction (group tag : Nat) : Statement (.roundReduction group tag) :=
  absent rfl rfl
theorem resultDelivery (group tag rank : Nat) : Statement (.resultDelivery group tag rank) :=
  absent rfl rfl
theorem closeNotice (n : Nat) : Statement (.closeNotice n) :=
  absent rfl rfl
theorem workEntryFire (core bank ch : Nat) : Statement (.workEntryFire core bank ch) :=
  absent rfl rfl
theorem workEntryComplete (core bank ch : Nat) : Statement (.workEntryComplete core bank ch) :=
  absent rfl rfl
theorem replayReady (core bank : Nat) : Statement (.replayReady core bank) :=
  absent rfl rfl
theorem gatedResponse (n : Nat) : Statement (.gatedResponse n) :=
  absent rfl rfl
theorem remoteResend (n : Nat) : Statement (.remoteResend n) :=
  absent rfl rfl
theorem automaticWake (core : Nat) : Statement (.automaticWake core) :=
  absent rfl rfl
theorem qtlReached (ctx : Nat) : Statement (.qtlReached ctx) :=
  absent rfl rfl
theorem sealComplete (core : Nat) : Statement (.sealComplete core) :=
  absent rfl rfl
theorem resumption (core : Nat) : Statement (.resumption core) :=
  absent rfl rfl
theorem thermalMove (core : Nat) : Statement (.thermalMove core) :=
  absent rfl rfl
theorem rotateDeadline (core : Nat) : Statement (.rotateDeadline core) :=
  absent rfl rfl
theorem rotationSlice (phys : Nat) : Statement (.rotationSlice phys) :=
  absent rfl rfl
theorem droopHalving (quad : Nat) : Statement (.droopHalving quad) :=
  absent rfl rfl
theorem droopRestore (quad : Nat) : Statement (.droopRestore quad) :=
  absent rfl rfl
theorem hbmRefresh (stack : Nat) : Statement (.hbmRefresh stack) :=
  absent rfl rfl
theorem refreshEnd (stack : Nat) : Statement (.refreshEnd stack) :=
  absent rfl rfl
theorem uncorrectableError (uid : Nat) (va : BitVec 64) (write : Bool) : Statement (.uncorrectableError uid va write) :=
  absent rfl rfl
theorem watchdog (core : Nat) (eng : Engine) : Statement (.watchdog core eng) :=
  absent rfl rfl
theorem parityAlarm (core : Nat) (eng : Engine) : Statement (.parityAlarm core eng) :=
  absent rfl rfl
theorem protocolAlarm (core : Nat) (eng : Engine) : Statement (.protocolAlarm core eng) :=
  absent rfl rfl
theorem vectorEngineReset (core : Nat) : Statement (.vectorEngineReset core) :=
  absent rfl rfl
theorem matrixEngineReset (core : Nat) : Statement (.matrixEngineReset core) :=
  absent rfl rfl
theorem copyEngineReset (core : Nat) : Statement (.copyEngineReset core) :=
  absent rfl rfl
theorem portProcessorReset (port : Nat) : Statement (.portProcessorReset port) :=
  absent rfl rfl
theorem coreReset (core : Nat) : Statement (.coreReset core) :=
  absent rfl rfl
theorem dieReset (die : Nat) : Statement (.dieReset die) :=
  absent rfl rfl
theorem computeDomainLoss (quad : Nat) : Statement (.computeDomainLoss quad) :=
  absent rfl rfl
theorem lehrDomainLoss (quad : Nat) : Statement (.lehrDomainLoss quad) :=
  absent rfl rfl
theorem lehrPowerReturn (quad : Nat) : Statement (.lehrPowerReturn quad) :=
  absent rfl rfl
theorem scan (passed : Bool) : Statement (.scan passed) :=
  absent rfl rfl
theorem checkModeCompletion (phys n : Nat) (other : Nat) (sig : BitVec 64) : Statement (.checkModeCompletion phys n other sig) :=
  absent rfl rfl
theorem cstateConfigure (ctx : Nat) : Statement (.cstateConfigure ctx) :=
  absent rfl rfl
theorem cstateRun (ctx : Nat) : Statement (.cstateRun ctx) :=
  absent rfl rfl
theorem cstateFree (ctx : Nat) : Statement (.cstateFree ctx) :=
  absent rfl rfl
theorem cstateKill (ctx : Nat) : Statement (.cstateKill ctx) :=
  absent rfl rfl
theorem cgrant (ctx : Nat) (value : BitVec 64) : Statement (.cgrant ctx value) :=
  absent rfl rfl
theorem launchDoorbell (ctx : Nat) (value : BitVec 64) : Statement (.launchDoorbell ctx value) :=
  absent rfl rfl
theorem lbud (ctx : Nat) (value : BitVec 64) : Statement (.lbud ctx value) :=
  absent rfl rfl
theorem killl (ctx : Nat) (value : BitVec 64) : Statement (.killl ctx value) :=
  absent rfl rfl
theorem killc (ctx : Nat) (value : BitVec 64) : Statement (.killc ctx value) :=
  absent rfl rfl
theorem hans (ctx : Nat) (value : BitVec 64) : Statement (.hans ctx value) :=
  absent rfl rfl
theorem fansRetry (ctx : Nat) (tag : BitVec 32) : Statement (.fansRetry ctx tag) :=
  absent rfl rfl
theorem fansDeny (ctx : Nat) (tag : BitVec 32) : Statement (.fansDeny ctx tag) :=
  absent rfl rfl
theorem semd (ctx : Nat) (value : BitVec 64) : Statement (.semd ctx value) :=
  absent rfl rfl
theorem registerWrite (block : RegBlock) (off : Nat) (value : BitVec 64) : Statement (.registerWrite block off value) :=
  absent rfl rfl
theorem fwgo (value : BitVec 64) : Statement (.fwgo value) :=
  absent rfl rfl
theorem firmwareVerification (img : List (BitVec 8)) : Statement (.firmwareVerification img) :=
  absent rfl rfl
theorem schfw (value : BitVec 64) : Statement (.schfw value) :=
  absent rfl rfl
theorem partcfg (value : BitVec 64) : Statement (.partcfg value) :=
  absent rfl rfl
theorem preset (value : BitVec 64) : Statement (.preset value) :=
  absent rfl rfl
theorem ismelInitialisation (failed : List Nat) : Statement (.ismelInitialisation failed) :=
  absent rfl rfl
theorem hostRead (part addr len : Nat) : Statement (.hostRead part addr len) :=
  absent rfl rfl
theorem hostWrite (part addr : Nat) (bytes : List (BitVec 8)) : Statement (.hostWrite part addr bytes) :=
  absent rfl rfl
theorem linkRetrain (full : Bool) : Statement (.linkRetrain full) :=
  absent rfl rfl
theorem portTraining (port lanes : Nat) : Statement (.portTraining port lanes) :=
  absent rfl rfl
theorem flitReplay (port : Nat) : Statement (.flitReplay port) :=
  absent rfl rfl
theorem quadrantThermalPowerDown (quad : Nat) : Statement (.quadrantThermalPowerDown quad) :=
  absent rfl rfl
theorem quadrantThermalResume (quad : Nat) : Statement (.quadrantThermalResume quad) :=
  absent rfl rfl
theorem stackOverheatHalving (stack : Nat) : Statement (.stackOverheatHalving stack) :=
  absent rfl rfl
theorem getCertificate (slot offset len : Nat) : Statement (.getCertificate slot offset len) :=
  absent rfl rfl
theorem challenge (slot : Nat) (nonce : List (BitVec 8)) : Statement (.challenge slot nonce) :=
  absent rfl rfl
theorem getMeasurements (index : Nat) (nonce : List (BitVec 8)) : Statement (.getMeasurements index nonce) :=
  absent rfl rfl
theorem vendorDefinedRequest (code : VendorCode) : Statement (.vendorDefinedRequest code) :=
  absent rfl rfl
theorem unsupportedRequest (code : BitVec 8) : Statement (.unsupportedRequest code) :=
  absent rfl rfl
theorem stackOverheatRestore (stack : Nat) : Statement (.stackOverheatRestore stack) :=
  absent rfl rfl
theorem cdatDoeRequest (entry : Nat) : Statement (.cdatDoeRequest entry) :=
  absent rfl rfl
theorem hostCoherenceRequest (addr : Nat) : Statement (.hostCoherenceRequest addr) :=
  absent rfl rfl
theorem ecall : Statement .ecall :=
  rv rfl (by rintro p ⟨⟩; decide)
theorem ebreak : Statement .ebreak :=
  rv rfl (by rintro p ⟨⟩; decide)
theorem budgetTick : Statement .budgetTick :=
  absent rfl rfl
theorem allowanceUpdate : Statement .allowanceUpdate :=
  absent rfl rfl
theorem powerCapHalving : Statement .powerCapHalving :=
  absent rfl rfl
theorem powerCapRestore : Statement .powerCapRestore :=
  absent rfl rfl
theorem semaphoreScrub : Statement .semaphoreScrub :=
  absent rfl rfl
theorem slackPublication : Statement .slackPublication :=
  absent rfl rfl
theorem heldFaultPost : Statement .heldFaultPost :=
  absent rfl rfl
theorem packageReset : Statement .packageReset :=
  absent rfl rfl
theorem rollingReset : Statement .rollingReset :=
  absent rfl rfl
theorem moduleInputLoss : Statement .moduleInputLoss :=
  absent rfl rfl
theorem mpwrPowerDown : Statement .mpwrPowerDown :=
  absent rfl rfl
theorem mpwrWake : Statement .mpwrWake :=
  absent rfl rfl
theorem mpwrShutdown : Statement .mpwrShutdown :=
  absent rfl rfl
theorem boot : Statement .boot :=
  absent rfl rfl
theorem functionLevelReset : Statement .functionLevelReset :=
  absent rfl rfl
theorem conventionalReset : Statement .conventionalReset :=
  absent rfl rfl
theorem linkDown : Statement .linkDown :=
  absent rfl rfl
theorem thermalInputLoss : Statement .thermalInputLoss :=
  absent rfl rfl
theorem getVersion : Statement .getVersion :=
  absent rfl rfl
theorem getCapabilities : Statement .getCapabilities :=
  absent rfl rfl
theorem negotiateAlgorithms : Statement .negotiateAlgorithms :=
  absent rfl rfl
theorem getDigests : Statement .getDigests :=
  absent rfl rfl

end EncodedLength

end Sys2Proof.Laws
end

