-- ==== Sys2Proof/Machine/AsmText.lean ====
section
/-!
DEFINITION. Machine/AsmText.lean: the text of a choash line: its parts, names and registers (R67, R70), numbers and
expressions (R68).
-/

namespace Sys2Proof.Machine

/-- A text. -/
abbrev Txt := List Char

/-- The text of a literal. -/
def tx (s : String) : Txt := s.toList

/-! ### Characters and words (R67) -/

def isLetter (c : Char) : Bool := (decide ('a' ≤ c) && decide (c ≤ 'z')) || (decide ('A' ≤ c) && decide (c ≤ 'Z'))
def isDigit (c : Char) : Bool := decide ('0' ≤ c) && decide (c ≤ '9')
def isBlank (c : Char) : Bool := c == ' ' || c == '\t'
def isWordChar (c : Char) : Bool := isLetter c || isDigit c || c == '_' || c == '.'
def isWordStart (c : Char) : Bool := isLetter c || c == '_' || c == '.'

/-- Blanks at both ends removed. -/
def trimTx (t : Txt) : Txt := ((t.dropWhile isBlank).reverse.dropWhile isBlank).reverse

/-- The parts between the characters `c`. -/
def splitTx (c : Char) : Txt → List Txt
  | [] => [[]]
  | x :: xs =>
    match splitTx c xs with
    | [] => [[x]]
    | p :: ps => if x = c then [] :: p :: ps else (x :: p) :: ps

/-- A line without its comment. -/
def stripComment : Txt → Txt
  | [] => []
  | ';' :: _ => []
  | '/' :: '/' :: _ => []
  | c :: cs => c :: stripComment cs

/-- The parts of a line: its label, its mnemonic or directive, and its operands. -/
structure Line where
  label : Option Txt
  head : Txt
  ops : List Txt
deriving DecidableEq, Repr

/-- What follows a line's label. -/
def lineBody (label : Option Txt) (t : Txt) : Line :=
  let t := t.dropWhile isBlank
  let rest := trimTx (t.dropWhile fun c => !isBlank c)
  ⟨label, t.takeWhile fun c => !isBlank c, if rest.isEmpty then [] else (splitTx ',' rest).map trimTx⟩

/-- A line in its parts. -/
def parseLine (t : Txt) : Line :=
  let t := trimTx (stripComment t)
  let rest := (t.dropWhile isWordChar).dropWhile isBlank
  match t.takeWhile isWordChar, rest with
  | c :: cs, ':' :: r => lineBody (some (c :: cs)) r
  | _, _ => lineBody none t

/-! ### Numbers (R68) -/

/-- The value of a digit, at most 35. -/
def digitVal (c : Char) : Nat :=
  if isDigit c then c.toNat - 48
  else if decide ('a' ≤ c) && decide (c ≤ 'z') then c.toNat - 87
  else if decide ('A' ≤ c) && decide (c ≤ 'Z') then c.toNat - 55
  else 99

/-- Digits of a base, with underscores between them. -/
def digitsOf (base : Nat) (t : Txt) : Option Nat :=
  let ds := t.filter (· != '_')
  if ds.isEmpty || t.head? == some '_' || t.getLast? == some '_' || ds.any (fun c => decide (base ≤ digitVal c)) then none
  else some (ds.foldl (fun n c => base * n + digitVal c) 0)

/-- A number. -/
def numberOfTx : Txt → Option Nat
  | '0' :: 'x' :: t => digitsOf 16 t
  | '0' :: 'b' :: t => digitsOf 2 t
  | t => digitsOf 10 t

/-! ### Registers (R70) -/

/-- A plain decimal number without a leading zero. -/
def plainNat (t : Txt) : Option Nat :=
  if t.isEmpty || !t.all isDigit || (t.head? == some '0' && t.length != 1) then none else digitsOf 10 t

/-- The number of a register with a prefix. -/
def regNum (pre : String) (max : Nat) (t : Txt) : Option Nat :=
  let p := tx pre
  if t.take p.length != p then none
  else match plainNat (t.drop p.length) with
    | some n => if n ≤ max then some n else none
    | none => none

/-- The ABI names of x registers that choash takes. -/
def abiNames : List (String × Nat) :=
  [("zero", 0), ("ra", 1), ("sp", 2), ("gp", 3), ("tp", 4), ("t0", 5), ("t1", 6), ("t2", 7), ("fp", 8), ("a0", 10), ("a1", 11),
   ("a2", 12), ("a3", 13), ("a4", 14), ("a5", 15), ("a6", 16), ("a7", 17), ("t3", 28), ("t4", 29), ("t5", 30), ("t6", 31)]

/-- A name's value in a table. -/
def lookName {α : Type} (l : List (String × α)) (t : Txt) : Option α := (l.find? fun e => tx e.1 == t).map (·.2)

/-- An x register. -/
def xregOf (t : Txt) : Option Nat := (lookName abiNames t).orElse fun _ => regNum "x" 31 t

/-- A vector register or a stream, as its 9-bit code (R49). -/
def vcodeOf (t : Txt) : Option Nat :=
  match regNum "v" 319 t with
  | some n => some n
  | none => (regNum "s" 31 t).map (· + 320)

/-- A text is a register name. -/
def isRegName (t : Txt) : Bool :=
  (xregOf t).isSome || (vcodeOf t).isSome || (regNum "p" 63 t).isSome || (regNum "acc" 11 t).isSome
  || (regNum "ms" 47 t).isSome || (regNum "tl" 7 t).isSome

/-! ### Symbols (R67) -/

/-- The directives (R71). -/
def directiveNames : List String :=
  [".text", ".data", ".section", ".align", ".equ", ".global", ".word64", ".stream", ".launch", ".task", ".end_task", ".crew",
   ".end_crew", ".reloc"]

/-- The suffixes (R54, R69). -/
def suffixNames : List String :=
  [".fp32", ".bf16", ".fp16", ".e4m3", ".e5m2", ".int32", ".int8", ".mxe4m3", ".mxe5m2", ".mxe3m2", ".mxe2m3", ".mxfp4", ".mxint8",
   ".tern", ".rne", ".rtz", ".rdn", ".rup", ".sr", ".dyn", ".sat", ".ta", ".tb", ".t", ".clr", ".eq", ".ne", ".lt", ".le", ".gt",
   ".ge", ".un", ".or", ".b", ".h", ".w", ".d", ".v0", ".v1", ".v2"]

/-- A name can be a symbol: its characters are right, and it is no register name, suffix or directive (R67). -/
def symbolOk (t : Txt) : Bool :=
  (t.head?.any isWordStart) && t.all isWordChar && !isRegName t && !(directiveNames ++ suffixNames).any (fun d => tx d == t)

/-! ### Expressions (R68) -/

/-- Binary operators. -/
inductive BinOp
  | mul | div | mod | add | sub | shl | shr | and | xor | or
deriving DecidableEq, Repr

/-- An expression. -/
inductive Expr
  | num (n : Nat)
  | sym (s : Txt)
  | neg (a : Expr)
  | com (a : Expr)
  | bin (op : BinOp) (a b : Expr)
deriving DecidableEq, Repr

/-- A token of an expression; << and >> are '<' and '>'. -/
inductive Tok
  | num (n : Nat)
  | sym (s : Txt)
  | op (c : Char)
deriving DecidableEq, Repr

/-- The tokens of a text; the first argument bounds their number. -/
def lexTx : Nat → Txt → Option (List Tok)
  | 0, t => if t.isEmpty then some [] else none
  | n + 1, t =>
    match t with
    | [] => some []
    | '<' :: '<' :: r => (lexTx n r).map (.op '<' :: ·)
    | '>' :: '>' :: r => (lexTx n r).map (.op '>' :: ·)
    | c :: r =>
      if isBlank c then lexTx n r
      else if isDigit c then
        match numberOfTx (t.takeWhile isWordChar) with
        | some v => (lexTx n (t.dropWhile isWordChar)).map (.num v :: ·)
        | none => none
      else if isWordStart c then (lexTx n (t.dropWhile isWordChar)).map (.sym (t.takeWhile isWordChar) :: ·)
      else if (tx "+-*/%&^|~()").contains c then (lexTx n r).map (.op c :: ·)
      else none

/-- The binary operators of a level, loosest first, as in C. -/
def opAt (level : Nat) (c : Char) : Option BinOp :=
  match level, c with
  | 0, '|' => some .or
  | 1, '^' => some .xor
  | 2, '&' => some .and
  | 3, '<' => some .shl
  | 3, '>' => some .shr
  | 4, '+' => some .add
  | 4, '-' => some .sub
  | 5, '*' => some .mul
  | 5, '/' => some .div
  | 5, '%' => some .mod
  | _, _ => none

/-- Parsing at a level, with the left operand read so far; level 6 is a unary expression. -/
def parseExpr : Nat → Nat → Option Expr → List Tok → Option (Expr × List Tok)
  | 0, _, _, _ => none
  | n + 1, level, acc, ts =>
    if level = 6 then
      match ts with
      | .num v :: r => some (.num v, r)
      | .sym s :: r => some (.sym s, r)
      | .op '-' :: r => (parseExpr n 6 none r).map fun p => (.neg p.1, p.2)
      | .op '~' :: r => (parseExpr n 6 none r).map fun p => (.com p.1, p.2)
      | .op '(' :: r =>
        match parseExpr n 0 none r with
        | some (e, .op ')' :: r') => some (e, r')
        | _ => none
      | _ => none
    else
      match acc with
      | none =>
        match parseExpr n (level + 1) none ts with
        | some (e, r) => parseExpr n level (some e) r
        | none => none
      | some a =>
        match ts with
        | .op c :: r =>
          match opAt level c with
          | none => some (a, ts)
          | some o =>
            match parseExpr n (level + 1) none r with
            | some (b, r') => parseExpr n level (some (.bin o a b)) r'
            | none => none
        | _ => some (a, ts)

/-- The expression that a text is. -/
def exprOf (t : Txt) : Option Expr :=
  match lexTx (t.length + 1) t with
  | none => none
  | some ts =>
    match parseExpr (16 * (ts.length + 1)) 0 none ts with
    | some (e, []) => some e
    | _ => none

/-- A value: a number, or a symbol the assembler cannot resolve and a number. -/
structure Val where
  base : Option Txt
  off : Int
deriving DecidableEq, Repr

/-- 64-bit two's complement. -/
def s64 (i : Int) : Int := toSigned 64 (wrapN 64 i)

/-- The result of an operator on numbers (R68). That >> is arithmetic, and that a shift by 64 or more or a division by 0 rejects the
line, R68 leaves open (DESIGN CHOICE: log 48). -/
def binOpVal (op : BinOp) (a b : Int) : Option Int :=
  match op with
  | .mul => some (s64 (a * b))
  | .div => if b = 0 then none else some (s64 (a.tdiv b))
  | .mod => if b = 0 then none else some (s64 (a.tmod b))
  | .add => some (s64 (a + b))
  | .sub => some (s64 (a - b))
  | .shl => if 0 ≤ b ∧ b < 64 then some (s64 (a * 2 ^ b.toNat)) else none
  | .shr => if 0 ≤ b ∧ b < 64 then some (a / 2 ^ b.toNat) else none
  | .and => some (toSigned 64 (wrapN 64 a &&& wrapN 64 b))
  | .xor => some (toSigned 64 (wrapN 64 a ^^^ wrapN 64 b))
  | .or => some (toSigned 64 (wrapN 64 a ||| wrapN 64 b))

/-- What a name stands for: a number, or a place in a section with its type code (R73). -/
inductive SymDef
  | abs (v : Int)
  | loc (sect off type : Nat)
deriving DecidableEq, Repr

/-- Definitions by name. -/
abbrev SymTab := List (Txt × SymDef)

def SymTab.look (t : SymTab) (s : Txt) : Option SymDef := (t.find? fun e => e.1 == s).map (·.2)

/-- The distance of two symbols of one section. -/
def SymTab.between (t : SymTab) (a b : Txt) : Option Int :=
  match t.look a, t.look b with
  | some (.loc s x _), some (.loc r y _) => if s = r then some ((x : Int) - y) else none
  | _, _ => if a = b then some 0 else none

/-- The value of an expression; none where neither a number nor a relocation can express it (R68), or a name can be no symbol
(R67). -/
def Expr.eval (t : SymTab) : Expr → Option Val
  | .num n => some ⟨none, s64 n⟩
  | .sym s => match t.look s with
    | some (.abs v) => some ⟨none, v⟩
    | _ => if symbolOk s then some ⟨some s, 0⟩ else none
  | .neg a => match a.eval t with
    | some ⟨none, v⟩ => some ⟨none, s64 (-v)⟩
    | _ => none
  | .com a => match a.eval t with
    | some ⟨none, v⟩ => some ⟨none, s64 (-v - 1)⟩
    | _ => none
  | .bin op a b => match a.eval t, b.eval t with
    | some ⟨none, x⟩, some ⟨none, y⟩ => (binOpVal op x y).map (⟨none, ·⟩)
    | some ⟨some s, x⟩, some ⟨none, y⟩ =>
      if op = .add then some ⟨some s, s64 (x + y)⟩ else if op = .sub then some ⟨some s, s64 (x - y)⟩ else none
    | some ⟨none, x⟩, some ⟨some s, y⟩ => if op = .add then some ⟨some s, s64 (x + y)⟩ else none
    | some ⟨some s, x⟩, some ⟨some r, y⟩ =>
      if op = .sub then (t.between s r).map fun d => ⟨none, s64 (d + x - y)⟩ else none
    | _, _ => none

/-- The value of a text. -/
def valueOf (t : SymTab) (s : Txt) : Option Val := (exprOf s).bind fun e => e.eval t

/-- The number that a text is. -/
def constOf (t : SymTab) (s : Txt) : Option Int :=
  match valueOf t s with
  | some ⟨none, v⟩ => some v
  | _ => none

end Sys2Proof.Machine
end

