-- ==== Sys2Proof/Machine/AsmWords.lean ====
section
/-!
DEFINITION. Machine/AsmWords.lean: the words of choash instructions: Nuten mnemonics, suffixes and operands (R57, R59, R69,
R70), and RV64 mnemonics and pseudo-instructions (R64, R70).
-/

namespace Sys2Proof.Machine

/-! ### Formats (R57) -/

/-- The fields of Nuten words. -/
inductive Fld
  | vd | va | vb | vi | vt | pg | ty | imm | xs | fn | ets | etd | rm | sat | pd | pa | pb | pc | tt | xd | xa | xb | xg | xh | et
  | off | sh | acc | ma | mb | ms | crs | pm1 | ta | tb | clr | sr | tu | flg | win | mask | code | ge | ch | op | scope | tln | sz
  | cc
deriving DecidableEq, Repr

/-- The formats. -/
inductive Fmt25
  | vvv | vvi | vvx | vrd | vcv | pvv | ppp | pxf | vma | vg | br | mt | ms | as | cp | sb | tk | cr | no | ss | gr | sc | tl | sm | ma
deriving DecidableEq, Repr

/-- The fields of a format: lowest bit and width. -/
def Fmt25.fields : Fmt25 → List (Fld × Nat × Nat)
  | .vvv => [(.vd, 55, 9), (.va, 46, 9), (.vb, 37, 9), (.pg, 31, 6), (.ty, 28, 3)]
  | .vvi => [(.vd, 55, 9), (.va, 46, 9), (.pg, 40, 6), (.ty, 37, 3), (.imm, 28, 9)]
  | .vvx => [(.vd, 55, 9), (.va, 46, 9), (.xs, 41, 5), (.pg, 35, 6), (.ty, 32, 3)]
  | .vrd => [(.vd, 55, 9), (.va, 46, 9), (.pg, 40, 6), (.ty, 37, 3), (.fn, 31, 6)]
  | .vcv => [(.vd, 55, 9), (.va, 46, 9), (.pg, 40, 6), (.ets, 36, 4), (.etd, 32, 4), (.rm, 29, 3), (.sat, 28, 1)]
  | .pvv => [(.pd, 58, 6), (.va, 49, 9), (.vb, 40, 9), (.pg, 34, 6), (.ty, 31, 3), (.cc, 28, 3)]
  | .ppp => [(.pd, 58, 6), (.pa, 52, 6), (.pb, 46, 6), (.pc, 40, 6), (.tt, 32, 8)]
  | .pxf => [(.pd, 58, 6), (.xd, 53, 5), (.xa, 48, 5), (.ty, 45, 3), (.fn, 41, 4)]
  | .vma => [(.vt, 55, 9), (.xb, 50, 5), (.pg, 44, 6), (.et, 40, 4), (.off, 28, 12)]
  | .vg => [(.vt, 55, 9), (.xb, 50, 5), (.vi, 41, 9), (.pg, 35, 6), (.et, 31, 4), (.sh, 28, 3)]
  | .br => [(.off, 40, 24)]
  | .mt => [(.acc, 60, 4), (.ma, 54, 6), (.mb, 48, 6), (.xg, 43, 5), (.crs, 39, 4), (.pm1, 31, 8), (.ta, 30, 1), (.tb, 29, 1), (.clr, 28, 1)]
  | .ms => [(.ms, 58, 6), (.sr, 53, 5), (.crs, 44, 4), (.et, 40, 4)]
  | .as => [(.acc, 60, 4), (.sr, 55, 5), (.xg, 50, 5), (.etd, 46, 4), (.rm, 43, 3), (.sat, 42, 1), (.crs, 38, 4)]
  | .cp => [(.tu, 62, 2), (.xa, 57, 5), (.xb, 52, 5), (.xd, 47, 5), (.flg, 43, 4)]
  | .sb => [(.sr, 59, 5), (.xd, 54, 5), (.xa, 49, 5), (.win, 46, 3)]
  | .tk => [(.xd, 59, 5), (.xa, 54, 5), (.xb, 49, 5), (.imm, 28, 21)]
  | .cr => [(.mask, 56, 8)]
  | .no => []
  | .ss => [(.xd, 59, 5), (.xa, 54, 5), (.xb, 49, 5), (.code, 33, 16)]
  | .gr => [(.xd, 59, 5), (.xa, 54, 5), (.xb, 49, 5), (.ge, 41, 8), (.ch, 40, 1), (.op, 36, 4), (.et, 32, 4)]
  | .sc => [(.scope, 61, 3), (.xd, 56, 5), (.xa, 51, 5)]
  | .tl => [(.tln, 61, 3), (.xd, 56, 5), (.xa, 51, 5)]
  | .sm => [(.xd, 59, 5), (.xh, 54, 5), (.xa, 49, 5), (.xb, 44, 5), (.scope, 41, 3)]
  | .ma => [(.xd, 59, 5), (.xa, 54, 5), (.sz, 52, 2), (.scope, 49, 3), (.off, 28, 21)]

def Fmt25.field (f : Fmt25) (x : Fld) : Option (Nat × Nat) := (f.fields.find? fun e => e.1 == x).map (·.2)

/-! ### The opcode map (R59) -/

/-- Consecutive opcodes of one format. -/
def opRun (f : Fmt25) (opc : Nat) (names : List String) : List (Nat × String × Fmt25) :=
  names.zipIdx.map fun e => (opc + e.2, e.1, f)

/-- The rows of R59. -/
def opMap : List (Nat × String × Fmt25) :=
  opRun .no 0x000 ["hold"] ++ opRun .cr 0x001 ["catch"] ++ opRun .no 0x002 ["easy"]
  ++ opRun .tk 0x003 ["launch", "spawn", "join", "tail", "setpri", "eqsend", "eqrecv", "eqfree", "eqinit", "widf", "widins",
      "budget", "draw", "thallow", "slip", "lerr"]
  ++ opRun .ss 0x020 ["ntrap", "tret", "kill", "quiesce", "gate", "wake", "brk", "tlbinv", "fltans"]
  ++ opRun .vvv 0x040 ["vadd", "vsub", "vmul", "vfma", "vfms", "vfnma", "vmin", "vmax", "vdiv", "vamin", "vamax", "vsadd",
      "vssub", "vmulh", "vdot2", "vdot4", "vand", "vor", "vxor", "vandn", "vsll", "vsrl", "vsra", "vsel"]
  ++ opRun .vvi 0x058 ["vaddi", "vmini", "vmaxi", "vandi", "vxori", "vslli", "vsrli", "vsrai"]
  ++ opRun .vvx 0x060 ["vaddx", "vsubx", "vmulx", "vfmax", "vminx", "vmaxx", "vbcast", "vscalex"]
  ++ opRun .vrd 0x068 ["vfn", "vneg", "vabs", "vclass", "vbits"] ++ opRun .vcv 0x06D ["vcvt", "vrint"]
  ++ opRun .vrd 0x070 ["vrsum", "vrmax", "vrmin", "vramax", "vscan"] ++ opRun .pvv 0x075 ["vcmp"]
  ++ opRun .vma 0x080 ["vld", "vst"] ++ opRun .vg 0x082 ["vgath", "vscat", "vscadd"] ++ opRun .pxf 0x085 ["rqrel", "rqstat"]
  ++ opRun .vrd 0x087 ["vmov"] ++ opRun .vvv 0x088 ["vperm"] ++ opRun .vrd 0x089 ["vrev"]
  ++ opRun .vvv 0x08A ["vzip", "vunzip", "vtrn"] ++ opRun .vvi 0x08D ["vslide", "vrotl", "vbcl"] ++ opRun .ppp 0x090 ["plog"]
  ++ opRun .pxf 0x091 ["pcnt", "pfirst", "pfromx", "ptox", "pwhile"] ++ opRun .br 0x098 ["loopb"] ++ opRun .no 0x099 ["vresume"]
  ++ opRun .mt 0x0C0 ["mma.e4m3", "mma.e5m2", "mma.int8", "mma.bf16", "mma.fp16", "mma.mxfp8", "mma.mxfp6", "mma.mxfp4",
      "mma.mxint8", "mma.tern"]
  ++ opRun .ms 0x0CA ["mclaim", "mrel", "mload", "mzero"] ++ opRun .no 0x0CE ["mresume"]
  ++ opRun .as 0x0D0 ["astore", "astore.t", "aclr", "aload"]
  ++ opRun .cp 0x100 ["copy", "binscat", "migrate", "cresume", "cstat", "binset", "bindrop"]
  ++ opRun .sb 0x108 ["sbind", "sunbind", "sflush", "sskip", "smaxr", "smaxc", "sstat"] ++ opRun .sb 0x110 ["sptest", "spcast"]
  ++ opRun .gr 0x140 ["grpset", "grpget", "allred", "redsc", "allgat", "bcast", "owrite", "owred", "qparm", "rndwait", "slackr",
      "kresume"]
  ++ opRun .sc 0x180 ["fence.sc", "fence.rel", "fence.acq", "pfence", "efence", "vouch"] ++ opRun .tl 0x186 ["waittl", "tlread"]
  ++ opRun .sm 0x188 ["sem.ld", "sem.st", "sem.add", "sem.cas", "sem.max", "sem.swap", "sem.wait", "bump"]
  ++ opRun .ma 0x190 ["ldacq", "strel"]

/-! ### Operands (R70) -/

/-- A positional operand. -/
inductive OpSlot
  | xreg (f : Fld)
  | vreg (f : Fld)
  | preg (f : Fld)
  | acc
  | ms (f : Fld)
  | str
  | tl
  | imm (f : Fld)
  /-- IMM of format TK, which a relocation can fill (R74) -/
  | tkImm
  | label
  | vmem
  | mem
deriving DecidableEq, Repr

/-- The positional operands of a format. -/
def Fmt25.slots : Fmt25 → List OpSlot
  | .vvv => [.vreg .vd, .vreg .va, .vreg .vb]
  | .vvi => [.vreg .vd, .vreg .va, .imm .imm]
  | .vvx => [.vreg .vd, .vreg .va, .xreg .xs]
  | .vrd | .vcv => [.vreg .vd, .vreg .va]
  | .pvv => [.preg .pd, .vreg .va, .vreg .vb]
  | .ppp => [.preg .pd, .preg .pa, .preg .pb, .preg .pc, .imm .tt]
  | .pxf => [.preg .pd, .xreg .xd, .xreg .xa]
  | .vma => [.vreg .vt, .vmem]
  | .vg => [.vreg .vt, .xreg .xb, .vreg .vi]
  | .br => [.label]
  | .mt => [.acc, .ms .ma, .ms .mb, .xreg .xg]
  | .ms => [.ms .ms, .str]
  | .as => [.acc, .str, .xreg .xg]
  | .cp => [.xreg .xd, .xreg .xa, .xreg .xb]
  | .sb => [.str, .xreg .xa]
  | .tk => [.xreg .xd, .xreg .xa, .xreg .xb, .tkImm]
  | .cr | .no => []
  | .ss => [.xreg .xd, .xreg .xa, .xreg .xb]
  | .gr => [.xreg .xd, .xreg .xa, .xreg .xb]
  | .sc => [.xreg .xd, .xreg .xa]
  | .tl => [.xreg .xd, .tl, .xreg .xa]
  | .sm => [.xreg .xd, .xreg .xh, .xreg .xa, .xreg .xb]
  | .ma => [.xreg .xd, .mem]

/-- The operands of instructions that use fewer than their format has, as the chapters of their families write them. -/
def ownSlots : List (List String × List OpSlot) :=
  [(["fence.sc", "fence.rel", "fence.acq", "tret", "brk", "cresume"], []),
   (["pfence", "vouch", "budget", "cstat", "kresume"], [.xreg .xd]),
   (["launch", "join", "setpri", "lerr", "ntrap", "kill", "quiesce", "gate", "wake", "binscat", "sptest", "spcast", "rqrel",
     "rqstat", "grpset", "grpget", "owrite", "owred", "qparm", "rndwait", "slackr"], [.xreg .xd, .xreg .xa]),
   (["tail"], [.xreg .xa]), (["eqinit", "binset", "tlbinv"], [.xreg .xa, .xreg .xb]),
   (["eqsend", "eqrecv", "widf", "thallow"], [.xreg .xd, .xreg .xa, .tkImm]), (["eqfree"], [.xreg .xa, .tkImm]),
   (["slip"], [.xreg .xd, .tkImm]), (["pcnt", "pfirst", "ptox"], [.preg .pd, .xreg .xd]), (["pfromx"], [.preg .pd, .xreg .xa]),
   (["smaxr", "smaxc", "sstat"], [.xreg .xd, .str]), (["sflush"], [.str]), (["sem.st", "sem.wait"], [.xreg .xh, .xreg .xa]),
   (["sem.ld"], [.xreg .xd, .xreg .xh]), (["sem.add", "sem.max", "sem.swap"], [.xreg .xd, .xreg .xh, .xreg .xa]), (["tlread"], [.xreg .xd, .tl]),
   (["mclaim", "mrel", "mzero"], [.ms .ms]), (["aclr"], [.acc]), (["vbcast"], [.vreg .vd, .xreg .xs])]

def slotsOf (name : String) (f : Fmt25) : List OpSlot :=
  match ownSlots.find? fun e => e.1.contains name with
  | some e => e.2
  | none => f.slots

/-- A value in a field: its number, and for BR OFF and TK IMM what a relocation of a kind gives it (R74). -/
inductive FieldVal
  | num (v : Int)
  | rel (kind : Nat) (v : Val)
deriving DecidableEq, Repr

/-- off(xa): the offset and the register; an empty offset is 0. -/
def memOperand (t : Txt) : Option (Txt × Nat) :=
  match (t.reverse).dropWhile isBlank with
  | ')' :: r =>
    let reg := (r.takeWhile (· != '(')).reverse
    match r.dropWhile (· != '('), xregOf (trimTx reg) with
    | '(' :: o, some x =>
      let off := trimTx o.reverse
      some (if off.isEmpty then tx "0" else off, x)
    | _, _ => none
  | _ => none

/-- The fields that a positional operand sets. -/
def OpSlot.read (tab : SymTab) (slot : OpSlot) (x : Txt) : Option (List (Fld × FieldVal)) :=
  let reg (f : Fld) (n : Option Nat) : Option (List (Fld × FieldVal)) := n.map fun n => [(f, .num n)]
  match slot with
  | .xreg f => reg f (xregOf x)
  | .vreg f => reg f (vcodeOf x)
  | .preg f => reg f (regNum "p" 63 x)
  | .acc => reg .acc (regNum "acc" 11 x)
  | .ms f => reg f (regNum "ms" 47 x)
  | .str => reg .sr (regNum "s" 31 x)
  | .tl => reg .tln (regNum "tl" 7 x)
  | .imm f =>
    match valueOf tab x with
    | some ⟨none, v⟩ => some [(f, .num v)]
    | _ => none
  | .tkImm => (valueOf tab x).map fun v => [(.imm, if v.base.isNone then .num v.off else .rel 11 v)]
  | .label => (valueOf tab x).map fun v => [(.off, .rel 3 v)]
  | .vmem =>
    match memOperand x with
    | none => none
    | some (o, r) => match constOf tab o with
      | some v => if v % 256 = 0 then some [(.off, .num (v / 256)), (.xb, .num r)] else none
      | none => none
  | .mem =>
    match memOperand x with
    | none => none
    | some (o, r) => (constOf tab o).map fun v => [(.off, .num v), (.xa, .num r)]

/-! ### Suffixes (R54, R55, R56, R69) -/

/-- The codes of type suffixes (R54). -/
def typeCodes : List (String × Nat) :=
  [("fp32", 0), ("bf16", 1), ("fp16", 2), ("e4m3", 3), ("e5m2", 4), ("int32", 5), ("int8", 6), ("mxe4m3", 8), ("mxe5m2", 9),
   ("mxe3m2", 10), ("mxe2m3", 11), ("mxfp4", 12), ("mxint8", 13), ("tern", 14)]

/-- The other suffixes: class and fields; class 6 is the version. -/
def suffixes : List (String × Nat × List (Fld × Nat)) :=
  ((["rne", "rtz", "rdn", "rup", "sr", "dyn"].zipIdx).map fun e => (e.1, 0, [(.rm, e.2)]))
  ++ [("sat", 1, [(.sat, 1)]), ("ta", 2, [(.ta, 1)]), ("tb", 2, [(.tb, 1)]), ("t", 2, [(.ta, 1), (.tb, 1)]), ("clr", 3, [(.clr, 1)])]
  ++ ((["eq", "ne", "lt", "le", "gt", "ge", "un", "or"].zipIdx).map fun e => (e.1, 4, [(.cc, e.2)]))
  ++ ((["b", "h", "w", "d"].zipIdx).map fun e => (e.1, 5, [(.sz, e.2)]))
  ++ [("v0", 6, []), ("v1", 6, []), ("v2", 6, [])]

/-- A mnemonic's suffixes as read: the classes seen, the types in order, the fields, and the version. -/
structure Suf where
  seen : List Nat
  types : List Nat
  fields : List (Fld × FieldVal)
  v : Option Nat
deriving DecidableEq, Repr

/-- Reading one suffix: a class appears at most once. -/
def Suf.add (u : Suf) (s : Txt) : Option Suf :=
  match lookName typeCodes s with
  | some c => some { u with types := u.types ++ [c] }
  | none =>
    match lookName suffixes s with
    | none => none
    | some (cls, fs) =>
      if u.seen.contains cls then none
      else some { u with
        seen := cls :: u.seen
        fields := u.fields ++ fs.map fun e => (e.1, .num e.2)
        v := if cls = 6 then (plainNat (s.drop 1)) else u.v }

/-- The fields of the type suffixes: at most one, or ETD and then ETS for vcvt and vrint. -/
def typeFields (f : Fmt25) (types : List Nat) : Option (List (Fld × FieldVal)) :=
  match f, types with
  | _, [] => some []
  | .vcv, [d] => some [(.etd, .num d)]
  | .vcv, [d, s] => some [(.etd, .num d), (.ets, .num s)]
  | _, [c] =>
    match [Fld.ty, .et, .etd].find? fun x => (f.field x).isSome with
    | some x => some [(x, .num c)]
    | none => none
  | _, _ => none

/-- A mnemonic's base name, its longest dotted prefix in R59, and its suffixes. -/
def splitBase (parts : List Txt) : Nat → Option ((Nat × String × Fmt25) × List Txt)
  | 0 => none
  | n + 1 =>
    let name := (parts.take (n + 1)).foldl (fun a p => if a.isEmpty then p else a ++ '.' :: p) []
    match opMap.find? fun e => tx e.2.1 == name with
    | some e => some (e, parts.drop (n + 1))
    | none => splitBase parts n

/-! ### Keywords (R70) -/

def scopeNames : List (String × Nat) := [("task", 0), ("core", 1), ("quad", 2), ("die", 3), ("pkg", 4), ("sys", 5)]
def winNames : List (String × Nat) := [("global", 0), ("qshared", 1), ("scratch", 2), ("private", 3)]
def queueNames : List (String × Nat) := [("cc", 0), ("vec", 1), ("mat", 2), ("c0", 3), ("c1", 4), ("c2", 5), ("c3", 6), ("col", 7)]

/-- The names that an instruction gives its FN or OP codes (R124, R125, R134, R294, R298). -/
def codeNames : List (List String × List String) :=
  [(["vbits"], ["pop", "clz", "ctz", "brev", "bswap"]),
   (["vfn"], ["sqrt", "recip", "rsqrt", "exp2", "log2", "exp", "ln", "tanh", "sigmoid", "silu", "erf", "gelu"]),
   (["pfirst"], ["first", "last"]), (["pfromx"], ["count", "mask"]), (["grpset"], ["write", "claim", "release"]),
   (["allred", "redsc"], ["sum", "mean", "max", "min", "amax"])]

/-- A code by its name or its number. -/
def codeOf (t : SymTab) (name : String) (x : Txt) : Option Int :=
  match (codeNames.find? fun e => e.1.contains name).bind fun e => lookName (e.2.zipIdx) x with
  | some n => some n
  | none => constOf t x

/-- The field and the value of a keyword operand; IDLE has no field of a format. -/
def keywordOf (t : SymTab) (name : String) (f : Fmt25) (k v : Txt) : Option (Option Fld × Int) :=
  let to' (x : Fld) (n : Option Int) : Option (Option Fld × Int) := n.map fun n => (some x, n)
  match String.ofList k with
  | "pg" => match regNum "p" 63 v with
    | some n => if n = 0 then none else some (some .pg, n)
    | none => none
  | "idle" => (constOf t v).map fun n => (none, n)
  | "course" => to' .crs (constOf t v)
  | "p" => match constOf t v with
    | some n => if 1 ≤ n ∧ n ≤ 256 then some (some .pm1, n - 1) else none
    | none => none
  | "sh" => to' .sh (constOf t v)
  | "fn" => to' .fn (codeOf t name v)
  | "op" => to' .op (codeOf t name v)
  | "flg" => to' .flg (constOf t v)
  | "code" => to' .code (constOf t v)
  | "scope" => to' .scope ((lookName scopeNames v).map fun n => (n : Int))
  | "win" => to' .win ((lookName winNames v).map fun n => (n : Int))
  | "ch" => to' (if (f.field .tu).isSome then .tu else .ch) (constOf t v)
  | "ge" => to' .ge (constOf t v)
  | _ => none

/-- A keyword operand: its name and its value. -/
def splitKeyword (x : Txt) : Option (Txt × Txt) :=
  let k := x.takeWhile (fun c => isLetter c)
  match (x.drop k.length).dropWhile isBlank with
  | '=' :: v => if k.isEmpty then none else some (k, trimTx v)
  | _ => none

/-! ### A Nuten word -/

/-- An operand's relocation: the kind of R74 and the value. -/
abbrev Rel := Nat × Val

/-- Whether a field is signed (R58). -/
def signedField (f : Fmt25) (x : Fld) : Bool := x == .off || (x == .imm && f == .vvi)

/-- The bits of the fields, each written once: the operand bits and the relocations. -/
def placeFields (f : Fmt25) : List (Fld × FieldVal) → Option (Nat × List Rel)
  | [] => some (0, [])
  | (x, v) :: fs =>
    match f.field x, placeFields f fs with
    | some (lo, n), some (w, rs) =>
      if fs.any fun e => e.1 == x then none
      else match v with
        | .rel k v => some (w, (k, v) :: rs)
        | .num v => if if signedField f x then fitsS n v else fitsU n v then some (w + wrapN n v * 2 ^ lo, rs) else none
    | _, _ => none

/-- The queue names of catch, each at most once (R70). -/
def maskOf : List Txt → Option Nat
  | [] => some 0
  | q :: qs =>
    match lookName queueNames q, maskOf qs with
    | some b, some m => if m.testBit b then none else some (m + 2 ^ b)
    | _, _ => none

/-- The positional operands and the keyword operands, which follow them. -/
def readOperands (t : SymTab) (name : String) (f : Fmt25) : List OpSlot → List Txt → Option (List (Fld × FieldVal) × Option Int)
  | _, [] => some ([], none)
  | slots, o :: os =>
    match splitKeyword o with
    | some (k, v) =>
      match keywordOf t name f k v, readOperands t name f [] os with
      | some (some x, n), some (fs, idle) => some ((x, .num n) :: fs, idle)
      | some (none, n), some (fs, none) => some (fs, some n)
      | _, _ => none
    | none =>
      match slots with
      | [] => none
      | s :: ss =>
        match s.read t o, readOperands t name f ss os with
        | some a, some (fs, idle) => some (a ++ fs, idle)
        | _, _ => none

/-- What a Nuten line assembles to: its opcode, its word and its relocations; `crew` is the mask of the .crew it stands in. -/
def nutenLine (t : SymTab) (crew : Option Nat) (head : Txt) (ops : List Txt) : Option (Nat × Nat × List Rel) :=
  let parts := splitTx '.' head
  match splitBase parts parts.length with
  | none => none
  | some ((opc, name, f), sufs) =>
    match sufs.foldl (fun u s => u.bind fun u => u.add s) (some (⟨[], [], [], none⟩ : Suf)) with
    | none => none
    | some u =>
      let body : Option (List (Fld × FieldVal) × Option Int) :=
        if f = .cr then (maskOf (ops.takeWhile fun o => (splitKeyword o).isNone)).bind fun m =>
          (readOperands t name f [] (ops.dropWhile fun o => (splitKeyword o).isNone)).map fun b => ((.mask, .num m) :: b.1, b.2)
        else readOperands t name f (slotsOf name f) ops
      match typeFields f u.types, body with
      | some tys, some (fs, idle) =>
        let tu := match fs.find? fun e => e.1 == Fld.tu with
          | some (_, .num n) => n.toNat
          | _ => 0
        let v := u.v.getD (if crew.any fun m => m.testBit (queueBit (opcQueue opc tu)) then 2 else 0)
        let i := idle.getD 0
        if (idle.isSome && v == 0) || !fitsU 10 i then none
        else (placeFields f (tys ++ u.fields ++ fs)).map fun p =>
          (opc, p.1 + opc * 2 ^ 19 + i.toNat * 2 ^ 9 + v * 2 ^ 7 + 0x3F, p.2)
      | _, _ => none

/-! ### RV64 mnemonics (R64, R70) -/

/-- The operand forms of RV64 instructions. -/
inductive RvForm
  | r | i | shift (n : Nat) | un | load | store | branch | upper (kind : Nat) | jal | jalr | csr | csri | none
deriving DecidableEq, Repr

/-- The word of an RV64 operation with zero operands. -/
def rvWord (o : RvOp) : Nat := (encodeRvOp o).toNat
def rvInstr (i : Instr) : Nat := ((encodeRv i).getD 0).toNat

def rvRegs : List (String × RvForm × Nat) :=
  [("add", RegOp.add), ("sub", .sub), ("sll", .sll), ("slt", .slt), ("sltu", .sltu), ("xor", .xor), ("srl", .srl), ("sra", .sra),
   ("or", .or), ("and", .and), ("addw", .addw), ("subw", .subw), ("sllw", .sllw), ("srlw", .srlw), ("sraw", .sraw), ("mul", .mul),
   ("mulh", .mulh), ("mulhsu", .mulhsu), ("mulhu", .mulhu), ("div", .div), ("divu", .divu), ("rem", .rem), ("remu", .remu),
   ("mulw", .mulw), ("divw", .divw), ("divuw", .divuw), ("remw", .remw), ("remuw", .remuw), ("sh1add", .sh1add),
   ("sh2add", .sh2add), ("sh3add", .sh3add), ("add.uw", .addUw), ("sh1add.uw", .sh1addUw), ("sh2add.uw", .sh2addUw),
   ("sh3add.uw", .sh3addUw), ("andn", .andn), ("orn", .orn), ("xnor", .xnor), ("max", .max), ("maxu", .maxu), ("min", .min),
   ("minu", .minu), ("rol", .rol), ("ror", .ror), ("rolw", .rolw), ("rorw", .rorw)].map fun e => (e.1, .r, rvWord (.reg e.2 0 0 0))

def rvImms : List (String × RvForm × Nat) :=
  ([("addi", ImmOp.addi), ("slti", .slti), ("sltiu", .sltiu), ("xori", .xori), ("ori", .ori), ("andi", .andi), ("addiw", .addiw)].map
    fun e => (e.1, .i, rvWord (.imm e.2 0 0 0)))
  ++ ([("slli", ShOp.slli), ("srli", .srli), ("srai", .srai), ("rori", .rori), ("slli.uw", .slliUw)].map
    fun e => (e.1, .shift 6, rvWord (.sh e.2 0 0 0)))
  ++ ([("slliw", ShwOp.slliw), ("srliw", .srliw), ("sraiw", .sraiw), ("roriw", .roriw)].map
    fun e => (e.1, .shift 5, rvWord (.shw e.2 0 0 0)))
  ++ ([("clz", UnOp.clz), ("ctz", .ctz), ("cpop", .cpop), ("clzw", .clzw), ("ctzw", .ctzw), ("cpopw", .cpopw), ("sext.b", .sextB),
      ("sext.h", .sextH), ("zext.h", .zextH), ("orc.b", .orcB), ("rev8", .rev8)].map fun e => (e.1, .un, rvWord (.un e.2 0 0)))

def rvRest : List (String × RvForm × Nat) :=
  ([("lb", LoadOp.lb), ("lh", .lh), ("lw", .lw), ("ld", .ld), ("lbu", .lbu), ("lhu", .lhu), ("lwu", .lwu)].map
    fun e => (e.1, .load, rvInstr (.rv64Load e.2 0 0 0)))
  ++ ([("sb", StoreOp.sb), ("sh", .sh), ("sw", .sw), ("sd", .sd)].map fun e => (e.1, .store, rvInstr (.rv64Store e.2 0 0 0)))
  ++ ([("beq", BrOp.beq), ("bne", .bne), ("blt", .blt), ("bge", .bge), ("bltu", .bltu), ("bgeu", .bgeu)].map
    fun e => (e.1, .branch, rvWord (.branch e.2 0 0 0)))
  ++ [("lui", .upper 6, rvWord (.lui 0 0)), ("auipc", .upper 9, rvWord (.auipc 0 0)), ("jal", .jal, rvWord (.jal 0 0)),
      ("jalr", .jalr, rvWord (.jalr 0 0 0)), ("csrrw", .csr, rvInstr (.csrrw 0 0 0)), ("csrrs", .csr, rvInstr (.csrrs 0 0 0)),
      ("csrrc", .csr, rvInstr (.csrrc 0 0 0)), ("csrrwi", .csri, rvInstr (.csrrwi 0 0 0)), ("csrrsi", .csri, rvInstr (.csrrsi 0 0 0)),
      ("csrrci", .csri, rvInstr (.csrrci 0 0 0)), ("ecall", .none, rvInstr .ecall), ("ebreak", .none, rvInstr .ebreak),
      ("fence.i", .none, rvInstr (.fenceI 0 0 0)), ("fence.tso", .none, rvInstr (.rvFence 8 3 3 0 0))]

def rvTable : List (String × RvForm × Nat) := rvRegs ++ rvImms ++ rvRest

/-- CSR names: those of R65 and R327, in lower case. -/
def csrNames : List (String × Nat) :=
  [("stvec", 0x105), ("sscratch", 0x140), ("sepc", 0x141), ("scause", 0x142), ("stval", 0x143), ("nrm", 0x800), ("pace_v", 0x801),
   ("pace_m", 0x802), ("pace_c0", 0x803), ("pace_c1", 0x804), ("pace_c2", 0x805), ("pace_c3", 0x806), ("pace_k", 0x807),
   ("vrb", 0x808), ("prb", 0x809), ("lc", 0x80A), ("vupc", 0x810), ("vl0", 0x811), ("vl1", 0x812), ("mupc", 0x818), ("row", 0x819),
   ("col", 0x81A), ("depth", 0x81B), ("k0_seq", 0x840), ("k0_step", 0x841), ("k1_seq", 0x842), ("k1_step", 0x843), ("ntdet", 0x5C0),
   ("lcore", 0xCC0)]

/-- The copy progress CSRs c0_upc to c3_li5 (R65). -/
def copyCsr (t : Txt) : Option Nat :=
  match t with
  | 'c' :: n :: '_' :: r =>
    match plainNat [n] with
    | some n =>
      if 3 < n then none
      else if r == tx "upc" then some (0x820 + 8 * n) else (regNum "li" 5 r).map fun i => 0x821 + 8 * n + i
    | none => none
  | _ => none

/-- A CSR operand: a name or a number. -/
def csrOf (t : SymTab) (x : Txt) : Option Nat :=
  match (lookName csrNames x).orElse fun _ => copyCsr x with
  | some n => some n
  | none => match constOf t x with
    | some v => if fitsU 12 v then some v.toNat else none
    | none => none

/-- An assembled RV64 word: its bits and its relocations. -/
abbrev RvOut := Nat × List Rel

/-- A 12-bit immediate in its place (kind 7 or 8): a number that fits, or a relocation. -/
def immRel (w kind : Nat) : Val → Option RvOut
  | ⟨none, v⟩ => if fitsS 12 v then some (relocPut kind w v, []) else none
  | v => some (w, [(kind, v)])

/-- An RV64 instruction that is no pseudo-instruction. -/
def rvLine (t : SymTab) (form : RvForm) (w : Nat) (ops : List Txt) : Option RvOut :=
  let rd (x : Txt) : Option Nat := (xregOf x).map (· * 2 ^ 7)
  let rs1 (x : Txt) : Option Nat := (xregOf x).map (· * 2 ^ 15)
  let rs2 (x : Txt) : Option Nat := (xregOf x).map (· * 2 ^ 20)
  match form, ops with
  | .none, [] => some (w, [])
  | .r, [d, a, b] => do return (w + (← rd d) + (← rs1 a) + (← rs2 b), [])
  | .i, [d, a, v] => do immRel (w + (← rd d) + (← rs1 a)) 7 (← valueOf t v)
  | .shift n, [d, a, v] => do
    let v ← constOf t v
    if fitsU n v then return (w + (← rd d) + (← rs1 a) + v.toNat * 2 ^ 20, []) else none
  | .un, [d, a] => do return (w + (← rd d) + (← rs1 a), [])
  | .load, [d, m] => do
    let (o, r) ← memOperand m
    immRel (w + (← rd d) + r * 2 ^ 15) 7 (← valueOf t o)
  | .store, [b, m] => do
    let (o, r) ← memOperand m
    immRel (w + (← rs2 b) + r * 2 ^ 15) 8 (← valueOf t o)
  | .branch, [a, b, l] => do return (w + (← rs1 a) + (← rs2 b), [(4, ← valueOf t l)])
  | .upper k, [d, v] => do
    let w := w + (← rd d)
    match ← valueOf t v with
    | ⟨none, v⟩ => if fitsU 20 v then return (w + v.toNat * 2 ^ 12, []) else none
    | v => return (w, [(k, v)])
  | .jal, [d, l] => do return (w + (← rd d), [(5, ← valueOf t l)])
  | .jalr, [d, m] => do
    let (o, r) ← memOperand m
    immRel (w + (← rd d) + r * 2 ^ 15) 7 (← valueOf t o)
  | .jalr, [d, a, v] => do immRel (w + (← rd d) + (← rs1 a)) 7 (← valueOf t v)
  | .csr, [d, c, a] => do return (w + (← rd d) + (← csrOf t c) * 2 ^ 20 + (← rs1 a), [])
  | .csri, [d, c, v] => do
    let v ← constOf t v
    if fitsU 5 v then return (w + (← rd d) + (← csrOf t c) * 2 ^ 20 + v.toNat * 2 ^ 15, []) else none
  | _, _ => none

/-! ### Atomics and fences -/

def amoNames : List (String × AmoOp) :=
  [("amoswap", .swap), ("amoadd", .add), ("amoxor", .xor), ("amoand", .and), ("amoor", .or), ("amomin", .min), ("amomax", .max),
   ("amominu", .minu), ("amomaxu", .maxu)]

/-- The aq and rl bits of a mnemonic's last part. -/
def orderBits : List Txt → Option (Bool × Bool)
  | [] => some (false, false)
  | [x] => lookName [("aq", (true, false)), ("rl", (false, true)), ("aqrl", (true, true))] x
  | _ => none

/-- (xa) or 0(xa). -/
def plainAddress (t : SymTab) (x : Txt) : Option Nat := do
  let (o, r) ← memOperand x
  if (← constOf t o) = 0 then some r else none

/-- lr, sc and the AMOs. -/
def amoLine (t : SymTab) (head : Txt) (ops : List Txt) : Option RvOut :=
  match splitTx '.' head with
  | name :: sz :: order => do
    let dbl ← lookName [("w", false), ("d", true)] sz
    let (aq, rl) ← orderBits order
    let reg (x : Txt) : Option (BitVec 5) := (xregOf x).map (BitVec.ofNat 5)
    match ops with
    | [d, m] =>
      if name == tx "lr" then
        return (rvInstr (.lr dbl aq rl (← reg d) (BitVec.ofNat 5 (← plainAddress t m))), [])
      else none
    | [d, b, m] =>
      let a := BitVec.ofNat 5 (← plainAddress t m)
      if name == tx "sc" then return (rvInstr (.sc dbl aq rl (← reg d) a (← reg b)), [])
      else return (rvInstr (.amo (← lookName amoNames name) dbl aq rl (← reg d) a (← reg b)), [])
    | _ => none
  | _ => none

/-- The sets of a fence. -/
def fenceSet (t : Txt) : Option (BitVec 4) :=
  if t.isEmpty || !t.all (fun c => (tx "iorw").contains c) || t.eraseDups != t then none
  else some (BitVec.ofNat 4 (t.foldl (fun n c => n + (if c = 'i' then 8 else if c = 'o' then 4 else if c = 'r' then 2 else 1)) 0))

def fenceLine : List Txt → Option RvOut
  | [] => some (rvInstr (.rvFence 0 15 15 0 0), [])
  | [p, q] => do return (rvInstr (.rvFence 0 (← fenceSet p) (← fenceSet q) 0 0), [])
  | _ => none

/-! ### Pseudo-instructions (the published RISC-V assembly conventions, R70) -/

/-- An operand of an expansion: the n-th of the pseudo-instruction, or a text. -/
inductive Arg
  | n (i : Nat)
  | t (s : String)
deriving DecidableEq, Repr

/-- The pseudo-instructions of one word: name, number of operands, and what they stand for. -/
def pseudoTable : List (String × Nat × String × List Arg) :=
  [("nop", 0, "addi", [.t "x0", .t "x0", .t "0"]), ("mv", 2, "addi", [.n 0, .n 1, .t "0"]), ("not", 2, "xori", [.n 0, .n 1, .t "-1"]),
   ("neg", 2, "sub", [.n 0, .t "x0", .n 1]), ("negw", 2, "subw", [.n 0, .t "x0", .n 1]), ("sext.w", 2, "addiw", [.n 0, .n 1, .t "0"]),
   ("zext.b", 2, "andi", [.n 0, .n 1, .t "255"]), ("zext.w", 2, "add.uw", [.n 0, .n 1, .t "x0"]),
   ("seqz", 2, "sltiu", [.n 0, .n 1, .t "1"]), ("snez", 2, "sltu", [.n 0, .t "x0", .n 1]), ("sltz", 2, "slt", [.n 0, .n 1, .t "x0"]),
   ("sgtz", 2, "slt", [.n 0, .t "x0", .n 1]), ("beqz", 2, "beq", [.n 0, .t "x0", .n 1]), ("bnez", 2, "bne", [.n 0, .t "x0", .n 1]),
   ("blez", 2, "bge", [.t "x0", .n 0, .n 1]), ("bgez", 2, "bge", [.n 0, .t "x0", .n 1]), ("bltz", 2, "blt", [.n 0, .t "x0", .n 1]),
   ("bgtz", 2, "blt", [.t "x0", .n 0, .n 1]), ("bgt", 3, "blt", [.n 1, .n 0, .n 2]), ("ble", 3, "bge", [.n 1, .n 0, .n 2])]
  ++ [("bgtu", 3, "bltu", [.n 1, .n 0, .n 2]), ("bleu", 3, "bgeu", [.n 1, .n 0, .n 2]), ("j", 1, "jal", [.t "x0", .n 0]),
   ("jal", 1, "jal", [.t "x1", .n 0]), ("jr", 1, "jalr", [.t "x0", .n 0, .t "0"]), ("jalr", 1, "jalr", [.t "x1", .n 0, .t "0"]),
   ("ret", 0, "jalr", [.t "x0", .t "x1", .t "0"]), ("csrr", 2, "csrrs", [.n 0, .n 1, .t "x0"]), ("csrw", 2, "csrrw", [.t "x0", .n 0, .n 1]),
   ("csrs", 2, "csrrs", [.t "x0", .n 0, .n 1]), ("csrc", 2, "csrrc", [.t "x0", .n 0, .n 1]), ("csrwi", 2, "csrrwi", [.t "x0", .n 0, .n 1]),
   ("csrsi", 2, "csrrsi", [.t "x0", .n 0, .n 1]), ("csrci", 2, "csrrci", [.t "x0", .n 0, .n 1])]

/-- The instruction that a mnemonic stands for. -/
def expandOne (head : Txt) (ops : List Txt) : Txt × List Txt :=
  match pseudoTable.find? fun e => tx e.1 == head && e.2.1 == ops.length with
  | some (_, _, real, args) => (tx real, args.map fun a => match a with
      | .n i => ops.getD i []
      | .t s => tx s)
  | none => (head, ops)

/-- One RV64 word: its mnemonic after expansion, its bits and its relocations. -/
def rvOne (t : SymTab) (head : Txt) (ops : List Txt) : Option RvOut :=
  let e := expandOne head ops
  if e.1 == tx "fence" then fenceLine e.2
  else match lookName rvTable e.1 with
    | some (form, w) => rvLine t form w e.2
    | none => amoLine t e.1 e.2

/-- The word of an addi, addiw, lui or slli with registers and an immediate. -/
def wAddi (w32 : Bool) (rd rs : Nat) (v : Int) : Nat :=
  relocPut 7 (rvWord (.imm (if w32 then .addiw else .addi) (BitVec.ofNat 5 rd) (BitVec.ofNat 5 rs) 0)) v
def wLui (rd : Nat) (v : Int) : Nat := rvWord (.lui (BitVec.ofNat 5 rd) (BitVec.ofInt 20 v))
def wSlli (rd n : Nat) : Nat := rvWord (.sh .slli (BitVec.ofNat 5 rd) (BitVec.ofNat 5 rd) (BitVec.ofNat 6 n))

/-- The words of `li`: lui and addiw for 32 bits; for more, the upper part, a shift, and the low 12 bits. -/
def liWords (rd : Nat) : Nat → Int → List Nat
  | 0, _ => []
  | n + 1, v =>
    let lo := toSigned 12 (wrapN 12 v)
    let hi := (v - lo) / 4096
    if lo = v then [wAddi false rd 0 v]
    else if -(2 ^ 31) ≤ v ∧ v < 2 ^ 31 then
      wLui rd hi :: (if lo = 0 then [] else [wAddi true rd rd lo])
    else
      let k := ctzN 52 (wrapN 52 hi)
      liWords rd n (toSigned 52 (wrapN 52 hi) / 2 ^ k) ++ [wSlli rd (12 + k)] ++ (if lo = 0 then [] else [wAddi false rd rd lo])

/-- The symbol that a pair of pc-relative words gives its first word; no text can name it. -/
def pairSym (sect off : Nat) : Txt := ' ' :: Nat.toDigits 10 sect ++ ' ' :: Nat.toDigits 10 off

/-- auipc of a target, and a second word that takes the low part at the first word's symbol. -/
def pcPair (first : Txt) (rd : Nat) (v : Val) (kind second : Nat) : List RvOut :=
  [(rvWord (.auipc (BitVec.ofNat 5 rd) 0), [(9, v)]), (second, [(kind, ⟨some first, 0⟩)])]

/-- An RV64 line: its words with their relocations; `first` is the symbol of its first word. The Nuten tail takes a register, so
tail of a symbol is the RISC-V pseudo-instruction (DEDUCED, assumption log 38). -/
def rvWords (t : SymTab) (first : Txt) (head : Txt) (ops : List Txt) : Option (List RvOut) :=
  let load := ["lb", "lh", "lw", "ld", "lbu", "lhu", "lwu"].any fun n => tx n == head
  match ops with
  | [d, v] =>
    if head == tx "li" then do
      let rd ← xregOf d
      match ← valueOf t v with
      | ⟨none, n⟩ => return (liWords rd 8 n).map fun w => (w, [])
      | s => return [(wLui rd 0, [(6, s)]), (wAddi false rd rd 0, [(7, s)])]
    else if head == tx "la" || head == tx "lla" then do
      let rd ← xregOf d
      return pcPair first rd (← valueOf t v) 10 (wAddi false rd rd 0)
    else if load && (memOperand v).isNone then do
      let rd ← xregOf d
      let (_, w) ← lookName rvTable head
      return pcPair first rd (← valueOf t v) 10 (w + rd * 2 ^ 7 + rd * 2 ^ 15)
    else (rvOne t head ops).map fun o => [o]
  | [v] =>
    if head == tx "call" then do
      return pcPair first 1 (← valueOf t v) 10 (rvWord (.jalr 1 1 0))
    else if head == tx "tail" then do
      return pcPair first 6 (← valueOf t v) 10 (rvWord (.jalr 0 6 0))
    else (rvOne t head ops).map fun o => [o]
  | _ => (rvOne t head ops).map fun o => [o]

end Sys2Proof.Machine
end

