-- ==== Sys2Proof/Machine/Assembler.lean ====
section
/-!
DEFINITION. Machine/Assembler.lean: choash (R67 to R71): labels, directives, crews and tasks, sections and relocations, and the
object it writes (R72, R73).
-/

namespace Sys2Proof.Machine

/-! ### State of a pass -/

/-- A section being assembled. -/
structure AsmSect where
  name : Txt
  kind : Nat
  /-- log2 of the alignment -/
  align : Nat
  bytes : List Byte
deriving DecidableEq, Repr

/-- A relocation that the object will hold: its place, kind and value. -/
structure AsmReloc where
  sect : Nat
  off : Nat
  kind : Nat
  val : Val
deriving DecidableEq, Repr

/-- The state of a pass over the lines. -/
structure Asm where
  /-- the symbols that the last pass defined -/
  env : SymTab
  /-- the symbols that this pass has defined -/
  defs : SymTab
  globals : List Txt
  sects : List AsmSect
  /-- the section that lines assemble into -/
  cur : Nat
  relocs : List AsmReloc
  /-- the open .crew: its line and mask -/
  crew : Option (Nat × Nat)
  /-- the open .task -/
  task : Bool
  /-- whether the last instruction ends a task (R71) -/
  ends : Bool
  rejected : List Nat
deriving DecidableEq, Repr

/-- The start of a pass: section .text. -/
def Asm.start (env : SymTab) : Asm := ⟨env, [], [], [⟨tx ".text", 0, 2, []⟩], 0, [], none, false, false, []⟩

/-- What a name stands for now. -/
def Asm.tab (a : Asm) : SymTab := a.defs ++ a.env

def Asm.sect (a : Asm) : AsmSect := a.sects.getD a.cur ⟨[], 0, 2, []⟩

/-- The offset of the next byte. -/
def Asm.here (a : Asm) : Nat := a.sect.bytes.length

def Asm.setSect (a : Asm) (s : AsmSect) : Asm := { a with sects := a.sects.set a.cur s }

def Asm.append (a : Asm) (bs : List Byte) : Asm := a.setSect { a.sect with bytes := a.sect.bytes ++ bs }

/-- Defining a symbol once. -/
def Asm.define (a : Asm) (t : Txt) (d : SymDef) : Option Asm :=
  if symbolOk t && (a.defs.look t).isNone then some { a with defs := (t, d) :: a.defs } else none

/-- A symbol at the current place. -/
def Asm.defineHere (a : Asm) (t : Txt) (type : Nat) : Option Asm := a.define t (.loc a.cur a.here type)

/-- The symbol of a directive at the current place: a label of the same name at that place becomes it. -/
def Asm.nameHere (a : Asm) (t : Txt) (type : Nat) : Option Asm :=
  match a.defs.look t with
  | some (.loc s o _) =>
    if s = a.cur && o == a.here then some { a with defs := a.defs.map fun e => if e.1 = t then (t, .loc s o type) else e } else none
  | some (.abs _) => none
  | none => a.defineHere t type

/-! ### Emitting words (R68, R74) -/

/-- A relocation's value where the assembler can resolve it: a number where the kind takes no address, the distance to a
place of the same section where it takes one. -/
def Asm.resolve (a : Asm) (kind off : Nat) (v : Val) : Option (Option Int) :=
  if kind = 3 || kind = 4 || kind = 5 then
    match v.base.bind fun s => a.tab.look s with
    | some (.loc s o _) =>
      if s = a.cur then (relocValue kind ⟨wrapN 64 (o + v.off), 0, off, 0, none⟩).map some else some none
    | _ => some none
  else if kind = 9 || kind = 10 || kind = 12 then some none
  else match v.base with
    | none => (relocValue kind ⟨wrapN 64 v.off, 0, 0, 0, none⟩).map some
    | some _ => some none

/-- A word of `n` bytes with its relocations, each resolved or emitted. -/
def Asm.emit (a : Asm) (n w : Nat) (rels : List Rel) : Option Asm :=
  let off := a.here
  let r : Option (Nat × List AsmReloc) := rels.foldl (fun acc x => acc.bind fun acc =>
    match a.resolve x.1 off x.2 with
    | none => none
    | some (some v) => some (relocPut x.1 acc.1 v, acc.2)
    | some none => some (acc.1, acc.2 ++ [⟨a.cur, off, x.1, x.2⟩])) (some (w, []))
  r.map fun r => { (a.append (leBytes n r.1)) with relocs := a.relocs ++ r.2 }

/-! ### Descriptors (R209, R247) -/

/-- A key of a descriptor: its doubleword, lowest bit, width, and whether it is signed. -/
abbrev Key := String × Nat × Nat × Nat × Bool

/-- The keys of .stream: the fields of R209. -/
def streamKeys : List Key :=
  [("base", 0, 0, 64, false), ("str2", 1, 32, 32, true), ("str1", 1, 0, 32, true), ("cnt2", 2, 48, 16, false),
   ("cnt1", 2, 32, 16, false), ("str3", 2, 0, 32, true), ("pos", 3, 32, 32, false), ("bpe", 3, 28, 4, false),
   ("fmt", 3, 24, 4, false), ("elenm1", 3, 16, 8, false), ("cnt3", 3, 0, 16, false), ("scb", 4, 0, 64, false),
   ("tu", 5, 33, 2, false), ("dir", 5, 32, 1, false), ("scstr", 5, 0, 32, true), ("tag", 6, 0, 64, false),
   ("mm", 7, 32, 32, false), ("wcnt", 7, 0, 32, false)]

/-- The keys of .launch: the fields of R247. -/
def launchKeys : List Key :=
  [("entry", 0, 0, 64, false), ("ver", 1, 56, 8, false), ("det", 1, 44, 1, false), ("prio", 1, 41, 3, false),
   ("vreg", 1, 32, 9, false), ("ctrl", 1, 0, 32, false), ("seed", 2, 0, 64, false), ("lcmask", 3, 0, 64, false),
   ("w0", 4, 0, 7, false), ("w1", 4, 7, 7, false), ("w2", 4, 14, 7, false), ("w3", 4, 21, 7, false), ("w4", 4, 28, 7, false),
   ("w5", 4, 35, 7, false), ("ext0", 5, 0, 32, false), ("ext1", 5, 32, 32, false), ("ext2", 6, 0, 32, false),
   ("ext3", 6, 32, 32, false), ("ext4", 7, 0, 32, false), ("ext5", 7, 32, 32, false)]
  ++ [("framebase", 8, 0, 64, false), ("budget", 9, 32, 32, false), ("framesz", 9, 0, 32, false), ("jdone", 10, 32, 32, false),
   ("equse", 10, 8, 8, false), ("eqdir", 10, 0, 8, false), ("eq0", 11, 0, 32, false), ("eq1", 11, 32, 32, false),
   ("eq2", 12, 0, 32, false), ("eq3", 12, 32, 32, false), ("eq4", 13, 0, 32, false), ("eq5", 13, 32, 32, false),
   ("eq6", 14, 0, 32, false), ("eq7", 14, 32, 32, false)]

/-- A key's name and text. -/
def splitKey (x : Txt) : Option (Txt × Txt) :=
  let k := x.takeWhile fun c => isLetter c || isDigit c
  match (x.drop k.length).dropWhile isBlank with
  | '=' :: v => some (k, trimTx v)
  | _ => none

/-- The value of a descriptor: the bits of its keys, each named once, and the relocations of its 32-bit and 64-bit fields
with the byte at which each lies. -/
def packKeys (t : SymTab) (keys : List Key) : List Txt → Option (Nat × List (Nat × Rel) × List Txt)
  | [] => some (0, [], [])
  | x :: xs =>
    match splitKey x, packKeys t keys xs with
    | some (k, v), some (w, rs, seen) =>
      if seen.contains k then none
      else match lookName keys k, valueOf t v with
        | some (d, lo, n, signed), some ⟨none, i⟩ =>
          if n = 64 || (if signed then fitsS n i else fitsU n i) then some (w + wrapN n i * 2 ^ (64 * d + lo), rs, k :: seen) else none
        | some (d, lo, n, _), some v =>
          if n = 64 then some (w, (8 * d, 1, v) :: rs, k :: seen)
          else if n = 32 then some (w, (8 * d + lo / 8, 2, v) :: rs, k :: seen) else none
        | _, none => none
        | none, _ => none
    | _, _ => none

/-- .stream and .launch: a descriptor of `n` bytes at a symbol. -/
def Asm.descriptor (a : Asm) (keys : List Key) (n type : Nat) : List Txt → Option Asm
  | [] => none
  | name :: kvs =>
    match packKeys a.tab keys kvs, a.nameHere name type with
    | some (w, rs, _), some b =>
      some { (b.append (leBytes n w)) with relocs := b.relocs ++ rs.map fun r => ⟨a.cur, a.here + r.1, r.2.1, r.2.2⟩ }
    | _, _ => none

/-! ### Directives (R71) -/

def sectionKinds : List (String × Nat) := [("text", 0), ("data", 1), ("cmd", 2), ("launch", 3), ("stream", 4), ("bss", 5)]

/-- Lines that follow assemble into a section; a section has one kind. -/
def Asm.openSect (a : Asm) (name : Txt) (kind : Nat) : Option Asm :=
  match a.sects.findIdx? fun s => s.name == name with
  | some i => if (a.sects.getD i ⟨[], 0, 2, []⟩).kind = kind then some { a with cur := i } else none
  | none => some { a with sects := a.sects ++ [⟨name, kind, 2, []⟩], cur := a.sects.length }

/-- Padding: nops in a text section, zeros elsewhere. -/
def padBytes (text : Bool) (n : Nat) : List Byte :=
  if text then (List.replicate (n / 4) (leBytes 4 0x13)).flatten else List.replicate n 0

/-- The relocation kind that .reloc names: a number, or a name of R74. -/
def relocKinds : List (String × Nat) :=
  ["NONE", "ABS64", "ABS32", "NBR24", "RVB12", "RVJ20", "RVHI20", "RVLO12I", "RVLO12S", "RVPCHI20", "RVPCLO12I", "TKIMM21",
   "SEMIDX"].zipIdx

/-- A directive; none rejects the line. A .task in an open .task is rejected, and one still open at the end of the source is accepted (DESIGN
CHOICE: log 38). -/
def Asm.directive (a : Asm) (line : Nat) (d : String) (ops : List Txt) : Option Asm :=
  match d, ops with
  | ".text", [] => a.openSect (tx ".text") 0
  | ".data", [] => a.openSect (tx ".data") 1
  | ".section", [name, kind] =>
    match lookName sectionKinds kind with
    | some k => if !name.isEmpty && name.all isWordChar then a.openSect name k else none
    | none => none
  | ".align", [n] =>
    match constOf a.tab n with
    | none => none
    | some v =>
      let text := a.sect.kind == 0
      if v < 0 || 30 < v || (text && decide (v < 2)) then none
      else
        let m := 2 ^ v.toNat
        let pad := (m - a.here % m) % m
        let b := a.append (padBytes text pad)
        some { b.setSect { b.sect with align := max b.sect.align v.toNat } with ends := a.ends && !(text && pad != 0) }
  | ".equ", [name, e] => (constOf a.tab e).bind fun v => a.define name (.abs v)
  | ".global", [name] => if symbolOk name then some { a with globals := name :: a.globals } else none
  | ".word64", o :: os =>
    if a.here % 8 ≠ 0 then none
    else
      let b := a.setSect { a.sect with align := max 3 a.sect.align }
      (o :: os).foldl (fun acc x => acc.bind fun acc => (valueOf acc.tab x).bind fun v => acc.emit 8 0 [(1, v)]) (some b)
  | ".stream", ops => a.descriptor streamKeys 64 4 ops
  | ".launch", ops => a.descriptor launchKeys 128 5 ops
  | ".task", [name] => if a.task then none else (a.nameHere name 3).map fun b => { b with task := true, ends := false }
  | ".end_task", [] => if a.task && a.ends then some { a with task := false } else none
  | ".crew", qs =>
    match a.crew, maskOf qs with
    | none, some m =>
      (nutenLine a.tab none (tx "catch") qs).bind fun o =>
        (a.emit 8 o.2.1 []).map fun b => { b with crew := some (line, m), ends := false }
    | _, _ => none
  | ".end_crew", [] =>
    match a.crew with
    | none => none
    | some _ => (a.emit 8 (0x002 * 2 ^ 19 + 0x3F) []).map fun b => { b with crew := none, ends := false }
  | ".reloc", [off, kind, e] =>
    let k := match lookName relocKinds kind with
      | some k => some (k : Int)
      | none => constOf a.tab kind
    match constOf a.tab off, k, valueOf a.tab e with
    | some o, some k, some v =>
      if 0 ≤ o && 0 ≤ k && k ≤ 12 then some { a with relocs := a.relocs ++ [⟨a.cur, o.toNat, k.toNat, v⟩] } else none
    | _, _, _ => none
  | _, _ => none

/-! ### Lines (R67) -/

/-- Whether a word ends a task: tail, or a jal or jalr that links nothing (R71). -/
def endsTask (nuten : Bool) (opc w : Nat) : Bool :=
  if nuten then opc == 0x006
  else (w % 128 == 0x6F || w % 128 == 0x67) && bitsN w 11 7 == 0

/-- An instruction; none rejects the line. -/
def Asm.instr (a : Asm) (head : Txt) (ops : List Txt) : Option Asm :=
  match nutenLine a.tab (a.crew.map (·.2)) head ops with
  | some (opc, w, rels) => (a.emit 8 w rels).map fun b => { b with ends := endsTask true opc w }
  | none =>
    match rvWords a.tab (pairSym a.cur a.here) head ops with
    | none => none
    | some ws =>
      let pair := ws.any fun o => o.2.any fun r => r.1 == 10
      let b : Asm := if pair then { a with defs := (pairSym a.cur a.here, .loc a.cur a.here 1) :: a.defs } else a
      (ws.foldl (fun acc o => acc.bind fun acc => acc.emit 4 o.1 o.2) (some b)).map fun c =>
        { c with ends := match ws.getLast? with
            | some o => endsTask false 0 o.1
            | none => false }

/-- A line; none rejects it. -/
def Asm.line (a : Asm) (n : Nat) (t : Txt) : Option Asm :=
  let l := parseLine t
  let b := match l.label with
    | some s => a.defineHere s (if a.sect.kind = 0 then 1 else 2)
    | none => some a
  b.bind fun b =>
    if l.head.isEmpty then some b
    else match directiveNames.find? fun d => tx d == l.head with
      | some d => b.directive n d l.ops
      | none => b.instr l.head l.ops

/-- A pass over the lines that are not rejected already. -/
def Asm.pass (env : SymTab) (skip : List Nat) (lines : List Txt) : Asm :=
  let a := lines.zipIdx.foldl (fun a x =>
    if skip.contains x.2 then a
    else match a.line x.2 x.1 with
      | some b => b
      | none => { a with rejected := x.2 :: a.rejected }) (Asm.start env)
  match a.crew with
  | some (n, _) => { a with rejected := n :: a.rejected }
  | none => a

/-- Passes until every symbol keeps its value and no further line is rejected. -/
def Asm.settle (lines : List Txt) : Nat → SymTab → List Nat → Asm × List Nat
  | 0, env, skip => (Asm.pass env skip lines, skip)
  | n + 1, env, skip =>
    let a := Asm.pass env skip lines
    if a.defs != env then Asm.settle lines n a.defs skip
    else if a.rejected.isEmpty then (a, skip)
    else Asm.settle lines n [] (skip ++ a.rejected)

/-! ### The object (R72, R73) -/

/-- A symbol record that has no name yet: bind, type, section, value. -/
abbrev SymRec := Txt × Nat × Nat × Nat × Nat

/-- The symbols of the object: those defined, those that relocations name and nothing defines, and one absolute symbol for
each number that a relocation needs. -/
def Asm.symbols (a : Asm) : List SymRec :=
  let glob (t : Txt) : Nat := if a.globals.contains t then 1 else 0
  let own := a.defs.reverse.map fun e => match e.2 with
    | .abs v => (e.1, glob e.1, 0, 0xFFFF, wrapN 64 v)
    | .loc s o ty => (e.1, glob e.1, ty, s, o)
  let free := ((a.relocs.filterMap fun r => r.val.base).filter fun t => (a.defs.look t).isNone).eraseDups
  own ++ free.map (fun t => (t, 2, 0, 0xFFFF, 0)) ++ (if a.relocs.any fun r => r.val.base.isNone then [([], 0, 0, 0xFFFF, 0)] else [])

/-- The index of the symbol of a value. -/
def symIndex (l : List SymRec) (v : Val) : Nat := (l.findIdx? fun e => e.1 == v.base.getD []).getD 0

/-- The zero-terminated names and where each begins. -/
def stringTable : List Txt → Nat → List Nat × List Byte
  | [], _ => ([], [])
  | t :: ts, o =>
    let bs : List Byte := t.map (fun c => BitVec.ofNat 8 c.toNat) ++ [0]
    let r := stringTable ts (o + bs.length)
    (o :: r.1, bs ++ r.2)

/-- The file of the object: header, section headers, symbols, relocations, strings, and the bytes of the sections. -/
def Asm.file (a : Asm) : List Byte :=
  let syms := a.symbols
  let names := stringTable (a.sects.map (·.name) ++ syms.map (·.1)) 0
  let ns := a.sects.length
  let so := 64
  let yo := so + 32 * ns
  let ro := yo + 24 * syms.length
  let to' := ro + 24 * a.relocs.length
  let data := to' + names.2.length
  let heads := (a.sects.zipIdx.foldl (fun (acc : List Byte × Nat) x =>
    let n := x.1.bytes.length
    let bss := x.1.kind == 5
    (acc.1 ++ leBytes 4 (names.1.getD x.2 0) ++ leBytes 1 x.1.kind ++ leBytes 1 x.1.align ++ leBytes 2 0 ++ leBytes 8 n
      ++ leBytes 8 (if bss then 0 else acc.2) ++ leBytes 8 0, if bss then acc.2 else acc.2 + n)) ([], data)).1
  let recs := syms.zipIdx.flatMap fun x =>
    leBytes 4 (names.1.getD (ns + x.2) 0) ++ leBytes 2 x.1.2.2.2.1 ++ leBytes 1 x.1.2.1 ++ leBytes 1 x.1.2.2.1
      ++ leBytes 8 x.1.2.2.2.2 ++ leBytes 8 (match x.1.2.2.1 with | 4 => 64 | 5 => 128 | _ => 0)
  let rels := a.relocs.flatMap fun r =>
    leBytes 8 r.off ++ leBytes 2 r.sect ++ leBytes 2 r.kind ++ leBytes 4 (symIndex syms r.val) ++ leBytes 8 (wrapN 64 r.val.off)
  let entry := (syms.findIdx? fun e => e.2.2.1 == 5).getD (2 ^ 64 - 1)
  leBytes 4 0x31485356 ++ leBytes 2 1 ++ leBytes 2 0 ++ leBytes 4 ns ++ leBytes 4 syms.length ++ leBytes 4 a.relocs.length
    ++ leBytes 4 names.2.length ++ leBytes 8 so ++ leBytes 8 yo ++ leBytes 8 ro ++ leBytes 8 to' ++ leBytes 8 entry
    ++ heads ++ recs ++ rels ++ names.2 ++ a.sects.flatMap fun s => if s.kind = 5 then [] else s.bytes

/-- choash: the object file of a text, and the lines it rejects, counted from 0. -/
def assemble (lines : List String) : List Byte × List Nat :=
  let r := Asm.settle (lines.map tx) (2 * lines.length + 8) [] []
  (r.1.file, r.2)

/-- The bytes that a text gives its section .text, where no line is rejected. -/
def assembleText (lines : List String) : Option (List Byte) :=
  let r := Asm.settle (lines.map tx) (2 * lines.length + 8) [] []
  if r.2.isEmpty then (r.1.sects.head?).map (·.bytes) else none

end Sys2Proof.Machine
end

