-- ==== Sys2Proof/Tests/Slice0.lean ====
section
/-!
SUPPORT. Tests/Slice0.lean: the WellFormed smoke, words written out from the encodings of spec/02_encoding.md and what they
decode to, single steps, and for each obligation a state and operands that meet the premises of its clauses.
-/

set_option maxRecDepth 100000
set_option exponentiation.threshold 4096

namespace Sys2Proof
open Sys2Proof.Machine

/-- Every word decodes to its instruction. -/
def decodesTo (nbits : Nat) (l : List (Nat × Instr)) : Bool := l.all fun e => decodeTableWord nbits e.1 == some e.2


/-- Words written out from format NO of R57 and the opcode map of R59. -/
theorem test_decode_no_operands :
    decodesTo 64 [(0x000000000002AABF, Instr.hold ⟨1, 341⟩),
    (0x000000000012AABF, .easy ⟨1, 341⟩),
    (0x0000000004CAAABF, .vresume ⟨1, 341⟩),
    (0x000000000672AABF, .mresume ⟨1, 341⟩)] = true := by decide

/-- Words written out from format CR of R57 and the opcode map of R59. -/
theorem test_decode_catch :
    decodesTo 64 [(0x9E000000000AAABF, Instr.catchCrew ⟨1, 341⟩ ⟨158⟩)] = true := by decide

/-- Words written out from format TK of R57 and the opcode map of R59. -/
theorem test_decode_tasks :
    decodesTo 64 [(0x3E400000001AAABF, Instr.launch ⟨1, 341⟩ ⟨7, 25, 0, 0⟩),
    (0x3E66001FA022AABF, .spawn ⟨1, 341⟩ ⟨7, 25, 19, 506⟩),
    (0x3E400000002AAABF, .join ⟨1, 341⟩ ⟨7, 25, 0, 0⟩),
    (0x064000000032AABF, .tail ⟨1, 341⟩ ⟨0, 25, 0, 0⟩),
    (0x3E400000003AAABF, .setpri ⟨1, 341⟩ ⟨7, 25, 0, 0⟩),
    (0x3E4000005042AABF, .eqsendReserveNext ⟨1, 341⟩ ⟨7, 25, 0, 5⟩),
    (0x3E400000D042AABF, .eqsendReserve ⟨1, 341⟩ ⟨7, 25, 0, 13⟩),
    (0x064000016042AABF, .eqsendPublish ⟨1, 341⟩ ⟨0, 25, 0, 22⟩),
    (0x06400001F042AABF, .eqsendClose ⟨1, 341⟩ ⟨0, 25, 0, 31⟩),
    (0x3E400000604AAABF, .eqrecvTakeNext ⟨1, 341⟩ ⟨7, 25, 0, 6⟩),
    (0x3E400000E04AAABF, .eqrecvTake ⟨1, 341⟩ ⟨7, 25, 0, 14⟩),
    (0x064000007052AABF, .eqfree ⟨1, 341⟩ ⟨0, 25, 0, 7⟩),
    (0x06660000005AAABF, .eqinit ⟨1, 341⟩ ⟨0, 25, 19, 0⟩),
    (0x3E40001FA062AABF, .widf ⟨1, 341⟩ ⟨7, 25, 0, 506⟩),
    (0x3E66001FA06AAABF, .widins ⟨1, 341⟩ ⟨7, 25, 19, 506⟩),
    (0x380000000072AABF, .budget ⟨1, 341⟩ ⟨7, 0, 0, 0⟩),
    (0x3E66001FA07AAABF, .draw ⟨1, 341⟩ ⟨7, 25, 19, 506⟩),
    (0x3E40001FA082AABF, .thallow ⟨1, 341⟩ ⟨7, 25, 0, 506⟩),
    (0x3800001FA08AAABF, .slip ⟨1, 341⟩ ⟨7, 0, 0, 506⟩),
    (0x3E4000000092AABF, .lerr ⟨1, 341⟩ ⟨7, 25, 0, 0⟩)] = true := by decide

/-- Words written out from format SS of R57 and the opcode map of R59. -/
theorem test_decode_system :
    decodesTo 64 [(0x3E4004040102AABF, Instr.ntrap ⟨1, 341⟩ ⟨7, 25, 0, 514⟩),
    (0x00000000010AAABF, .tret ⟨1, 341⟩ ⟨0, 0, 0, 0⟩),
    (0x3E4000000112AABF, .killLaunch ⟨1, 341⟩ ⟨7, 25, 0, 0⟩),
    (0x380000020112AABF, .killContext ⟨1, 341⟩ ⟨7, 0, 0, 1⟩),
    (0x3E400000011AAABF, .quiesce ⟨1, 341⟩ ⟨7, 25, 0, 0⟩),
    (0x3E4000000122AABF, .gate ⟨1, 341⟩ ⟨7, 25, 0, 0⟩),
    (0x3E400000012AAABF, .wake ⟨1, 341⟩ ⟨7, 25, 0, 0⟩),
    (0x000004040132AABF, .brk ⟨1, 341⟩ ⟨0, 0, 0, 514⟩),
    (0x06660000013AAABF, .tlbinvAll ⟨1, 341⟩ ⟨0, 25, 19, 0⟩),
    (0x06660002013AAABF, .tlbinvRange ⟨1, 341⟩ ⟨0, 25, 19, 1⟩),
    (0x3E6600000142AABF, .fltans ⟨1, 341⟩ ⟨7, 25, 19, 0⟩)] = true := by decide

/-- Words written out from format VVV of R57 and the opcode map of R59. -/
theorem test_decode_three_vectors :
    decodesTo 64 [(0x3D8B7CF97202AABF, Instr.vadd ⟨1, 341⟩ ⟨123, 45, 487, 50, 7⟩),
    (0x3D8B7CF9720AAABF, .vsub ⟨1, 341⟩ ⟨123, 45, 487, 50, 7⟩),
    (0x3D8B7CF97212AABF, .vmul ⟨1, 341⟩ ⟨123, 45, 487, 50, 7⟩),
    (0x3D8B7CF9721AAABF, .vfma ⟨1, 341⟩ ⟨123, 45, 487, 50, 7⟩),
    (0x3D8B7CF97222AABF, .vfms ⟨1, 341⟩ ⟨123, 45, 487, 50, 7⟩),
    (0x3D8B7CF9722AAABF, .vfnma ⟨1, 341⟩ ⟨123, 45, 487, 50, 7⟩),
    (0x3D8B7CF97232AABF, .vmin ⟨1, 341⟩ ⟨123, 45, 487, 50, 7⟩),
    (0x3D8B7CF9723AAABF, .vmax ⟨1, 341⟩ ⟨123, 45, 487, 50, 7⟩),
    (0x3D8B7CF97242AABF, .vdiv ⟨1, 341⟩ ⟨123, 45, 487, 50, 7⟩),
    (0x3D8B7CF9724AAABF, .vamin ⟨1, 341⟩ ⟨123, 45, 487, 50, 7⟩),
    (0x3D8B7CF97252AABF, .vamax ⟨1, 341⟩ ⟨123, 45, 487, 50, 7⟩),
    (0x3D8B7CF9725AAABF, .vsadd ⟨1, 341⟩ ⟨123, 45, 487, 50, 7⟩),
    (0x3D8B7CF97262AABF, .vssub ⟨1, 341⟩ ⟨123, 45, 487, 50, 7⟩),
    (0x3D8B7CF9726AAABF, .vmulh ⟨1, 341⟩ ⟨123, 45, 487, 50, 7⟩),
    (0x3D8B7CF97272AABF, .vdot2 ⟨1, 341⟩ ⟨123, 45, 487, 50, 7⟩),
    (0x3D8B7CF9727AAABF, .vdot4 ⟨1, 341⟩ ⟨123, 45, 487, 50, 7⟩),
    (0x3D8B7CF97282AABF, .vand ⟨1, 341⟩ ⟨123, 45, 487, 50, 7⟩),
    (0x3D8B7CF9728AAABF, .vor ⟨1, 341⟩ ⟨123, 45, 487, 50, 7⟩),
    (0x3D8B7CF97292AABF, .vxor ⟨1, 341⟩ ⟨123, 45, 487, 50, 7⟩),
    (0x3D8B7CF9729AAABF, .vandn ⟨1, 341⟩ ⟨123, 45, 487, 50, 7⟩),
    (0x3D8B7CF972A2AABF, .vsll ⟨1, 341⟩ ⟨123, 45, 487, 50, 7⟩),
    (0x3D8B7CF972AAAABF, .vsrl ⟨1, 341⟩ ⟨123, 45, 487, 50, 7⟩),
    (0x3D8B7CF972B2AABF, .vsra ⟨1, 341⟩ ⟨123, 45, 487, 50, 7⟩),
    (0x3D8B7CF972BAAABF, .vsel ⟨1, 341⟩ ⟨123, 45, 487, 50, 7⟩),
    (0x3D8B7CF97442AABF, .vperm ⟨1, 341⟩ ⟨123, 45, 487, 50, 7⟩),
    (0x3D8B7CF97452AABF, .vzip ⟨1, 341⟩ ⟨123, 45, 487, 50, 7⟩),
    (0x3D8B7CF9745AAABF, .vunzip ⟨1, 341⟩ ⟨123, 45, 487, 50, 7⟩),
    (0x3D8B7CF97462AABF, .vtrn ⟨1, 341⟩ ⟨123, 45, 487, 50, 7⟩)] = true := by decide

/-- Words written out from format VVI of R57 and the opcode map of R59. -/
theorem test_decode_vector_immediate :
    decodesTo 64 [(0x3D8B7AFBE2C2AABF, Instr.vaddi ⟨1, 341⟩ ⟨123, 45, 58, 7, 446⟩),
    (0x3D8B7AFBE2CAAABF, .vmini ⟨1, 341⟩ ⟨123, 45, 58, 7, 446⟩),
    (0x3D8B7AFBE2D2AABF, .vmaxi ⟨1, 341⟩ ⟨123, 45, 58, 7, 446⟩),
    (0x3D8B7AFBE2DAAABF, .vandi ⟨1, 341⟩ ⟨123, 45, 58, 7, 446⟩),
    (0x3D8B7AFBE2E2AABF, .vxori ⟨1, 341⟩ ⟨123, 45, 58, 7, 446⟩),
    (0x3D8B7AFBE2EAAABF, .vslli ⟨1, 341⟩ ⟨123, 45, 58, 7, 446⟩),
    (0x3D8B7AFBE2F2AABF, .vsrli ⟨1, 341⟩ ⟨123, 45, 58, 7, 446⟩),
    (0x3D8B7AFBE2FAAABF, .vsrai ⟨1, 341⟩ ⟨123, 45, 58, 7, 446⟩),
    (0x3D8B7AFBE46AAABF, .vslide ⟨1, 341⟩ ⟨123, 45, 58, 7, 446⟩),
    (0x3D8B7AFBE472AABF, .vrotl ⟨1, 341⟩ ⟨123, 45, 58, 7, 446⟩),
    (0x3D8B7AFBE47AAABF, .vbcl ⟨1, 341⟩ ⟨123, 45, 58, 7, 446⟩)] = true := by decide

/-- Words written out from format VVX of R57 and the opcode map of R59. -/
theorem test_decode_vector_scalar :
    decodesTo 64 [(0x3D8B6A970302AABF, Instr.vaddx ⟨1, 341⟩ ⟨123, 45, 21, 18, 7⟩),
    (0x3D8B6A97030AAABF, .vsubx ⟨1, 341⟩ ⟨123, 45, 21, 18, 7⟩),
    (0x3D8B6A970312AABF, .vmulx ⟨1, 341⟩ ⟨123, 45, 21, 18, 7⟩),
    (0x3D8B6A97031AAABF, .vfmax ⟨1, 341⟩ ⟨123, 45, 21, 18, 7⟩),
    (0x3D8B6A970322AABF, .vminx ⟨1, 341⟩ ⟨123, 45, 21, 18, 7⟩),
    (0x3D8B6A97032AAABF, .vmaxx ⟨1, 341⟩ ⟨123, 45, 21, 18, 7⟩),
    (0x3D802A970332AABF, .vbcast ⟨1, 341⟩ ⟨123, 0, 21, 18, 7⟩),
    (0x3D8B6A97033AAABF, .vscalex ⟨1, 341⟩ ⟨123, 45, 21, 18, 7⟩)] = true := by decide

/-- Words written out from format VRD of R57 and the opcode map of R59. -/
theorem test_decode_one_vector :
    decodesTo 64 [(0x3D8B7AE08342AABF, Instr.vfn ⟨1, 341⟩ ⟨123, 45, 58, 7, 1⟩),
    (0x3D8B7AE0034AAABF, .vneg ⟨1, 341⟩ ⟨123, 45, 58, 7, 0⟩),
    (0x3D8B7AE00352AABF, .vabs ⟨1, 341⟩ ⟨123, 45, 58, 7, 0⟩),
    (0x3D8B7AE0035AAABF, .vclass ⟨1, 341⟩ ⟨123, 45, 58, 7, 0⟩),
    (0x3D8B7AE08362AABF, .vbits ⟨1, 341⟩ ⟨123, 45, 58, 7, 1⟩),
    (0x3D8B7AE00382AABF, .vrsum ⟨1, 341⟩ ⟨123, 45, 58, 7, 0⟩),
    (0x3D8B7AE0038AAABF, .vrmax ⟨1, 341⟩ ⟨123, 45, 58, 7, 0⟩),
    (0x3D8B7AE00392AABF, .vrmin ⟨1, 341⟩ ⟨123, 45, 58, 7, 0⟩),
    (0x3D8B7AE0039AAABF, .vramax ⟨1, 341⟩ ⟨123, 45, 58, 7, 0⟩),
    (0x3D8B7AE003A2AABF, .vscan ⟨1, 341⟩ ⟨123, 45, 58, 7, 0⟩),
    (0x3D8B7AE0043AAABF, .vmov ⟨1, 341⟩ ⟨123, 45, 58, 7, 0⟩),
    (0x3D8B7AE0044AAABF, .vrev ⟨1, 341⟩ ⟨123, 45, 58, 7, 0⟩)] = true := by decide

/-- Words written out from format VCV of R57 and the opcode map of R59. -/
theorem test_decode_conversions :
    decodesTo 64 [(0x3D8B7A13F36AAABF, Instr.vcvt ⟨1, 341⟩ ⟨123, 45, 58, 1, 3, 7, 1⟩),
    (0x3D8B7A13F372AABF, .vrint ⟨1, 341⟩ ⟨123, 45, 58, 1, 3, 7, 1⟩)] = true := by decide

/-- Words written out from format PVV of R57 and the opcode map of R59. -/
theorem test_decode_compares :
    decodesTo 64 [(0x108BFF2BB3AAAABF, Instr.vcmp ⟨1, 341⟩ ⟨4, 69, 511, 10, 7, 3⟩)] = true := by decide

/-- Words written out from format VMA of R57 and the opcode map of R59. -/
theorem test_decode_vector_memory :
    decodesTo 64 [(0x4DEDAA1BF402AABF, Instr.vld ⟨1, 341⟩ ⟨155, 27, 26, 10, 447⟩),
    (0x4DEDAA1BF40AAABF, .vst ⟨1, 341⟩ ⟨155, 27, 26, 10, 447⟩)] = true := by decide

/-- Words written out from format VG of R57 and the opcode map of R59. -/
theorem test_decode_gathers :
    decodesTo 64 [(0x4DEC2A915412AABF, Instr.vgath ⟨1, 341⟩ ⟨155, 27, 21, 18, 2, 5⟩),
    (0x4DEC2A91541AAABF, .vscat ⟨1, 341⟩ ⟨155, 27, 21, 18, 2, 5⟩),
    (0x4DEC2A915422AABF, .vscadd ⟨1, 341⟩ ⟨155, 27, 21, 18, 2, 5⟩)] = true := by decide

/-- Words written out from format PXF of R57 and the opcode map of R59. -/
theorem test_decode_predicate_counts :
    decodesTo 64 [(0x02E90C00042AAABF, Instr.rqrel ⟨1, 341⟩ ⟨0, 23, 9, 0, 6⟩),
    (0x02E90C000432AABF, .rqstat ⟨1, 341⟩ ⟨0, 23, 9, 0, 6⟩),
    (0x12E0E000048AAABF, .pcnt ⟨1, 341⟩ ⟨4, 23, 0, 7, 0⟩),
    (0x12E0EC000492AABF, .pfirst ⟨1, 341⟩ ⟨4, 23, 0, 7, 6⟩),
    (0x1009EC00049AAABF, .pfromx ⟨1, 341⟩ ⟨4, 0, 9, 7, 6⟩),
    (0x12E0EC0004A2AABF, .ptox ⟨1, 341⟩ ⟨4, 23, 0, 7, 6⟩),
    (0x12E9E00004AAAABF, .pwhile ⟨1, 341⟩ ⟨4, 23, 9, 7, 0⟩)] = true := by decide

/-- Words written out from format PPP of R57 and the opcode map of R59. -/
theorem test_decode_plog :
    decodesTo 64 [(0x10E832DE0482AABF, Instr.plog ⟨1, 341⟩ ⟨4, 14, 32, 50, 222⟩)] = true := by decide

/-- Words written out from format BR of R57 and the opcode map of R59. -/
theorem test_decode_loopb :
    decodesTo 64 [(0x00025B0004C2AABF, Instr.loopb ⟨1, 341⟩ ⟨603⟩)] = true := by decide

/-- Words written out from format MT of R57 and the opcode map of R59. -/
theorem test_decode_multiplies :
    decodesTo 64 [(0x17B06CCCF602AABF, Instr.mmaE4m3 ⟨1, 341⟩ ⟨1, 30, 48, 13, 9, 153, 1, 1, 1⟩),
    (0x17B06CCCF60AAABF, .mmaE5m2 ⟨1, 341⟩ ⟨1, 30, 48, 13, 9, 153, 1, 1, 1⟩),
    (0x17B06CCCF612AABF, .mmaInt8 ⟨1, 341⟩ ⟨1, 30, 48, 13, 9, 153, 1, 1, 1⟩),
    (0x17B06CCCF61AAABF, .mmaBf16 ⟨1, 341⟩ ⟨1, 30, 48, 13, 9, 153, 1, 1, 1⟩),
    (0x17B06CCCF622AABF, .mmaFp16 ⟨1, 341⟩ ⟨1, 30, 48, 13, 9, 153, 1, 1, 1⟩),
    (0x17B06CCCF62AAABF, .mmaMxfp8 ⟨1, 341⟩ ⟨1, 30, 48, 13, 9, 153, 1, 1, 1⟩),
    (0x17B06CCCF632AABF, .mmaMxfp6 ⟨1, 341⟩ ⟨1, 30, 48, 13, 9, 153, 1, 1, 1⟩),
    (0x17B06CCCF63AAABF, .mmaMxfp4 ⟨1, 341⟩ ⟨1, 30, 48, 13, 9, 153, 1, 1, 1⟩),
    (0x17B06CCCF642AABF, .mmaMxint8 ⟨1, 341⟩ ⟨1, 30, 48, 13, 9, 153, 1, 1, 1⟩),
    (0x17B06CCCF64AAABF, .mmaTern ⟨1, 341⟩ ⟨1, 30, 48, 13, 9, 153, 1, 1, 1⟩)] = true := by decide

/-- Words written out from format MS of R57 and the opcode map of R59. -/
theorem test_decode_slots :
    decodesTo 64 [(0x880010000652AABF, Instr.mclaim ⟨1, 341⟩ ⟨34, 0, 1, 0⟩),
    (0x88001000065AAABF, .mrel ⟨1, 341⟩ ⟨34, 0, 1, 0⟩),
    (0x8A601A000662AABF, .mload ⟨1, 341⟩ ⟨34, 19, 1, 10⟩),
    (0x88001000066AAABF, .mzero ⟨1, 341⟩ ⟨34, 0, 1, 0⟩)] = true := by decide

/-- Words written out from format AS of R57 and the opcode map of R59. -/
theorem test_decode_accumulators :
    decodesTo 64 [(0x1194FC400682AABF, Instr.astore ⟨1, 341⟩ ⟨1, 3, 5, 3, 7, 1, 1⟩),
    (0x1194FC40068AAABF, .astoreT ⟨1, 341⟩ ⟨1, 3, 5, 3, 7, 1, 1⟩),
    (0x100000400692AABF, .aclr ⟨1, 341⟩ ⟨1, 0, 0, 0, 0, 0, 1⟩),
    (0x1194FC40069AAABF, .aload ⟨1, 341⟩ ⟨1, 3, 5, 3, 7, 1, 1⟩)] = true := by decide

/-- Words written out from format CP of R57 and the opcode map of R59. -/
theorem test_decode_copies :
    decodesTo 64 [(0xA2B388000802AABF, Instr.copy ⟨1, 341⟩ ⟨2, 17, 11, 7, 1⟩),
    (0xA2038000080AAABF, .binscat ⟨1, 341⟩ ⟨2, 17, 0, 7, 0⟩),
    (0xA2B380000812AABF, .migrate ⟨1, 341⟩ ⟨2, 17, 11, 7, 0⟩),
    (0x80000000081AAABF, .cresume ⟨1, 341⟩ ⟨2, 0, 0, 0, 0⟩),
    (0x800380000822AABF, .cstatTl ⟨1, 341⟩ ⟨2, 0, 0, 7, 0⟩),
    (0x800388000822AABF, .cstatStatus ⟨1, 341⟩ ⟨2, 0, 0, 7, 1⟩),
    (0x22B00000082AAABF, .binset ⟨1, 341⟩ ⟨0, 17, 11, 0, 0⟩),
    (0x22B380000832AABF, .bindrop ⟨1, 341⟩ ⟨0, 17, 11, 7, 0⟩)] = true := by decide

/-- Words written out from format SB of R57 and the opcode map of R59. -/
theorem test_decode_streams :
    decodesTo 64 [(0x182200000842AABF, Instr.sbind ⟨1, 341⟩ ⟨3, 0, 17, 0⟩),
    (0x18220000084AAABF, .sunbind ⟨1, 341⟩ ⟨3, 0, 17, 0⟩),
    (0x180000000852AABF, .sflush ⟨1, 341⟩ ⟨3, 0, 0, 0⟩),
    (0x18220000085AAABF, .sskip ⟨1, 341⟩ ⟨3, 0, 17, 0⟩),
    (0x1FC000000862AABF, .smaxr ⟨1, 341⟩ ⟨3, 31, 0, 0⟩),
    (0x1FC00000086AAABF, .smaxc ⟨1, 341⟩ ⟨3, 31, 0, 0⟩),
    (0x1FC000000872AABF, .sstat ⟨1, 341⟩ ⟨3, 31, 0, 0⟩),
    (0x07E200000882AABF, .sptest ⟨1, 341⟩ ⟨0, 31, 17, 0⟩),
    (0x07E28000088AAABF, .spcast ⟨1, 341⟩ ⟨0, 31, 17, 2⟩)] = true := by decide

/-- Words written out from format GR of R57 and the opcode map of R59. -/
theorem test_decode_collectives :
    decodesTo 64 [(0x3E4010000A02AABF, Instr.grpsetWrite ⟨1, 341⟩ ⟨7, 25, 0, 8, 0, 0, 0⟩),
    (0x3E4010100A02AABF, .grpsetClaim ⟨1, 341⟩ ⟨7, 25, 0, 8, 0, 1, 0⟩),
    (0x3E4010200A02AABF, .grpsetRelease ⟨1, 341⟩ ⟨7, 25, 0, 8, 0, 2, 0⟩),
    (0x3E4010000A0AAABF, .grpgetStore ⟨1, 341⟩ ⟨7, 25, 0, 8, 0, 0, 0⟩),
    (0x3E4010100A0AAABF, .grpgetWord ⟨1, 341⟩ ⟨7, 25, 0, 8, 0, 1, 0⟩),
    (0x3E66112A0A12AABF, .allred ⟨1, 341⟩ ⟨7, 25, 19, 8, 1, 2, 10⟩),
    (0x3E66112A0A1AAABF, .redsc ⟨1, 341⟩ ⟨7, 25, 19, 8, 1, 2, 10⟩),
    (0x3E66112A0A22AABF, .allgat ⟨1, 341⟩ ⟨7, 25, 19, 8, 1, 2, 10⟩),
    (0x3E66112A0A2AAABF, .bcast ⟨1, 341⟩ ⟨7, 25, 19, 8, 1, 2, 10⟩),
    (0x3E4011000A32AABF, .owrite ⟨1, 341⟩ ⟨7, 25, 0, 8, 1, 0, 0⟩),
    (0x3E4011000A3AAABF, .owred ⟨1, 341⟩ ⟨7, 25, 0, 8, 1, 0, 0⟩),
    (0x3E4010200A42AABF, .qparm ⟨1, 341⟩ ⟨7, 25, 0, 8, 0, 2, 0⟩),
    (0x3E4010000A4AAABF, .rndwait ⟨1, 341⟩ ⟨7, 25, 0, 8, 0, 0, 0⟩),
    (0x3E4010200A52AABF, .slackr ⟨1, 341⟩ ⟨7, 25, 0, 8, 0, 2, 0⟩),
    (0x380001000A5AAABF, .kresume ⟨1, 341⟩ ⟨7, 0, 0, 0, 1, 0, 0⟩)] = true := by decide

/-- Words written out from format SC of R57 and the opcode map of R59. -/
theorem test_decode_scopes :
    decodesTo 64 [(0x400000000C02AABF, Instr.fenceSc ⟨1, 341⟩ ⟨2, 0, 0⟩),
    (0x400000000C0AAABF, .fenceRel ⟨1, 341⟩ ⟨2, 0, 0⟩),
    (0x400000000C12AABF, .fenceAcq ⟨1, 341⟩ ⟨2, 0, 0⟩),
    (0x4F0000000C1AAABF, .pfence ⟨1, 341⟩ ⟨2, 15, 0⟩),
    (0x4F0800000C22AABF, .efence ⟨1, 341⟩ ⟨2, 15, 1⟩),
    (0x4F0000000C2AAABF, .vouch ⟨1, 341⟩ ⟨2, 15, 0⟩)] = true := by decide

/-- Words written out from format TL of R57 and the opcode map of R59. -/
theorem test_decode_timelines :
    decodesTo 64 [(0x4F0800000C32AABF, Instr.waittl ⟨1, 341⟩ ⟨2, 15, 1⟩),
    (0x4F0000000C3AAABF, .tlread ⟨1, 341⟩ ⟨2, 15, 0⟩)] = true := by decide

/-- Words written out from format SM of R57 and the opcode map of R59. -/
theorem test_decode_semaphores :
    decodesTo 64 [(0x39C004000C42AABF, Instr.semLd ⟨1, 341⟩ ⟨7, 7, 0, 0, 2⟩),
    (0x01E204000C4AAABF, .semSt ⟨1, 341⟩ ⟨0, 7, 17, 0, 2⟩),
    (0x39E204000C52AABF, .semAdd ⟨1, 341⟩ ⟨7, 7, 17, 0, 2⟩),
    (0x39E2B4000C5AAABF, .semCas ⟨1, 341⟩ ⟨7, 7, 17, 11, 2⟩),
    (0x39E204000C62AABF, .semMax ⟨1, 341⟩ ⟨7, 7, 17, 0, 2⟩),
    (0x39E204000C6AAABF, .semSwap ⟨1, 341⟩ ⟨7, 7, 17, 0, 2⟩),
    (0x01E204000C72AABF, .semWait ⟨1, 341⟩ ⟨0, 7, 17, 0, 2⟩),
    (0x39E2B4000C7AAABF, .bump ⟨1, 341⟩ ⟨7, 7, 17, 11, 2⟩)] = true := by decide

/-- Words written out from format MA of R57 and the opcode map of R59. -/
theorem test_decode_home_accesses :
    decodesTo 64 [(0x3E54001ECC82AABF, Instr.ldacq ⟨1, 341⟩ ⟨7, 25, 1, 2, 492⟩),
    (0x3E54001ECC8AAABF, .strel ⟨1, 341⟩ ⟨7, 25, 1, 2, 492⟩)] = true := by decide

/-- Words written out from the RISC-V tables (R64). -/
theorem test_decode_rv_register :
    decodesTo 32 [(0x007302B3, Instr.rv64Instruction (.reg .add 5 6 7)),
    (0x407302B3, .rv64Instruction (.reg .sub 5 6 7)),
    (0x007312B3, .rv64Instruction (.reg .sll 5 6 7)),
    (0x007322B3, .rv64Instruction (.reg .slt 5 6 7)),
    (0x007332B3, .rv64Instruction (.reg .sltu 5 6 7)),
    (0x007342B3, .rv64Instruction (.reg .xor 5 6 7)),
    (0x007352B3, .rv64Instruction (.reg .srl 5 6 7)),
    (0x407352B3, .rv64Instruction (.reg .sra 5 6 7)),
    (0x007362B3, .rv64Instruction (.reg .or 5 6 7)),
    (0x007372B3, .rv64Instruction (.reg .and 5 6 7)),
    (0x027302B3, .rv64Instruction (.reg .mul 5 6 7)),
    (0x027312B3, .rv64Instruction (.reg .mulh 5 6 7)),
    (0x027322B3, .rv64Instruction (.reg .mulhsu 5 6 7)),
    (0x027332B3, .rv64Instruction (.reg .mulhu 5 6 7)),
    (0x027342B3, .rv64Instruction (.reg .div 5 6 7)),
    (0x027352B3, .rv64Instruction (.reg .divu 5 6 7)),
    (0x027362B3, .rv64Instruction (.reg .rem 5 6 7)),
    (0x027372B3, .rv64Instruction (.reg .remu 5 6 7)),
    (0x207322B3, .rv64Instruction (.reg .sh1add 5 6 7)),
    (0x207342B3, .rv64Instruction (.reg .sh2add 5 6 7)),
    (0x207362B3, .rv64Instruction (.reg .sh3add 5 6 7)),
    (0x407372B3, .rv64Instruction (.reg .andn 5 6 7)),
    (0x407362B3, .rv64Instruction (.reg .orn 5 6 7)),
    (0x407342B3, .rv64Instruction (.reg .xnor 5 6 7)),
    (0x0A7342B3, .rv64Instruction (.reg .min 5 6 7)),
    (0x0A7352B3, .rv64Instruction (.reg .minu 5 6 7)),
    (0x0A7362B3, .rv64Instruction (.reg .max 5 6 7)),
    (0x0A7372B3, .rv64Instruction (.reg .maxu 5 6 7)),
    (0x607312B3, .rv64Instruction (.reg .rol 5 6 7)),
    (0x607352B3, .rv64Instruction (.reg .ror 5 6 7)),
    (0x007302BB, .rv64Instruction (.reg .addw 5 6 7)),
    (0x407302BB, .rv64Instruction (.reg .subw 5 6 7)),
    (0x007312BB, .rv64Instruction (.reg .sllw 5 6 7)),
    (0x007352BB, .rv64Instruction (.reg .srlw 5 6 7)),
    (0x407352BB, .rv64Instruction (.reg .sraw 5 6 7)),
    (0x027302BB, .rv64Instruction (.reg .mulw 5 6 7)),
    (0x027342BB, .rv64Instruction (.reg .divw 5 6 7)),
    (0x027352BB, .rv64Instruction (.reg .divuw 5 6 7)),
    (0x027362BB, .rv64Instruction (.reg .remw 5 6 7)),
    (0x027372BB, .rv64Instruction (.reg .remuw 5 6 7)),
    (0x087302BB, .rv64Instruction (.reg .addUw 5 6 7)),
    (0x207322BB, .rv64Instruction (.reg .sh1addUw 5 6 7)),
    (0x207342BB, .rv64Instruction (.reg .sh2addUw 5 6 7)),
    (0x207362BB, .rv64Instruction (.reg .sh3addUw 5 6 7)),
    (0x607312BB, .rv64Instruction (.reg .rolw 5 6 7)),
    (0x607352BB, .rv64Instruction (.reg .rorw 5 6 7))] = true := by decide

/-- Words written out from the RISC-V tables (R64). -/
theorem test_decode_rv_immediate :
    decodesTo 32 [(0x8F330293, Instr.rv64Instruction (.imm .addi 5 6 0x8F3)),
    (0x8F332293, .rv64Instruction (.imm .slti 5 6 0x8F3)),
    (0x8F333293, .rv64Instruction (.imm .sltiu 5 6 0x8F3)),
    (0x8F334293, .rv64Instruction (.imm .xori 5 6 0x8F3)),
    (0x8F336293, .rv64Instruction (.imm .ori 5 6 0x8F3)),
    (0x8F337293, .rv64Instruction (.imm .andi 5 6 0x8F3)),
    (0x8F33029B, .rv64Instruction (.imm .addiw 5 6 0x8F3)),
    (0x02B31293, .rv64Instruction (.sh .slli 5 6 0x2B)),
    (0x02B35293, .rv64Instruction (.sh .srli 5 6 0x2B)),
    (0x42B35293, .rv64Instruction (.sh .srai 5 6 0x2B)),
    (0x62B35293, .rv64Instruction (.sh .rori 5 6 0x2B)),
    (0x0AB3129B, .rv64Instruction (.sh .slliUw 5 6 0x2B)),
    (0x0133129B, .rv64Instruction (.shw .slliw 5 6 0x13)),
    (0x0133529B, .rv64Instruction (.shw .srliw 5 6 0x13)),
    (0x4133529B, .rv64Instruction (.shw .sraiw 5 6 0x13)),
    (0x6133529B, .rv64Instruction (.shw .roriw 5 6 0x13)),
    (0x60031293, .rv64Instruction (.un .clz 5 6)),
    (0x60131293, .rv64Instruction (.un .ctz 5 6)),
    (0x60231293, .rv64Instruction (.un .cpop 5 6)),
    (0x60431293, .rv64Instruction (.un .sextB 5 6)),
    (0x60531293, .rv64Instruction (.un .sextH 5 6)),
    (0x6003129B, .rv64Instruction (.un .clzw 5 6)),
    (0x6013129B, .rv64Instruction (.un .ctzw 5 6)),
    (0x6023129B, .rv64Instruction (.un .cpopw 5 6)),
    (0x28735293, .rv64Instruction (.un .orcB 5 6)),
    (0x6B835293, .rv64Instruction (.un .rev8 5 6)),
    (0x080342BB, .rv64Instruction (.un .zextH 5 6)),
    (0x876542B7, .rv64Instruction (.lui 5 0x87654)),
    (0x87654297, .rv64Instruction (.auipc 5 0x87654))] = true := by decide

/-- Words written out from the RISC-V tables (R64). -/
theorem test_decode_rv_control_and_memory :
    decodesTo 32 [(0xCBDED0EF, Instr.rv64Instruction (.jal 1 1011294)),
    (0x8F3300E7, .rv64Instruction (.jalr 1 6 0x8F3)),
    (0xDC7306E3, .rv64Instruction (.branch .beq 6 7 3814)),
    (0xDC7316E3, .rv64Instruction (.branch .bne 6 7 3814)),
    (0xDC7346E3, .rv64Instruction (.branch .blt 6 7 3814)),
    (0xDC7356E3, .rv64Instruction (.branch .bge 6 7 3814)),
    (0xDC7366E3, .rv64Instruction (.branch .bltu 6 7 3814)),
    (0xDC7376E3, .rv64Instruction (.branch .bgeu 6 7 3814)),
    (0x8F330283, .rv64Load .lb 5 6 0x8F3),
    (0x8F331283, .rv64Load .lh 5 6 0x8F3),
    (0x8F332283, .rv64Load .lw 5 6 0x8F3),
    (0x8F333283, .rv64Load .ld 5 6 0x8F3),
    (0x8F334283, .rv64Load .lbu 5 6 0x8F3),
    (0x8F335283, .rv64Load .lhu 5 6 0x8F3),
    (0x8F336283, .rv64Load .lwu 5 6 0x8F3),
    (0x8E7309A3, .rv64Store .sb 6 7 0x8F3),
    (0x8E7319A3, .rv64Store .sh 6 7 0x8F3),
    (0x8E7329A3, .rv64Store .sw 6 7 0x8F3),
    (0x8E7339A3, .rv64Store .sd 6 7 0x8F3)] = true := by decide

/-- Words written out from the RISC-V tables (R64). -/
theorem test_decode_rv_atomic_and_system :
    decodesTo 32 [(0x0A7322AF, Instr.amo .swap false false true 5 6 7),
    (0x027332AF, .amo .add true false true 5 6 7),
    (0x247322AF, .amo .xor false true false 5 6 7),
    (0x647332AF, .amo .and true true false 5 6 7),
    (0x427322AF, .amo .or false false true 5 6 7),
    (0x827332AF, .amo .min true false true 5 6 7),
    (0xA47322AF, .amo .max false true false 5 6 7),
    (0xC47332AF, .amo .minu true true false 5 6 7),
    (0xE27322AF, .amo .maxu false false true 5 6 7),
    (0x140332AF, .lr true true false 5 6),
    (0x1A7322AF, .sc false false true 5 6 7),
    (0x0330000F, .rvFence 0 3 3 0 0),
    (0x8330000F, .rvFence 8 3 3 0 0),
    (0x0000100F, .fenceI 0 0 0),
    (0x800312F3, .csrrw 5 0x800 6),
    (0x800322F3, .csrrs 5 0x800 6),
    (0x800332F3, .csrrc 5 0x800 6),
    (0x800352F3, .csrrwi 5 0x800 6),
    (0x800362F3, .csrrsi 5 0x800 6),
    (0x800372F3, .csrrci 5 0x800 6),
    (0x00000073, .ecall),
    (0x00100073, .ebreak)] = true := by decide

/-- Words that no row of the tables gives are refused: a zero parcel, a Nuten word with opcode 63, format NO with a reserved bit
set, V = 3 (R48, R57, R59, R60). -/
theorem test_decode_refused :
    decodeTableWord 32 0 = none ∧ decodeTableWord 64 0x0000000001FAAABF = none ∧ decodeTableWord 64 0x800000000002AABF = none
    ∧ decodeTableWord 64 0x000000000002ABBF = none ∧ decodeTableWord 32 0xFFFFFFFF = none := by decide

/-- V = 3 is refused for every Nuten word (R48). -/
theorem test_wf_crew_code_1 :
    ([Instr.hold ⟨3, 0⟩, .catchCrew ⟨3, 0⟩ ⟨0⟩, .easy ⟨3, 0⟩, .launch ⟨3, 0⟩ ⟨0, 0, 0, 0⟩, .spawn ⟨3, 0⟩ ⟨0, 0, 0, 0⟩,
    .join ⟨3, 0⟩ ⟨0, 0, 0, 0⟩, .tail ⟨3, 0⟩ ⟨0, 0, 0, 0⟩, .setpri ⟨3, 0⟩ ⟨0, 0, 0, 0⟩,
    .eqsendReserveNext ⟨3, 0⟩ ⟨0, 0, 0, 0⟩, .eqsendReserve ⟨3, 0⟩ ⟨0, 0, 0, 8⟩, .eqsendPublish ⟨3, 0⟩ ⟨0, 0, 0, 16⟩,
    .eqsendClose ⟨3, 0⟩ ⟨0, 0, 0, 24⟩, .eqrecvTakeNext ⟨3, 0⟩ ⟨0, 0, 0, 0⟩, .eqrecvTake ⟨3, 0⟩ ⟨0, 0, 0, 8⟩,
    .eqfree ⟨3, 0⟩ ⟨0, 0, 0, 0⟩, .eqinit ⟨3, 0⟩ ⟨0, 0, 0, 0⟩, .widf ⟨3, 0⟩ ⟨0, 0, 0, 0⟩, .widins ⟨3, 0⟩ ⟨0, 0, 0, 0⟩,
    .budget ⟨3, 0⟩ ⟨0, 0, 0, 0⟩, .draw ⟨3, 0⟩ ⟨0, 0, 0, 0⟩, .thallow ⟨3, 0⟩ ⟨0, 0, 0, 0⟩, .slip ⟨3, 0⟩ ⟨0, 0, 0, 0⟩,
    .lerr ⟨3, 0⟩ ⟨0, 0, 0, 0⟩, .ntrap ⟨3, 0⟩ ⟨0, 0, 0, 0⟩, .tret ⟨3, 0⟩ ⟨0, 0, 0, 0⟩, .killLaunch ⟨3, 0⟩ ⟨0, 0, 0, 0⟩,
    .killContext ⟨3, 0⟩ ⟨0, 0, 0, 1⟩, .quiesce ⟨3, 0⟩ ⟨0, 0, 0, 0⟩, .gate ⟨3, 0⟩ ⟨0, 0, 0, 0⟩, .wake ⟨3, 0⟩ ⟨0, 0, 0, 0⟩,
    .brk ⟨3, 0⟩ ⟨0, 0, 0, 0⟩, .tlbinvAll ⟨3, 0⟩ ⟨0, 0, 0, 0⟩, .tlbinvRange ⟨3, 0⟩ ⟨0, 0, 0, 1⟩,
    .fltans ⟨3, 0⟩ ⟨0, 0, 0, 0⟩, .vadd ⟨3, 0⟩ ⟨0, 0, 0, 0, 0⟩, .vsub ⟨3, 0⟩ ⟨0, 0, 0, 0, 0⟩,
    .vmul ⟨3, 0⟩ ⟨0, 0, 0, 0, 0⟩, .vfma ⟨3, 0⟩ ⟨0, 0, 0, 0, 0⟩, .vfms ⟨3, 0⟩ ⟨0, 0, 0, 0, 0⟩,
    .vfnma ⟨3, 0⟩ ⟨0, 0, 0, 0, 0⟩, .vmin ⟨3, 0⟩ ⟨0, 0, 0, 0, 0⟩, .vmax ⟨3, 0⟩ ⟨0, 0, 0, 0, 0⟩,
    .vdiv ⟨3, 0⟩ ⟨0, 0, 0, 0, 0⟩, .vamin ⟨3, 0⟩ ⟨0, 0, 0, 0, 0⟩, .vamax ⟨3, 0⟩ ⟨0, 0, 0, 0, 0⟩,
    .vsadd ⟨3, 0⟩ ⟨0, 0, 0, 0, 0⟩, .vssub ⟨3, 0⟩ ⟨0, 0, 0, 0, 0⟩, .vmulh ⟨3, 0⟩ ⟨0, 0, 0, 0, 0⟩,
    .vdot2 ⟨3, 0⟩ ⟨0, 0, 0, 0, 0⟩, .vdot4 ⟨3, 0⟩ ⟨0, 0, 0, 0, 0⟩, .vand ⟨3, 0⟩ ⟨0, 0, 0, 0, 0⟩,
    .vor ⟨3, 0⟩ ⟨0, 0, 0, 0, 0⟩, .vxor ⟨3, 0⟩ ⟨0, 0, 0, 0, 0⟩, .vandn ⟨3, 0⟩ ⟨0, 0, 0, 0, 0⟩,
    .vsll ⟨3, 0⟩ ⟨0, 0, 0, 0, 0⟩, .vsrl ⟨3, 0⟩ ⟨0, 0, 0, 0, 0⟩, .vsra ⟨3, 0⟩ ⟨0, 0, 0, 0, 0⟩,
    .vsel ⟨3, 0⟩ ⟨0, 0, 0, 0, 0⟩, .vaddi ⟨3, 0⟩ ⟨0, 0, 0, 0, 0⟩, .vmini ⟨3, 0⟩ ⟨0, 0, 0, 0, 0⟩,
    .vmaxi ⟨3, 0⟩ ⟨0, 0, 0, 0, 0⟩, .vandi ⟨3, 0⟩ ⟨0, 0, 0, 0, 0⟩, .vxori ⟨3, 0⟩ ⟨0, 0, 0, 0, 0⟩,
    .vslli ⟨3, 0⟩ ⟨0, 0, 0, 0, 0⟩, .vsrli ⟨3, 0⟩ ⟨0, 0, 0, 0, 0⟩, .vsrai ⟨3, 0⟩ ⟨0, 0, 0, 0, 0⟩,
    .vaddx ⟨3, 0⟩ ⟨0, 0, 0, 0, 0⟩, .vsubx ⟨3, 0⟩ ⟨0, 0, 0, 0, 0⟩, .vmulx ⟨3, 0⟩ ⟨0, 0, 0, 0, 0⟩,
    .vfmax ⟨3, 0⟩ ⟨0, 0, 0, 0, 0⟩, .vminx ⟨3, 0⟩ ⟨0, 0, 0, 0, 0⟩, .vmaxx ⟨3, 0⟩ ⟨0, 0, 0, 0, 0⟩,
    .vbcast ⟨3, 0⟩ ⟨0, 0, 0, 0, 0⟩, .vscalex ⟨3, 0⟩ ⟨0, 0, 0, 0, 0⟩, .vfn ⟨3, 0⟩ ⟨0, 0, 0, 0, 0⟩,
    .vneg ⟨3, 0⟩ ⟨0, 0, 0, 0, 0⟩, .vabs ⟨3, 0⟩ ⟨0, 0, 0, 0, 0⟩, .vclass ⟨3, 0⟩ ⟨0, 0, 0, 0, 0⟩,
    .vbits ⟨3, 0⟩ ⟨0, 0, 0, 0, 0⟩, .vcvt ⟨3, 0⟩ ⟨0, 0, 0, 0, 0, 0, 0⟩, .vrint ⟨3, 0⟩ ⟨0, 0, 0, 0, 0, 0, 0⟩,
    .vrsum ⟨3, 0⟩ ⟨0, 0, 0, 0, 0⟩, .vrmax ⟨3, 0⟩ ⟨0, 0, 0, 0, 0⟩, .vrmin ⟨3, 0⟩ ⟨0, 0, 0, 0, 0⟩,
    .vramax ⟨3, 0⟩ ⟨0, 0, 0, 0, 0⟩, .vscan ⟨3, 0⟩ ⟨0, 0, 0, 0, 0⟩, .vcmp ⟨3, 0⟩ ⟨0, 0, 0, 0, 0, 0⟩,
    .vld ⟨3, 0⟩ ⟨0, 0, 0, 0, 0⟩, .vst ⟨3, 0⟩ ⟨0, 0, 0, 0, 0⟩, .vgath ⟨3, 0⟩ ⟨0, 0, 0, 0, 0, 0⟩]).all (fun i => !WellFormed i) = true := by
  decide

/-- V = 3 is refused for every Nuten word (R48). -/
theorem test_wf_crew_code_2 :
    ([Instr.vscat ⟨3, 0⟩ ⟨0, 0, 0, 0, 0, 0⟩, .vscadd ⟨3, 0⟩ ⟨0, 0, 0, 0, 0, 0⟩, .rqrel ⟨3, 0⟩ ⟨0, 0, 0, 0, 0⟩,
    .rqstat ⟨3, 0⟩ ⟨0, 0, 0, 0, 0⟩, .vmov ⟨3, 0⟩ ⟨0, 0, 0, 0, 0⟩, .vperm ⟨3, 0⟩ ⟨0, 0, 0, 0, 0⟩,
    .vrev ⟨3, 0⟩ ⟨0, 0, 0, 0, 0⟩, .vzip ⟨3, 0⟩ ⟨0, 0, 0, 0, 0⟩, .vunzip ⟨3, 0⟩ ⟨0, 0, 0, 0, 0⟩,
    .vtrn ⟨3, 0⟩ ⟨0, 0, 0, 0, 0⟩, .vslide ⟨3, 0⟩ ⟨0, 0, 0, 0, 0⟩, .vrotl ⟨3, 0⟩ ⟨0, 0, 0, 0, 0⟩,
    .vbcl ⟨3, 0⟩ ⟨0, 0, 0, 0, 0⟩, .plog ⟨3, 0⟩ ⟨0, 0, 0, 0, 0⟩, .pcnt ⟨3, 0⟩ ⟨0, 0, 0, 0, 0⟩,
    .pfirst ⟨3, 0⟩ ⟨0, 0, 0, 0, 0⟩, .pfromx ⟨3, 0⟩ ⟨0, 0, 0, 0, 0⟩, .ptox ⟨3, 0⟩ ⟨0, 0, 0, 0, 0⟩,
    .pwhile ⟨3, 0⟩ ⟨0, 0, 0, 0, 0⟩, .loopb ⟨3, 0⟩ ⟨0⟩, .vresume ⟨3, 0⟩, .mmaE4m3 ⟨3, 0⟩ ⟨0, 0, 0, 0, 0, 0, 0, 0, 0⟩,
    .mmaE5m2 ⟨3, 0⟩ ⟨0, 0, 0, 0, 0, 0, 0, 0, 0⟩, .mmaInt8 ⟨3, 0⟩ ⟨0, 0, 0, 0, 0, 0, 0, 0, 0⟩,
    .mmaBf16 ⟨3, 0⟩ ⟨0, 0, 0, 0, 0, 0, 0, 0, 0⟩, .mmaFp16 ⟨3, 0⟩ ⟨0, 0, 0, 0, 0, 0, 0, 0, 0⟩,
    .mmaMxfp8 ⟨3, 0⟩ ⟨0, 0, 0, 0, 0, 0, 0, 0, 0⟩, .mmaMxfp6 ⟨3, 0⟩ ⟨0, 0, 0, 0, 0, 0, 0, 0, 0⟩,
    .mmaMxfp4 ⟨3, 0⟩ ⟨0, 0, 0, 0, 0, 0, 0, 0, 0⟩, .mmaMxint8 ⟨3, 0⟩ ⟨0, 0, 0, 0, 0, 0, 0, 0, 0⟩,
    .mmaTern ⟨3, 0⟩ ⟨0, 0, 0, 0, 0, 0, 0, 0, 0⟩, .mclaim ⟨3, 0⟩ ⟨0, 0, 0, 0⟩, .mrel ⟨3, 0⟩ ⟨0, 0, 0, 0⟩,
    .mload ⟨3, 0⟩ ⟨0, 0, 0, 0⟩, .mzero ⟨3, 0⟩ ⟨0, 0, 0, 0⟩, .mresume ⟨3, 0⟩, .astore ⟨3, 0⟩ ⟨0, 0, 0, 0, 0, 0, 0⟩,
    .astoreT ⟨3, 0⟩ ⟨0, 0, 0, 0, 0, 0, 0⟩, .aclr ⟨3, 0⟩ ⟨0, 0, 0, 0, 0, 0, 0⟩, .aload ⟨3, 0⟩ ⟨0, 0, 0, 0, 0, 0, 0⟩,
    .copy ⟨3, 0⟩ ⟨0, 0, 0, 0, 0⟩, .binscat ⟨3, 0⟩ ⟨0, 0, 0, 0, 0⟩, .migrate ⟨3, 0⟩ ⟨0, 0, 0, 0, 0⟩,
    .cresume ⟨3, 0⟩ ⟨0, 0, 0, 0, 0⟩, .cstatTl ⟨3, 0⟩ ⟨0, 0, 0, 0, 0⟩, .cstatStatus ⟨3, 0⟩ ⟨0, 0, 0, 0, 1⟩,
    .binset ⟨3, 0⟩ ⟨0, 0, 0, 0, 0⟩, .bindrop ⟨3, 0⟩ ⟨0, 0, 0, 0, 0⟩, .sbind ⟨3, 0⟩ ⟨0, 0, 0, 0⟩,
    .sunbind ⟨3, 0⟩ ⟨0, 0, 0, 0⟩, .sflush ⟨3, 0⟩ ⟨0, 0, 0, 0⟩, .sskip ⟨3, 0⟩ ⟨0, 0, 0, 0⟩, .smaxr ⟨3, 0⟩ ⟨0, 0, 0, 0⟩,
    .smaxc ⟨3, 0⟩ ⟨0, 0, 0, 0⟩, .sstat ⟨3, 0⟩ ⟨0, 0, 0, 0⟩, .sptest ⟨3, 0⟩ ⟨0, 0, 0, 0⟩, .spcast ⟨3, 0⟩ ⟨0, 0, 0, 0⟩,
    .grpsetWrite ⟨3, 0⟩ ⟨0, 0, 0, 0, 0, 0, 0⟩, .grpsetClaim ⟨3, 0⟩ ⟨0, 0, 0, 0, 0, 1, 0⟩,
    .grpsetRelease ⟨3, 0⟩ ⟨0, 0, 0, 0, 0, 2, 0⟩, .grpgetStore ⟨3, 0⟩ ⟨0, 0, 0, 0, 0, 0, 0⟩,
    .grpgetWord ⟨3, 0⟩ ⟨0, 0, 0, 0, 0, 1, 0⟩, .allred ⟨3, 0⟩ ⟨0, 0, 0, 0, 0, 0, 0⟩, .redsc ⟨3, 0⟩ ⟨0, 0, 0, 0, 0, 0, 0⟩,
    .allgat ⟨3, 0⟩ ⟨0, 0, 0, 0, 0, 0, 0⟩, .bcast ⟨3, 0⟩ ⟨0, 0, 0, 0, 0, 0, 0⟩, .owrite ⟨3, 0⟩ ⟨0, 0, 0, 0, 0, 0, 0⟩,
    .owred ⟨3, 0⟩ ⟨0, 0, 0, 0, 0, 0, 0⟩, .qparm ⟨3, 0⟩ ⟨0, 0, 0, 0, 0, 0, 0⟩, .rndwait ⟨3, 0⟩ ⟨0, 0, 0, 0, 0, 0, 0⟩,
    .slackr ⟨3, 0⟩ ⟨0, 0, 0, 0, 0, 0, 0⟩, .kresume ⟨3, 0⟩ ⟨0, 0, 0, 0, 0, 0, 0⟩, .fenceSc ⟨3, 0⟩ ⟨0, 0, 0⟩,
    .fenceRel ⟨3, 0⟩ ⟨0, 0, 0⟩, .fenceAcq ⟨3, 0⟩ ⟨0, 0, 0⟩, .pfence ⟨3, 0⟩ ⟨0, 0, 0⟩, .efence ⟨3, 0⟩ ⟨0, 0, 0⟩,
    .vouch ⟨3, 0⟩ ⟨0, 0, 0⟩, .waittl ⟨3, 0⟩ ⟨0, 0, 0⟩, .tlread ⟨3, 0⟩ ⟨0, 0, 0⟩, .semLd ⟨3, 0⟩ ⟨0, 0, 0, 0, 0⟩,
    .semSt ⟨3, 0⟩ ⟨0, 0, 0, 0, 0⟩, .semAdd ⟨3, 0⟩ ⟨0, 0, 0, 0, 0⟩, .semCas ⟨3, 0⟩ ⟨0, 0, 0, 0, 0⟩,
    .semMax ⟨3, 0⟩ ⟨0, 0, 0, 0, 0⟩, .semSwap ⟨3, 0⟩ ⟨0, 0, 0, 0, 0⟩, .semWait ⟨3, 0⟩ ⟨0, 0, 0, 0, 0⟩,
    .bump ⟨3, 0⟩ ⟨0, 0, 0, 0, 0⟩, .ldacq ⟨3, 0⟩ ⟨0, 0, 0, 0, 0⟩, .strel ⟨3, 0⟩ ⟨0, 0, 0, 0, 0⟩]).all (fun i => !WellFormed i) = true := by
  decide

/-- A one in a zero field, or another code than the row's, is refused (R57). -/
theorem test_wf_zero_fields_1 :
    ([Instr.launch ⟨0, 0⟩ ⟨0, 0, 1, 0⟩, .launch ⟨0, 0⟩ ⟨0, 0, 0, 1⟩, .join ⟨0, 0⟩ ⟨0, 0, 1, 0⟩, .join ⟨0, 0⟩ ⟨0, 0, 0, 1⟩,
    .tail ⟨0, 0⟩ ⟨1, 0, 0, 0⟩, .tail ⟨0, 0⟩ ⟨0, 0, 1, 0⟩, .tail ⟨0, 0⟩ ⟨0, 0, 0, 1⟩, .setpri ⟨0, 0⟩ ⟨0, 0, 1, 0⟩,
    .setpri ⟨0, 0⟩ ⟨0, 0, 0, 1⟩, .eqsendReserveNext ⟨0, 0⟩ ⟨0, 0, 1, 0⟩, .eqsendReserveNext ⟨0, 0⟩ ⟨0, 0, 0, 8⟩,
    .eqsendReserve ⟨0, 0⟩ ⟨0, 0, 1, 8⟩, .eqsendReserve ⟨0, 0⟩ ⟨0, 0, 0, 16⟩, .eqsendPublish ⟨0, 0⟩ ⟨0, 0, 1, 16⟩,
    .eqsendPublish ⟨0, 0⟩ ⟨0, 0, 0, 24⟩, .eqsendPublish ⟨0, 0⟩ ⟨1, 0, 0, 16⟩, .eqsendClose ⟨0, 0⟩ ⟨0, 0, 1, 24⟩,
    .eqsendClose ⟨0, 0⟩ ⟨0, 0, 0, 32⟩, .eqsendClose ⟨0, 0⟩ ⟨1, 0, 0, 24⟩, .eqrecvTakeNext ⟨0, 0⟩ ⟨0, 0, 1, 0⟩,
    .eqrecvTakeNext ⟨0, 0⟩ ⟨0, 0, 0, 8⟩, .eqrecvTake ⟨0, 0⟩ ⟨0, 0, 1, 8⟩, .eqrecvTake ⟨0, 0⟩ ⟨0, 0, 0, 16⟩,
    .eqfree ⟨0, 0⟩ ⟨1, 0, 0, 0⟩, .eqfree ⟨0, 0⟩ ⟨0, 0, 1, 0⟩, .eqfree ⟨0, 0⟩ ⟨0, 0, 0, 8⟩, .eqinit ⟨0, 0⟩ ⟨1, 0, 0, 0⟩,
    .eqinit ⟨0, 0⟩ ⟨0, 0, 0, 1⟩, .widf ⟨0, 0⟩ ⟨0, 0, 1, 0⟩, .budget ⟨0, 0⟩ ⟨0, 1, 0, 0⟩, .budget ⟨0, 0⟩ ⟨0, 0, 1, 0⟩,
    .budget ⟨0, 0⟩ ⟨0, 0, 0, 1⟩, .thallow ⟨0, 0⟩ ⟨0, 0, 1, 0⟩, .slip ⟨0, 0⟩ ⟨0, 1, 0, 0⟩, .slip ⟨0, 0⟩ ⟨0, 0, 1, 0⟩,
    .lerr ⟨0, 0⟩ ⟨0, 0, 1, 0⟩, .lerr ⟨0, 0⟩ ⟨0, 0, 0, 1⟩, .ntrap ⟨0, 0⟩ ⟨0, 0, 1, 0⟩, .tret ⟨0, 0⟩ ⟨1, 0, 0, 0⟩,
    .tret ⟨0, 0⟩ ⟨0, 1, 0, 0⟩, .tret ⟨0, 0⟩ ⟨0, 0, 1, 0⟩, .tret ⟨0, 0⟩ ⟨0, 0, 0, 1⟩, .killLaunch ⟨0, 0⟩ ⟨0, 0, 1, 0⟩,
    .killLaunch ⟨0, 0⟩ ⟨0, 0, 0, 1⟩, .killContext ⟨0, 0⟩ ⟨0, 0, 1, 1⟩, .killContext ⟨0, 0⟩ ⟨0, 0, 0, 0⟩,
    .killContext ⟨0, 0⟩ ⟨0, 1, 0, 1⟩, .quiesce ⟨0, 0⟩ ⟨0, 0, 1, 0⟩, .quiesce ⟨0, 0⟩ ⟨0, 0, 0, 1⟩,
    .gate ⟨0, 0⟩ ⟨0, 0, 1, 0⟩, .gate ⟨0, 0⟩ ⟨0, 0, 0, 1⟩, .wake ⟨0, 0⟩ ⟨0, 0, 1, 0⟩, .wake ⟨0, 0⟩ ⟨0, 0, 0, 1⟩,
    .brk ⟨0, 0⟩ ⟨1, 0, 0, 0⟩, .brk ⟨0, 0⟩ ⟨0, 1, 0, 0⟩, .brk ⟨0, 0⟩ ⟨0, 0, 1, 0⟩, .tlbinvAll ⟨0, 0⟩ ⟨1, 0, 0, 0⟩,
    .tlbinvAll ⟨0, 0⟩ ⟨0, 0, 0, 1⟩, .tlbinvRange ⟨0, 0⟩ ⟨1, 0, 0, 1⟩, .tlbinvRange ⟨0, 0⟩ ⟨0, 0, 0, 0⟩,
    .fltans ⟨0, 0⟩ ⟨0, 0, 0, 1⟩, .vbcast ⟨0, 0⟩ ⟨0, 1, 0, 0, 0⟩, .vneg ⟨0, 0⟩ ⟨0, 0, 0, 0, 1⟩,
    .vabs ⟨0, 0⟩ ⟨0, 0, 0, 0, 1⟩, .vclass ⟨0, 0⟩ ⟨0, 0, 0, 0, 1⟩, .vrsum ⟨0, 0⟩ ⟨0, 0, 0, 0, 1⟩,
    .vrmax ⟨0, 0⟩ ⟨0, 0, 0, 0, 1⟩, .vrmin ⟨0, 0⟩ ⟨0, 0, 0, 0, 1⟩, .vramax ⟨0, 0⟩ ⟨0, 0, 0, 0, 1⟩,
    .vscan ⟨0, 0⟩ ⟨0, 0, 0, 0, 1⟩, .rqrel ⟨0, 0⟩ ⟨1, 0, 0, 0, 0⟩, .rqrel ⟨0, 0⟩ ⟨0, 0, 0, 1, 0⟩,
    .rqstat ⟨0, 0⟩ ⟨1, 0, 0, 0, 0⟩, .rqstat ⟨0, 0⟩ ⟨0, 0, 0, 1, 0⟩, .vmov ⟨0, 0⟩ ⟨0, 0, 0, 0, 1⟩,
    .vrev ⟨0, 0⟩ ⟨0, 0, 0, 0, 1⟩, .pcnt ⟨0, 0⟩ ⟨0, 0, 1, 0, 0⟩, .pcnt ⟨0, 0⟩ ⟨0, 0, 0, 0, 1⟩,
    .pfirst ⟨0, 0⟩ ⟨0, 0, 1, 0, 0⟩, .pfromx ⟨0, 0⟩ ⟨0, 1, 0, 0, 0⟩, .ptox ⟨0, 0⟩ ⟨0, 0, 1, 0, 0⟩,
    .pwhile ⟨0, 0⟩ ⟨0, 0, 0, 0, 1⟩, .mclaim ⟨0, 0⟩ ⟨0, 1, 0, 0⟩, .mclaim ⟨0, 0⟩ ⟨0, 0, 0, 1⟩, .mrel ⟨0, 0⟩ ⟨0, 1, 0, 0⟩,
    .mrel ⟨0, 0⟩ ⟨0, 0, 0, 1⟩, .mzero ⟨0, 0⟩ ⟨0, 1, 0, 0⟩, .mzero ⟨0, 0⟩ ⟨0, 0, 0, 1⟩,
    .aclr ⟨0, 0⟩ ⟨0, 1, 0, 0, 0, 0, 0⟩, .aclr ⟨0, 0⟩ ⟨0, 0, 1, 0, 0, 0, 0⟩]).all (fun i => !WellFormed i) = true := by
  decide

/-- A one in a zero field, or another code than the row's, is refused (R57). -/
theorem test_wf_zero_fields_2 :
    ([Instr.aclr ⟨0, 0⟩ ⟨0, 0, 0, 1, 0, 0, 0⟩, .aclr ⟨0, 0⟩ ⟨0, 0, 0, 0, 1, 0, 0⟩, .aclr ⟨0, 0⟩ ⟨0, 0, 0, 0, 0, 1, 0⟩,
    .binscat ⟨0, 0⟩ ⟨0, 0, 1, 0, 0⟩, .binscat ⟨0, 0⟩ ⟨0, 0, 0, 0, 1⟩, .migrate ⟨0, 0⟩ ⟨0, 0, 0, 0, 1⟩,
    .cresume ⟨0, 0⟩ ⟨0, 1, 0, 0, 0⟩, .cresume ⟨0, 0⟩ ⟨0, 0, 1, 0, 0⟩, .cresume ⟨0, 0⟩ ⟨0, 0, 0, 1, 0⟩,
    .cresume ⟨0, 0⟩ ⟨0, 0, 0, 0, 1⟩, .cstatTl ⟨0, 0⟩ ⟨0, 1, 0, 0, 0⟩, .cstatTl ⟨0, 0⟩ ⟨0, 0, 1, 0, 0⟩,
    .cstatTl ⟨0, 0⟩ ⟨0, 0, 0, 0, 1⟩, .cstatStatus ⟨0, 0⟩ ⟨0, 1, 0, 0, 1⟩, .cstatStatus ⟨0, 0⟩ ⟨0, 0, 1, 0, 1⟩,
    .cstatStatus ⟨0, 0⟩ ⟨0, 0, 0, 0, 0⟩, .binset ⟨0, 0⟩ ⟨1, 0, 0, 0, 0⟩, .binset ⟨0, 0⟩ ⟨0, 0, 0, 1, 0⟩,
    .binset ⟨0, 0⟩ ⟨0, 0, 0, 0, 1⟩, .bindrop ⟨0, 0⟩ ⟨1, 0, 0, 0, 0⟩, .bindrop ⟨0, 0⟩ ⟨0, 0, 0, 0, 1⟩,
    .sbind ⟨0, 0⟩ ⟨0, 1, 0, 0⟩, .sbind ⟨0, 0⟩ ⟨0, 0, 0, 1⟩, .sunbind ⟨0, 0⟩ ⟨0, 1, 0, 0⟩, .sunbind ⟨0, 0⟩ ⟨0, 0, 0, 1⟩,
    .sflush ⟨0, 0⟩ ⟨0, 1, 0, 0⟩, .sflush ⟨0, 0⟩ ⟨0, 0, 1, 0⟩, .sflush ⟨0, 0⟩ ⟨0, 0, 0, 1⟩, .sskip ⟨0, 0⟩ ⟨0, 1, 0, 0⟩,
    .sskip ⟨0, 0⟩ ⟨0, 0, 0, 1⟩, .smaxr ⟨0, 0⟩ ⟨0, 0, 1, 0⟩, .smaxr ⟨0, 0⟩ ⟨0, 0, 0, 1⟩, .smaxc ⟨0, 0⟩ ⟨0, 0, 1, 0⟩,
    .smaxc ⟨0, 0⟩ ⟨0, 0, 0, 1⟩, .sstat ⟨0, 0⟩ ⟨0, 0, 1, 0⟩, .sstat ⟨0, 0⟩ ⟨0, 0, 0, 1⟩, .sptest ⟨0, 0⟩ ⟨1, 0, 0, 0⟩,
    .sptest ⟨0, 0⟩ ⟨0, 0, 0, 1⟩, .spcast ⟨0, 0⟩ ⟨1, 0, 0, 0⟩, .grpsetWrite ⟨0, 0⟩ ⟨0, 0, 1, 0, 0, 0, 0⟩,
    .grpsetWrite ⟨0, 0⟩ ⟨0, 0, 0, 0, 1, 0, 0⟩, .grpsetWrite ⟨0, 0⟩ ⟨0, 0, 0, 0, 0, 0, 1⟩,
    .grpsetWrite ⟨0, 0⟩ ⟨0, 0, 0, 0, 0, 1, 0⟩, .grpsetClaim ⟨0, 0⟩ ⟨0, 0, 1, 0, 0, 1, 0⟩,
    .grpsetClaim ⟨0, 0⟩ ⟨0, 0, 0, 0, 1, 1, 0⟩, .grpsetClaim ⟨0, 0⟩ ⟨0, 0, 0, 0, 0, 1, 1⟩,
    .grpsetClaim ⟨0, 0⟩ ⟨0, 0, 0, 0, 0, 0, 0⟩, .grpsetRelease ⟨0, 0⟩ ⟨0, 0, 1, 0, 0, 2, 0⟩,
    .grpsetRelease ⟨0, 0⟩ ⟨0, 0, 0, 0, 1, 2, 0⟩, .grpsetRelease ⟨0, 0⟩ ⟨0, 0, 0, 0, 0, 2, 1⟩,
    .grpsetRelease ⟨0, 0⟩ ⟨0, 0, 0, 0, 0, 3, 0⟩, .grpgetStore ⟨0, 0⟩ ⟨0, 0, 1, 0, 0, 0, 0⟩,
    .grpgetStore ⟨0, 0⟩ ⟨0, 0, 0, 0, 1, 0, 0⟩, .grpgetStore ⟨0, 0⟩ ⟨0, 0, 0, 0, 0, 0, 1⟩,
    .grpgetStore ⟨0, 0⟩ ⟨0, 0, 0, 0, 0, 1, 0⟩, .grpgetWord ⟨0, 0⟩ ⟨0, 0, 1, 0, 0, 1, 0⟩,
    .grpgetWord ⟨0, 0⟩ ⟨0, 0, 0, 0, 1, 1, 0⟩, .grpgetWord ⟨0, 0⟩ ⟨0, 0, 0, 0, 0, 1, 1⟩,
    .grpgetWord ⟨0, 0⟩ ⟨0, 0, 0, 0, 0, 0, 0⟩, .owrite ⟨0, 0⟩ ⟨0, 0, 1, 0, 0, 0, 0⟩, .owrite ⟨0, 0⟩ ⟨0, 0, 0, 0, 0, 1, 0⟩,
    .owrite ⟨0, 0⟩ ⟨0, 0, 0, 0, 0, 0, 1⟩, .owred ⟨0, 0⟩ ⟨0, 0, 1, 0, 0, 0, 0⟩, .owred ⟨0, 0⟩ ⟨0, 0, 0, 0, 0, 1, 0⟩,
    .owred ⟨0, 0⟩ ⟨0, 0, 0, 0, 0, 0, 1⟩, .qparm ⟨0, 0⟩ ⟨0, 0, 1, 0, 0, 0, 0⟩, .qparm ⟨0, 0⟩ ⟨0, 0, 0, 0, 1, 0, 0⟩,
    .qparm ⟨0, 0⟩ ⟨0, 0, 0, 0, 0, 0, 1⟩, .rndwait ⟨0, 0⟩ ⟨0, 0, 1, 0, 0, 0, 0⟩, .rndwait ⟨0, 0⟩ ⟨0, 0, 0, 0, 1, 0, 0⟩,
    .rndwait ⟨0, 0⟩ ⟨0, 0, 0, 0, 0, 1, 0⟩, .rndwait ⟨0, 0⟩ ⟨0, 0, 0, 0, 0, 0, 1⟩, .slackr ⟨0, 0⟩ ⟨0, 0, 1, 0, 0, 0, 0⟩,
    .slackr ⟨0, 0⟩ ⟨0, 0, 0, 0, 1, 0, 0⟩, .slackr ⟨0, 0⟩ ⟨0, 0, 0, 0, 0, 0, 1⟩, .kresume ⟨0, 0⟩ ⟨0, 1, 0, 0, 0, 0, 0⟩,
    .kresume ⟨0, 0⟩ ⟨0, 0, 1, 0, 0, 0, 0⟩, .kresume ⟨0, 0⟩ ⟨0, 0, 0, 1, 0, 0, 0⟩, .kresume ⟨0, 0⟩ ⟨0, 0, 0, 0, 0, 1, 0⟩,
    .kresume ⟨0, 0⟩ ⟨0, 0, 0, 0, 0, 0, 1⟩, .fenceSc ⟨0, 0⟩ ⟨0, 1, 0⟩, .fenceSc ⟨0, 0⟩ ⟨0, 0, 1⟩,
    .fenceRel ⟨0, 0⟩ ⟨0, 1, 0⟩, .fenceRel ⟨0, 0⟩ ⟨0, 0, 1⟩, .fenceAcq ⟨0, 0⟩ ⟨0, 1, 0⟩, .fenceAcq ⟨0, 0⟩ ⟨0, 0, 1⟩,
    .pfence ⟨0, 0⟩ ⟨0, 0, 1⟩, .vouch ⟨0, 0⟩ ⟨0, 0, 1⟩, .tlread ⟨0, 0⟩ ⟨0, 0, 1⟩, .semLd ⟨0, 0⟩ ⟨0, 0, 1, 0, 0⟩]).all (fun i => !WellFormed i) = true := by
  decide

/-- A one in a zero field, or another code than the row's, is refused (R57). -/
theorem test_wf_zero_fields_3 :
    ([Instr.semLd ⟨0, 0⟩ ⟨0, 0, 0, 1, 0⟩, .semSt ⟨0, 0⟩ ⟨1, 0, 0, 0, 0⟩, .semSt ⟨0, 0⟩ ⟨0, 0, 0, 1, 0⟩,
    .semAdd ⟨0, 0⟩ ⟨0, 0, 0, 1, 0⟩, .semMax ⟨0, 0⟩ ⟨0, 0, 0, 1, 0⟩, .semSwap ⟨0, 0⟩ ⟨0, 0, 0, 1, 0⟩,
    .semWait ⟨0, 0⟩ ⟨1, 0, 0, 0, 0⟩, .semWait ⟨0, 0⟩ ⟨0, 0, 0, 1, 0⟩]).all (fun i => !WellFormed i) = true := by
  decide

/-- A unit that does not exist is refused. -/
theorem test_wf_units_1 :
    ([Instr.engineIssue 256 .cc, .vectorIssue 256, .vectorCompletion 256 1, .vectorCompletion 255 2, .trapDelivery 256 1,
    .trapDelivery 255 2, .entryArrival 256 1 31, .entryArrival 255 2 31, .entryArrival 255 1 32, .outputDrain 256 1 31,
    .outputDrain 255 2 31, .outputDrain 255 1 32, .copyStart 256 3, .copyStart 255 4, .copyIteration 256 3,
    .copyIteration 255 4, .copyCompletion 256 3, .copyCompletion 255 4, .binscatToken 256 3, .binscatToken 255 4,
    .tileSchedulerStart 256, .mclaimPerformed 256 1, .mclaimPerformed 255 2, .mloadLine 256 1, .mloadLine 255 2,
    .astoreEntry 256 1, .astoreEntry 255 2, .aloadEntry 256 1, .aloadEntry 255 2, .puntyMark 256 5, .puntyMark 255 6,
    .matrixCompletion 256 1, .matrixCompletion 255 2, .matrixDeadlockPreemption 256, .pop 256 1, .pop 255 2,
    .imageLoaded 256 1, .imageLoaded 255 2, .park 256 1, .park 255 2, .waitConditionMet 256 1, .waitConditionMet 255 2,
    .eviction 256 1, .eviction 255 2, .preEmption 256 1, .preEmption 255 2, .imageSaved 256 1, .imageSaved 255 2,
    .retirement 256, .preload 256 1, .preload 255 2, .budgetEnd 64 63, .budgetEnd 63 64, .droopHalving 4,
    .droopRestore 4, .thermalMove 256, .rotateDeadline 256, .hbmRefresh 12, .refreshEnd 12, .controlFormPerformed 256,
    .contributionSend 256 1 1, .contributionSend 255 2 1, .contributionSend 255 1 2, .resultDelivery 0 0 1024,
    .workEntryFire 256 1 1, .workEntryFire 255 2 1, .workEntryFire 255 1 2, .workEntryComplete 256 1 1,
    .workEntryComplete 255 2 1, .workEntryComplete 255 1 2, .replayReady 256 1, .replayReady 255 2, .automaticWake 256,
    .qtlReached 64, .sealComplete 256, .resumption 256, .watchdog 256 .vec, .parityAlarm 256 .vec,
    .protocolAlarm 256 .vec, .vectorEngineReset 256, .matrixEngineReset 256, .copyEngineReset 256,
    .portProcessorReset 16, .coreReset 256, .dieReset 2, .computeDomainLoss 4, .lehrDomainLoss 4, .lehrPowerReturn 4,
    .checkModeCompletion 72 0 71 0, .checkModeCompletion 71 0 72 0]).all (fun i => !WellFormed i) = true := by
  decide

/-- A unit that does not exist is refused. -/
theorem test_wf_units_2 :
    ([Instr.rotationSlice 72, .cstateConfigure 64, .cstateRun 64, .cstateFree 64, .cstateKill 64, .cgrant 64 0,
    .launchDoorbell 64 0, .lbud 64 0, .killl 64 0, .killc 64 0, .hans 64 0, .fansRetry 64 0, .fansDeny 64 0, .semd 64 0,
    .hostRead 4 0 0, .hostWrite 4 0 [], .portTraining 16 0, .flitReplay 16, .quadrantThermalPowerDown 4,
    .quadrantThermalResume 4, .stackOverheatHalving 12, .stackOverheatRestore 12]).all (fun i => !WellFormed i) = true := by
  decide

/-- A reject whose reason is not of its cause is refused (R63). -/
theorem test_wf_rejects :
    ([Instr.illegalInstruction ⟨false, 0, 0, none, false⟩, .illegalInstruction ⟨false, 7, 0, none, false⟩,
    .illegalInstruction ⟨true, 0x10, 0, none, false⟩, .illegalInstruction ⟨true, 0x1B, 0, none, false⟩]).all (fun i => !WellFormed i) = true := by
  decide

/-- The largest numbers and the codes of each row are accepted. -/
theorem test_wf_accepts_1 :
    ([Instr.hold ⟨2, 0⟩, .catchCrew ⟨2, 0⟩ ⟨0⟩, .easy ⟨2, 0⟩, .launch ⟨2, 0⟩ ⟨0, 0, 0, 0⟩, .spawn ⟨2, 0⟩ ⟨0, 0, 0, 0⟩,
    .join ⟨2, 0⟩ ⟨0, 0, 0, 0⟩, .tail ⟨2, 0⟩ ⟨0, 0, 0, 0⟩, .setpri ⟨2, 0⟩ ⟨0, 0, 0, 0⟩,
    .eqsendReserveNext ⟨2, 0⟩ ⟨0, 0, 0, 0⟩, .eqsendReserve ⟨2, 0⟩ ⟨0, 0, 0, 8⟩, .eqsendPublish ⟨2, 0⟩ ⟨0, 0, 0, 16⟩,
    .eqsendClose ⟨2, 0⟩ ⟨0, 0, 0, 24⟩, .eqrecvTakeNext ⟨2, 0⟩ ⟨0, 0, 0, 0⟩, .eqrecvTake ⟨2, 0⟩ ⟨0, 0, 0, 8⟩,
    .eqfree ⟨2, 0⟩ ⟨0, 0, 0, 0⟩, .eqinit ⟨2, 0⟩ ⟨0, 0, 0, 0⟩, .widf ⟨2, 0⟩ ⟨0, 0, 0, 0⟩, .widins ⟨2, 0⟩ ⟨0, 0, 0, 0⟩,
    .budget ⟨2, 0⟩ ⟨0, 0, 0, 0⟩, .draw ⟨2, 0⟩ ⟨0, 0, 0, 0⟩, .thallow ⟨2, 0⟩ ⟨0, 0, 0, 0⟩, .slip ⟨2, 0⟩ ⟨0, 0, 0, 0⟩,
    .lerr ⟨2, 0⟩ ⟨0, 0, 0, 0⟩, .ntrap ⟨2, 0⟩ ⟨0, 0, 0, 0⟩, .tret ⟨2, 0⟩ ⟨0, 0, 0, 0⟩, .killLaunch ⟨2, 0⟩ ⟨0, 0, 0, 0⟩,
    .killContext ⟨2, 0⟩ ⟨0, 0, 0, 1⟩, .quiesce ⟨2, 0⟩ ⟨0, 0, 0, 0⟩, .gate ⟨2, 0⟩ ⟨0, 0, 0, 0⟩, .wake ⟨2, 0⟩ ⟨0, 0, 0, 0⟩,
    .brk ⟨2, 0⟩ ⟨0, 0, 0, 0⟩, .tlbinvAll ⟨2, 0⟩ ⟨0, 0, 0, 0⟩, .tlbinvRange ⟨2, 0⟩ ⟨0, 0, 0, 1⟩,
    .fltans ⟨2, 0⟩ ⟨0, 0, 0, 0⟩, .vadd ⟨2, 0⟩ ⟨0, 0, 0, 0, 0⟩, .vsub ⟨2, 0⟩ ⟨0, 0, 0, 0, 0⟩,
    .vmul ⟨2, 0⟩ ⟨0, 0, 0, 0, 0⟩, .vfma ⟨2, 0⟩ ⟨0, 0, 0, 0, 0⟩, .vfms ⟨2, 0⟩ ⟨0, 0, 0, 0, 0⟩,
    .vfnma ⟨2, 0⟩ ⟨0, 0, 0, 0, 0⟩, .vmin ⟨2, 0⟩ ⟨0, 0, 0, 0, 0⟩, .vmax ⟨2, 0⟩ ⟨0, 0, 0, 0, 0⟩,
    .vdiv ⟨2, 0⟩ ⟨0, 0, 0, 0, 0⟩, .vamin ⟨2, 0⟩ ⟨0, 0, 0, 0, 0⟩, .vamax ⟨2, 0⟩ ⟨0, 0, 0, 0, 0⟩,
    .vsadd ⟨2, 0⟩ ⟨0, 0, 0, 0, 0⟩, .vssub ⟨2, 0⟩ ⟨0, 0, 0, 0, 0⟩, .vmulh ⟨2, 0⟩ ⟨0, 0, 0, 0, 0⟩,
    .vdot2 ⟨2, 0⟩ ⟨0, 0, 0, 0, 0⟩, .vdot4 ⟨2, 0⟩ ⟨0, 0, 0, 0, 0⟩, .vand ⟨2, 0⟩ ⟨0, 0, 0, 0, 0⟩,
    .vor ⟨2, 0⟩ ⟨0, 0, 0, 0, 0⟩, .vxor ⟨2, 0⟩ ⟨0, 0, 0, 0, 0⟩, .vandn ⟨2, 0⟩ ⟨0, 0, 0, 0, 0⟩,
    .vsll ⟨2, 0⟩ ⟨0, 0, 0, 0, 0⟩, .vsrl ⟨2, 0⟩ ⟨0, 0, 0, 0, 0⟩, .vsra ⟨2, 0⟩ ⟨0, 0, 0, 0, 0⟩,
    .vsel ⟨2, 0⟩ ⟨0, 0, 0, 0, 0⟩, .vaddi ⟨2, 0⟩ ⟨0, 0, 0, 0, 0⟩, .vmini ⟨2, 0⟩ ⟨0, 0, 0, 0, 0⟩,
    .vmaxi ⟨2, 0⟩ ⟨0, 0, 0, 0, 0⟩, .vandi ⟨2, 0⟩ ⟨0, 0, 0, 0, 0⟩, .vxori ⟨2, 0⟩ ⟨0, 0, 0, 0, 0⟩,
    .vslli ⟨2, 0⟩ ⟨0, 0, 0, 0, 0⟩, .vsrli ⟨2, 0⟩ ⟨0, 0, 0, 0, 0⟩, .vsrai ⟨2, 0⟩ ⟨0, 0, 0, 0, 0⟩,
    .vaddx ⟨2, 0⟩ ⟨0, 0, 0, 0, 0⟩, .vsubx ⟨2, 0⟩ ⟨0, 0, 0, 0, 0⟩, .vmulx ⟨2, 0⟩ ⟨0, 0, 0, 0, 0⟩,
    .vfmax ⟨2, 0⟩ ⟨0, 0, 0, 0, 0⟩, .vminx ⟨2, 0⟩ ⟨0, 0, 0, 0, 0⟩, .vmaxx ⟨2, 0⟩ ⟨0, 0, 0, 0, 0⟩,
    .vbcast ⟨2, 0⟩ ⟨0, 0, 0, 0, 0⟩, .vscalex ⟨2, 0⟩ ⟨0, 0, 0, 0, 0⟩, .vfn ⟨2, 0⟩ ⟨0, 0, 0, 0, 0⟩,
    .vneg ⟨2, 0⟩ ⟨0, 0, 0, 0, 0⟩, .vabs ⟨2, 0⟩ ⟨0, 0, 0, 0, 0⟩, .vclass ⟨2, 0⟩ ⟨0, 0, 0, 0, 0⟩,
    .vbits ⟨2, 0⟩ ⟨0, 0, 0, 0, 0⟩, .vcvt ⟨2, 0⟩ ⟨0, 0, 0, 0, 0, 0, 0⟩, .vrint ⟨2, 0⟩ ⟨0, 0, 0, 0, 0, 0, 0⟩,
    .vrsum ⟨2, 0⟩ ⟨0, 0, 0, 0, 0⟩, .vrmax ⟨2, 0⟩ ⟨0, 0, 0, 0, 0⟩, .vrmin ⟨2, 0⟩ ⟨0, 0, 0, 0, 0⟩,
    .vramax ⟨2, 0⟩ ⟨0, 0, 0, 0, 0⟩, .vscan ⟨2, 0⟩ ⟨0, 0, 0, 0, 0⟩, .vcmp ⟨2, 0⟩ ⟨0, 0, 0, 0, 0, 0⟩,
    .vld ⟨2, 0⟩ ⟨0, 0, 0, 0, 0⟩, .vst ⟨2, 0⟩ ⟨0, 0, 0, 0, 0⟩, .vgath ⟨2, 0⟩ ⟨0, 0, 0, 0, 0, 0⟩]).all (fun i => WellFormed i) = true := by
  decide

/-- The largest numbers and the codes of each row are accepted. -/
theorem test_wf_accepts_2 :
    ([Instr.vscat ⟨2, 0⟩ ⟨0, 0, 0, 0, 0, 0⟩, .vscadd ⟨2, 0⟩ ⟨0, 0, 0, 0, 0, 0⟩, .rqrel ⟨2, 0⟩ ⟨0, 0, 0, 0, 0⟩,
    .rqstat ⟨2, 0⟩ ⟨0, 0, 0, 0, 0⟩, .vmov ⟨2, 0⟩ ⟨0, 0, 0, 0, 0⟩, .vperm ⟨2, 0⟩ ⟨0, 0, 0, 0, 0⟩,
    .vrev ⟨2, 0⟩ ⟨0, 0, 0, 0, 0⟩, .vzip ⟨2, 0⟩ ⟨0, 0, 0, 0, 0⟩, .vunzip ⟨2, 0⟩ ⟨0, 0, 0, 0, 0⟩,
    .vtrn ⟨2, 0⟩ ⟨0, 0, 0, 0, 0⟩, .vslide ⟨2, 0⟩ ⟨0, 0, 0, 0, 0⟩, .vrotl ⟨2, 0⟩ ⟨0, 0, 0, 0, 0⟩,
    .vbcl ⟨2, 0⟩ ⟨0, 0, 0, 0, 0⟩, .plog ⟨2, 0⟩ ⟨0, 0, 0, 0, 0⟩, .pcnt ⟨2, 0⟩ ⟨0, 0, 0, 0, 0⟩,
    .pfirst ⟨2, 0⟩ ⟨0, 0, 0, 0, 0⟩, .pfromx ⟨2, 0⟩ ⟨0, 0, 0, 0, 0⟩, .ptox ⟨2, 0⟩ ⟨0, 0, 0, 0, 0⟩,
    .pwhile ⟨2, 0⟩ ⟨0, 0, 0, 0, 0⟩, .loopb ⟨2, 0⟩ ⟨0⟩, .vresume ⟨2, 0⟩, .mmaE4m3 ⟨2, 0⟩ ⟨0, 0, 0, 0, 0, 0, 0, 0, 0⟩,
    .mmaE5m2 ⟨2, 0⟩ ⟨0, 0, 0, 0, 0, 0, 0, 0, 0⟩, .mmaInt8 ⟨2, 0⟩ ⟨0, 0, 0, 0, 0, 0, 0, 0, 0⟩,
    .mmaBf16 ⟨2, 0⟩ ⟨0, 0, 0, 0, 0, 0, 0, 0, 0⟩, .mmaFp16 ⟨2, 0⟩ ⟨0, 0, 0, 0, 0, 0, 0, 0, 0⟩,
    .mmaMxfp8 ⟨2, 0⟩ ⟨0, 0, 0, 0, 0, 0, 0, 0, 0⟩, .mmaMxfp6 ⟨2, 0⟩ ⟨0, 0, 0, 0, 0, 0, 0, 0, 0⟩,
    .mmaMxfp4 ⟨2, 0⟩ ⟨0, 0, 0, 0, 0, 0, 0, 0, 0⟩, .mmaMxint8 ⟨2, 0⟩ ⟨0, 0, 0, 0, 0, 0, 0, 0, 0⟩,
    .mmaTern ⟨2, 0⟩ ⟨0, 0, 0, 0, 0, 0, 0, 0, 0⟩, .mclaim ⟨2, 0⟩ ⟨0, 0, 0, 0⟩, .mrel ⟨2, 0⟩ ⟨0, 0, 0, 0⟩,
    .mload ⟨2, 0⟩ ⟨0, 0, 0, 0⟩, .mzero ⟨2, 0⟩ ⟨0, 0, 0, 0⟩, .mresume ⟨2, 0⟩, .astore ⟨2, 0⟩ ⟨0, 0, 0, 0, 0, 0, 0⟩,
    .astoreT ⟨2, 0⟩ ⟨0, 0, 0, 0, 0, 0, 0⟩, .aclr ⟨2, 0⟩ ⟨0, 0, 0, 0, 0, 0, 0⟩, .aload ⟨2, 0⟩ ⟨0, 0, 0, 0, 0, 0, 0⟩,
    .copy ⟨2, 0⟩ ⟨0, 0, 0, 0, 0⟩, .binscat ⟨2, 0⟩ ⟨0, 0, 0, 0, 0⟩, .migrate ⟨2, 0⟩ ⟨0, 0, 0, 0, 0⟩,
    .cresume ⟨2, 0⟩ ⟨0, 0, 0, 0, 0⟩, .cstatTl ⟨2, 0⟩ ⟨0, 0, 0, 0, 0⟩, .cstatStatus ⟨2, 0⟩ ⟨0, 0, 0, 0, 1⟩,
    .binset ⟨2, 0⟩ ⟨0, 0, 0, 0, 0⟩, .bindrop ⟨2, 0⟩ ⟨0, 0, 0, 0, 0⟩, .sbind ⟨2, 0⟩ ⟨0, 0, 0, 0⟩,
    .sunbind ⟨2, 0⟩ ⟨0, 0, 0, 0⟩, .sflush ⟨2, 0⟩ ⟨0, 0, 0, 0⟩, .sskip ⟨2, 0⟩ ⟨0, 0, 0, 0⟩, .smaxr ⟨2, 0⟩ ⟨0, 0, 0, 0⟩,
    .smaxc ⟨2, 0⟩ ⟨0, 0, 0, 0⟩, .sstat ⟨2, 0⟩ ⟨0, 0, 0, 0⟩, .sptest ⟨2, 0⟩ ⟨0, 0, 0, 0⟩, .spcast ⟨2, 0⟩ ⟨0, 0, 0, 0⟩,
    .grpsetWrite ⟨2, 0⟩ ⟨0, 0, 0, 0, 0, 0, 0⟩, .grpsetClaim ⟨2, 0⟩ ⟨0, 0, 0, 0, 0, 1, 0⟩,
    .grpsetRelease ⟨2, 0⟩ ⟨0, 0, 0, 0, 0, 2, 0⟩, .grpgetStore ⟨2, 0⟩ ⟨0, 0, 0, 0, 0, 0, 0⟩,
    .grpgetWord ⟨2, 0⟩ ⟨0, 0, 0, 0, 0, 1, 0⟩, .allred ⟨2, 0⟩ ⟨0, 0, 0, 0, 0, 0, 0⟩, .redsc ⟨2, 0⟩ ⟨0, 0, 0, 0, 0, 0, 0⟩,
    .allgat ⟨2, 0⟩ ⟨0, 0, 0, 0, 0, 0, 0⟩, .bcast ⟨2, 0⟩ ⟨0, 0, 0, 0, 0, 0, 0⟩, .owrite ⟨2, 0⟩ ⟨0, 0, 0, 0, 0, 0, 0⟩,
    .owred ⟨2, 0⟩ ⟨0, 0, 0, 0, 0, 0, 0⟩, .qparm ⟨2, 0⟩ ⟨0, 0, 0, 0, 0, 0, 0⟩, .rndwait ⟨2, 0⟩ ⟨0, 0, 0, 0, 0, 0, 0⟩,
    .slackr ⟨2, 0⟩ ⟨0, 0, 0, 0, 0, 0, 0⟩, .kresume ⟨2, 0⟩ ⟨0, 0, 0, 0, 0, 0, 0⟩, .fenceSc ⟨2, 0⟩ ⟨0, 0, 0⟩,
    .fenceRel ⟨2, 0⟩ ⟨0, 0, 0⟩, .fenceAcq ⟨2, 0⟩ ⟨0, 0, 0⟩, .pfence ⟨2, 0⟩ ⟨0, 0, 0⟩, .efence ⟨2, 0⟩ ⟨0, 0, 0⟩,
    .vouch ⟨2, 0⟩ ⟨0, 0, 0⟩, .waittl ⟨2, 0⟩ ⟨0, 0, 0⟩, .tlread ⟨2, 0⟩ ⟨0, 0, 0⟩, .semLd ⟨2, 0⟩ ⟨0, 0, 0, 0, 0⟩,
    .semSt ⟨2, 0⟩ ⟨0, 0, 0, 0, 0⟩, .semAdd ⟨2, 0⟩ ⟨0, 0, 0, 0, 0⟩, .semCas ⟨2, 0⟩ ⟨0, 0, 0, 0, 0⟩,
    .semMax ⟨2, 0⟩ ⟨0, 0, 0, 0, 0⟩, .semSwap ⟨2, 0⟩ ⟨0, 0, 0, 0, 0⟩, .semWait ⟨2, 0⟩ ⟨0, 0, 0, 0, 0⟩,
    .bump ⟨2, 0⟩ ⟨0, 0, 0, 0, 0⟩, .ldacq ⟨2, 0⟩ ⟨0, 0, 0, 0, 0⟩, .strel ⟨2, 0⟩ ⟨0, 0, 0, 0, 0⟩]).all (fun i => WellFormed i) = true := by
  decide

/-- The largest numbers and the codes of each row are accepted. -/
theorem test_wf_accepts_3 :
    ([Instr.engineIssue 255 .cc, .vectorIssue 255, .vectorCompletion 255 1, .trapDelivery 255 1, .entryArrival 255 1 31,
    .outputDrain 255 1 31, .copyStart 255 3, .copyIteration 255 3, .copyCompletion 255 3, .binscatToken 255 3,
    .tileSchedulerStart 255, .mclaimPerformed 255 1, .mloadLine 255 1, .astoreEntry 255 1, .aloadEntry 255 1,
    .puntyMark 255 5, .matrixCompletion 255 1, .matrixDeadlockPreemption 255, .pop 255 1, .imageLoaded 255 1,
    .park 255 1, .waitConditionMet 255 1, .eviction 255 1, .preEmption 255 1, .imageSaved 255 1, .retirement 255,
    .preload 255 1, .budgetEnd 63 63, .droopHalving 3, .droopRestore 3, .thermalMove 255, .rotateDeadline 255,
    .hbmRefresh 11, .refreshEnd 11, .controlFormPerformed 255, .contributionSend 255 1 1, .resultDelivery 0 0 1023,
    .workEntryFire 255 1 1, .workEntryComplete 255 1 1, .replayReady 255 1, .automaticWake 255, .qtlReached 63,
    .sealComplete 255, .resumption 255, .watchdog 255 .vec, .parityAlarm 255 .vec, .protocolAlarm 255 .vec,
    .vectorEngineReset 255, .matrixEngineReset 255, .copyEngineReset 255, .portProcessorReset 15, .coreReset 255,
    .dieReset 1, .computeDomainLoss 3, .lehrDomainLoss 3, .lehrPowerReturn 3, .checkModeCompletion 71 0 71 0,
    .rotationSlice 71, .cstateConfigure 63, .cstateRun 63, .cstateFree 63, .cstateKill 63, .cgrant 63 0,
    .launchDoorbell 63 0, .lbud 63 0, .killl 63 0, .killc 63 0, .hans 63 0, .fansRetry 63 0, .fansDeny 63 0, .semd 63 0,
    .hostRead 3 0 0, .hostWrite 3 0 [], .portTraining 15 0, .flitReplay 15, .quadrantThermalPowerDown 3,
    .quadrantThermalResume 3, .stackOverheatHalving 11, .stackOverheatRestore 11,
    .illegalInstruction ⟨false, 1, 0, none, false⟩, .illegalInstruction ⟨false, 6, 0, none, false⟩,
    .illegalInstruction ⟨true, 0x11, 0, none, false⟩, .illegalInstruction ⟨true, 0x1A, 0, none, false⟩]).all (fun i => WellFormed i) = true := by
  decide

namespace Tests

/-! ### Small states -/

/-- The running task of the tests. -/
def tk : Task where
  ctx := 0
  lslot := 0
  wid := 0x31
  frame := 0xD000000000000000
  code := 0x100
  jh := 0
  gated := false
  stage := false
  prio := 3
  gen := 0
  st := .running
  since := 0
  aged := 0
  reached := 0
  spawnPrio := 3
  recq := none
  fresh := false
  home := some 0
  image := none
  errs := []
  unverifiable := false
  phys := [0]
  vouch := 0
  vouchAt := []
  lastVouch := 0
  vouchedAt := 0
  provisional := false
  lcore := 0
  popEpoch := 0
  parent := none
  rerun := false
  again := none

/-- Its launch: two fields of 4 bits, a budget of 5 ticks. -/
def la : Launch where
  ctrl := 1
  entry := 0x100
  det := false
  prio := 5
  vreg := 64
  seed := 1
  lcmask := 3
  widths := 0x204
  exts := [1, 1, 1, 1, 1, 1]
  framebase := 0xD000000000000000
  framesz := 0
  budget := some 5
  jdone := 0
  equse := 3
  eqdir := 1
  eqs := [8, 16, 0, 0, 0, 0, 0, 0]
  total := 1
  made := 1
  spent := []
  posted := 0
  first := 1
  ended := false
  killed := false

/-- Its context: cores 0 and 1, a handler, 64 semaphore words, room for 8 records. -/
def cx : Ctx := { Ctx.reset with
  cstate := 2, cgrant := 3, hvec := 0x80, sem0 := 64, recqn := 8, launches := [(0, la)] }

/-- Its bank: x5 to x8 as given. -/
def bk (d a b e : Word) : Bank := { Bank.reset with
  st := .running, uid := some 1, pc := 0x100, stvec := 0x80, x := [(5, d), (6, a), (7, b), (8, e)] }

/-- One running task on bank 0 of core 0, with x5 to x8 as given. -/
def st (d a b e : Word) : State := { State.reset with
  banks := [(0, bk d a b e)], ctxs := [(0, cx)], tasks := [(1, tk)], fresh := 2
  modl := { Modl.reset with boot := 6, linkUp := true } }

/-- The same with its bank changed. -/
def stB (g : Bank → Bank) : State := (st 0 0 0 0).modBank 0 g

/-- The same with its core changed. -/
def stC (g : Core → Core) : State := (st 0 0 0 0).modCore 0 g

/-- The same with its context changed. -/
def stX (s : State) (g : Ctx → Ctx) : State := { s with ctxs := [(0, g cx)] }

/-- An address of the own scratchpad. -/
def own : Word := 0xD000000000000000

/-- The scheduling bits of a word that names no crew. -/
def c0 : Ctl := ⟨0, 0⟩

/-- What Ready asks, as a test. -/
def ready (s : State) (c : Ctl) : Bool :=
  s.here.uid.isSome && crewOk s.here c .cc && mayIssue s s.me (s.here.uid.getD 0) .cc c

theorem ready_of {s : State} {c : Ctl} (h : ready s c = true) : Ready s c := by
  simp only [ready, Bool.and_eq_true] at h
  exact ⟨h.1.1, h.1.2, h.2⟩

/-- An answer that is no error. -/
def good {ε α : Type} : Except ε α → Bool
  | .ok _ => true
  | .error _ => false

/-- What the answer holds passes a test. -/
def goodAnd {ε α : Type} (p : α → Bool) : Except ε α → Bool
  | .ok a => p a
  | .error _ => false

/-! ### RV64 -/

/-- Rv64Control: an aligned target and one that is not. -/
theorem test_hyps_Rv64Control :
    ((st 0 0 0 0).here.pc + (2#20).signExtend 64 <<< 1).toNat % 4 = 0
    ∧ ((st 0 0 0 0).here.pc + (1#20).signExtend 64 <<< 1).toNat % 4 ≠ 0 := by decide

/-- Rv64LoadsAndStores: accesses of the own scratchpad, at its first and its last doubleword. -/
theorem test_hyps_Rv64LoadsAndStores :
    good (access (st 0 own 0 0) ((st 0 own 0 0).agent 0) .read false 4 (own + 0x7FFFF8) 8) = true
    ∧ good (access (st 0 own 0 0) ((st 0 own 0 0).agent 0) .write false 6 own 8) = true := by decide

/-- Rv64AtomicInstructions: each access, with and without a reservation. -/
theorem test_hyps_Rv64AtomicInstructions :
    let s := st 0 own 0 0
    let r : State := { s with resv := [(0, sectorOf (2 ^ 66))] }
    good (access s (s.agent 0) .atomic true 6 own 4) = true ∧ good (access s (s.agent 0) .read true 4 own 8) = true
    ∧ goodAnd (fun e => !s.resv.contains (s.me, sectorOf e.1.loc)) (access s (s.agent 0) .write true 6 own 8) = true
    ∧ goodAnd (fun e => { s with resv := [(0, sectorOf e.1.loc)] }.resv.contains (s.me, sectorOf e.1.loc))
        (access r (r.agent 0) .write true 6 own 8) = true := by decide

/-- FencesAndHomeAccesses: a ready word, a directory in order, and the accesses; scopes 0, 1, 2, 5 and 6 exist. -/
theorem test_hyps_FencesAndHomeAccesses :
    let s : State := { st 0 own 0 0 with dir := [(7, ⟨.task 1, []⟩), (9, ⟨.core 0, []⟩)] }
    ready s c0 = true ∧ SMap.rising s.dir = true ∧ SMap.find s.dir 7 = some ⟨.task 1, []⟩
    ∧ good (access (s.issued c0) (s.agent 0) .read true 4 own 8) = true
    ∧ good (access (s.issued c0) (s.agent 0) .write true 6 own 1) = true
    ∧ (5 : BitVec 3).toNat ≤ 5 ∧ 5 < (6 : BitVec 3).toNat := by decide

/-- TrapEntry and TrapsOfInstructions: task mode with a handler, handler mode, and no handler; rejects with and without a crew,
of both causes, privileged and not. -/
theorem test_hyps_TrapEntry :
    let s := st 0 0 0 0
    let n := stX s fun c => { c with hvec := 0 }
    let h := stB fun b => { b with mode := .handler }
    s.here.mode = .task ∧ (s.ctx (s.ctxOf s.me)).hvec ≠ 0 ∧ h.here.mode = .handler
    ∧ n.here.mode = .task ∧ (n.ctx (n.ctxOf n.me)).hvec = 0
    ∧ crewOk s.here ⟨0, 0⟩ .vec = true ∧ crewOk s.here ⟨2, 0⟩ .vec = false := by decide

/-- BrkWord: a ready word in each mode, and a word of brk. -/
theorem test_hyps_BrkWord :
    let h := stB fun b => { b with mode := .handler }
    ready (st 0 0 0 0) c0 = true ∧ ready h c0 = true ∧ h.here.mode = .handler
    ∧ decodeTableWord 64 0x000000020130003F = some (.brk c0 ⟨0, 0, 0, 1⟩) := by decide

/-- CsrInstructions: a CSR that may be written, one that may not, one that does not exist, one of the trap CSRs in each mode. -/
theorem test_hyps_CsrInstructions :
    let s := st 0 0 0 0
    let h := stB fun b => { b with mode := .handler }
    csrRead s s.me 0x801 = some 0 ∧ (csrRead s s.me 0xCC0).isSome = true
    ∧ csrRead s s.me 0xC00 = none ∧ privCsr 0x105 = true
    ∧ s.here.mode = .task ∧ csrRead h h.me 0x105 = some 0x80 ∧ h.here.mode = .handler
    ∧ ¬(privCsr 0x105 = true ∧ h.here.mode = .task) := by decide

/-- CsrValues: the first and last number of each clause is implemented. -/
theorem test_hyps_CsrValues :
    ([0x801, 0x807, 0x808, 0x809, 0x80A, 0x810, 0x818, 0x820, 0x828, 0x830, 0x838, 0x819, 0x81A, 0x81B, 0x841, 0x843, 0x5C0, 0x105,
      0x140, 0x141, 0x142, 0x143, 0x811, 0x812].all fun n => (csrRead (st 0 0 0 0) 0 n).isSome && n != 0x800) = true := by decide


/-- A context whose root table leads, over two tables, to the entry `e` of level 2, which maps the first GiB. -/
def paged (e : Nat) : State :=
  let s := stX (st 0 0x10000 0 0) fun c => { c with ptbr := 0x1000 }
  let m := ([(0x1000, 0x10001), (0x10000, 0x20001), (0x20000, e)] : List (Nat × Nat)).foldl
    (fun m w => Memory.writeList m w.1 (leBytes 8 w.2)) []
  { s with mem := m }

/-- An answer that is an error with the property. -/
def badAnd {ε α : Type} (p : ε → Bool) : Except ε α → Bool
  | .ok _ => false
  | .error e => p e

/-- AddressWindows: each window at its limits, and what is no window. -/
theorem test_hyps_AddressWindows :
    let s := st 0 0 0 0
    let a : Agent := { s.agent 0 with frame := 0x1000, framesz := 16 }
    let ok (v : Word) : Bool := (parseWindow s a v).isSome
    ok 0x01FFFFFFFFFFFFFF = true ∧ ok 0x0200000000000000 = false ∧ ok 0xC0200000007FFFFF = true ∧ s.granted 0 1 = true
    ∧ ok 0xC000000000800000 = false ∧ ok 0xC200000000000000 = false ∧ ok 0xC040000000000000 = false ∧ s.granted 0 2 = false
    ∧ ok 0xD0400000007FFFFF = true ∧ ok 0xD000000000800000 = false ∧ ok 0xE00000000000000F = true ∧ ok 0xE000000000000010 = false
    ∧ ok 0xE000010000000000 = false ∧ ok 0xF000000000000000 = false ∧ ok 0xB000000000000000 = false := by decide

/-- AccessTraps: no window, another core's scratchpad, a misaligned address, a page fault, a stale copy and another's record. -/
theorem test_hyps_AccessTraps :
    let s := st 0 0x10000 0 0
    let p := paged 0xF
    let a := s.agent 0
    parseWindow s a 0x0200000000000000 = none ∧ (parseWindow s a 0xD040000000000000).map (·.1) = some 2
    ∧ good (window s a (own + 1)) = true ∧ (own + 1).toNat % 8 ≠ 0
    ∧ goodAnd (fun t => t == .glob 0x10000) (window s a 0x10000) = true ∧ xlatRefreshed s 0 0 .read 0x10000 = false
    ∧ badAnd (fun f => f.cause == 7) (xlatCore s 0 0 .read 0x10000 0x10000) = true
    ∧ goodAnd (fun e => e.1.core.isNone && !p.refreshed e.1 && e.1.cached && e.1.loc == 0x10000) (xlatCore p 0 0 .write 0x10000 0x10000) = true
    ∧ (p.modCore 0 fun c => { c with l1 := [(sectorOf 0x10000, .stale)] }).l1Of 0 (sectorOf 0x10000) = some .stale
    ∧ SMap.find ({ p with dir := [(sectorOf 0x10000, ⟨.task 9, []⟩)] } : State).dir (sectorOf 0x10000) = some ⟨.task 9, []⟩
    ∧ p.retiring 9 = false ∧ (9 : Nat) ≠ a.uid := by decide

/-- TranslationWalk: the heap, no root table, one beyond memory, and an entry for each of its causes. -/
theorem test_hyps_TranslationWalk :
    let stops (e cause : Nat) (k : Access) : Bool := badAnd (fun f => f.cause == cause && f.level == 2) (xlatCtx (paged e) 0 0 k 0x10000 0x10000)
    let heap := stX (st 0 0 0 0) fun c => { c with heapb := 0x10000, heapl := 0x10000, heapo := 0x20000 }
    let far := stX (st 0 0 0 0) fun c => { c with ptbr := w64 (st 0 0 0 0).memSize }
    let torn : State := { paged 0xF with bad := [sectorOf 0x20000] }
    goodAnd (fun p => p.loc == 0x3FFFF) (xlatCtx heap 0 0 .read 0x1FFFF 0x1FFFF) = true
    ∧ badAnd (fun f => f.cause == 7) (xlatCtx heap 0 0 .read 0x20000 0x20000) = true
    ∧ badAnd (fun f => f.cause == 5) (xlatCtx far 0 0 .read 0x20000 0x20000) = true
    ∧ badAnd (fun f => f.cause == 6) (xlatCtx torn 0 0 .read 0x10000 0x10000) = true
    ∧ stops 0xE 1 .read = true ∧ stops 0x1F 4 .read = true ∧ stops 0x500000000000000F 4 .read = true ∧ stops 0xF03 3 .read = false
    ∧ stops 0x3B 4 .read = true ∧ stops 0x3 3 .read = true ∧ stops 0x7 2 .write = true ∧ stops 0x3F4F 5 .read = true
    ∧ goodAnd (fun p => p.loc == 0x10000 && p.cached) (xlatCtx (paged 0xF) 0 0 .write 0x10000 0x10000) = true := by decide

/-- LeavesAndTlbs: no heap, an entry of each TLB, and a walk that lists its leaf. -/
theorem test_hyps_LeavesAndTlbs :
    let p := paged 0xF
    goodAnd (fun r => (tlbFind (r.2.core 0).tlb 0 0x3FFFFFFF).isSome && (tlbFind (SMap.get [] r.2.tlb2 0) 0 0x3FFFFFFF).isSome
        && (tlbFind (r.2.core 0).tlb 0 0x40000000).isNone
        && ((tlbFind (r.2.core 0).tlb 0 0).map fun t => pteCause r.2 0 (tlbLevel t) t.pte .write == 0) == some true
        && (tlbFind ((r.2.modCore 0 fun c => { c with tlb := [] }).core 0).tlb 0 0).isNone) (xlatCore p 0 0 .read 0x10000 0x10000) = true
    ∧ heapPlace p 0 0 0x10000 = none ∧ tlbFind (p.core 0).tlb 0 0x10000 = none ∧ tlbFind (SMap.get [] p.tlb2 0) 0 0x10000 = none
    ∧ badAnd (fun f => f.cause == 1) (walkCtx (paged 0) 0 0 .read 0x10000 0x10000) = true := by decide

/-- Rv64IntegerResults: the lowest and the highest bit of 0x90, and a word whose low half is 0. -/
theorem test_hyps_Rv64IntegerResults :
    (0x90 : Word).getLsbD 4 = true ∧ ((List.range 4).all fun i => !(0x90 : Word).getLsbD i) = true ∧ (0x90 : Word).getLsbD 7 = true
    ∧ ((range2 8 56).all fun i => !(0x90 : Word).getLsbD i) = true ∧ (0x100000000 : Word).toNat % 2 ^ 32 = 0 := by decide

/-- Rv64LoadsAndStores and FencesAndHomeAccesses: a store to a page that an L1 may hold, of which another core has a clean copy. -/
theorem test_hyps_cached :
    let p := (paged 0xF).modCore 1 fun c => { c with l1 := [(sectorOf 0x10000, .clean)] }
    ready p c0 = true ∧ SMap.rising p.dir = true ∧ p.l1Of 1 (sectorOf 0x10000) = some .clean ∧ (1 : Nat) ≠ (p.agent 0).key
    ∧ goodAnd (fun e => e.1.cached && sectorOf e.1.loc == sectorOf 0x10000) (access p (p.agent 0) .write false 6 0x10000 8) = true
    ∧ goodAnd (fun e => e.1.cached && sectorOf e.1.loc == sectorOf 0x10000) (access (p.issued c0) (p.agent 0) .write true 6 0x10000 8) = true
    := by decide
/-! ### Crews, launches, tasks and edges -/

/-- A state with doublewords stored by the task. -/
def withWords (s : State) (a : Word) (ws : List Word) : State :=
  match storeWords s (s.agent s.me) ws a with
  | .ok t => t
  | .error _ => s

/-- A queued vector command of the task. -/
def vc : VCmd := { VCmd.blank .add with uid := 1, vd := .stat 1, va := .stat 2, vb := .stat 3, pg := none, ty := 5, tl := 1 }

/-- CrewAndTailWords: no crew, an active and a suspended one, an idle and a busy member, and a task that may end. -/
theorem test_hyps_CrewAndTailWords :
    let s := st 0 0 0 0
    let q := stC fun c => { c with vq := [vc] }
    let w : Crew := ⟨2, 0, [], false, 0⟩
    let a := stB fun b => { b with crew := some w }
    ready s c0 = true ∧ ready q c0 = true ∧ ready a c0 = true
    ∧ s.here.crew = none ∧ s.here.exposed = [] ∧ maskBusy (s.core 0) 1 255 = false ∧ maskBusy (q.core 0) 1 255 = true
    ∧ a.here.crew = some w ∧ maskBusy (a.core 0) 1 2 = false ∧ (stB fun b => { b with crew := some { w with suspended := true } }).here.crew ≠ none
    ∧ s.here.uid = some 1 ∧ s.task 1 = some tk ∧ tk.errs = [] ∧ s.here.replay = [] ∧ good (tailStopped s s.me 1) = true
    ∧ formsPerformed (s.core 0) 1 = true ∧ semOk s 0 63 = true := by decide

/-- A header that launch accepts. -/
def hd : Header := [0x100, 0x0100060000000001, 0, 1, 0, 0, 0, 0, 0, 0, 0, 0, 0, 0, 0, 0]

/-- LaunchWord: an accepted header, a refused one, no free slot, a misaligned address. -/
theorem test_hyps_LaunchWord :
    let s := withWords (st 0 own 0 0) own hd
    ready s c0 = true ∧ own.toNat % 128 = 0 ∧ (own + 64).toNat % 128 ≠ 0 ∧ (s.ctx 0).freeSlot = some 1
    ∧ goodAnd (fun r => launchCheck s 0 r.1 (some 3) == 0 && semOk s 0 1) (readWords (s.issued c0) (s.agent 0) 16 own) = true
    ∧ goodAnd (fun r => launchCheck s 0 r.1 (some 3) != 0) (readWords ((st 0 own 0 0).issued c0) (s.agent 0) 16 own) = true
    ∧ ({ cx with launches := (List.range 64).map fun i => (i, la) } : Ctx).freeSlot = none := by decide

/-- SpawnAndReadings: the flags, the handle, the code and the room of spawn; PRIO, core 63 and stack 11 and one beyond each. -/
theorem test_hyps_SpawnAndReadings :
    let s := st 0 5 0 0
    ready s c0 = true ∧ (2 ^ 34 : Nat) / 2 ^ 34 ≠ 0 ∧ (2 ^ 34 - 1 : Nat) / 2 ^ 34 = 0
    ∧ semKey s 0 64 = some none ∧ semKey s 0 63 = some (some 63)
    ∧ (0x3FFFC : Nat) % 4 = 0 ∧ (0x3FFFC : Nat) < 0x40000
    ∧ s.queuedRecords 0 < (s.ctx 0).recqn.toNat
    ∧ ¬(stX s fun c => { c with recqn := 0 }).queuedRecords 0 < ((stX s fun c => { c with recqn := 0 }).ctx 0).recqn.toNat
    ∧ s.myTask 0 = some tk ∧ s.launchOf tk = some la ∧ la.ended = false ∧ s.statusKey tk.ctx la = some 1 ∧ s.semRead 1 + 1 ≠ 0
    ∧ (5 : Nat) ≤ la.prio ∧ la.prio < 6 ∧ 11 < 12 / s.parts ∧ 12 / s.parts ≤ 12
    ∧ 0xFFE0 % 65536 + 32 ≤ 65536 ∧ 65536 < 0xFFE1 % 65536 + 32 := by decide

/-- JoinWord: a counter of 1, which gates a record, and one of 0. -/
theorem test_hyps_JoinWord :
    let g : State := { st 0 2 0 0 with sem := [(2, 1)], tasks := [(1, tk), (2, { tk with st := .gated, jh := 2 })] }
    ready g c0 = true ∧ semKey g (g.ctxOf 0) 2 = some (some 2) ∧ g.semRead 2 = 1 ∧ (st 0 2 0 0).semRead 2 = 0
    ∧ (g.task 2).map (·.st) = some .gated ∧ semKey g 0 (2 : BitVec 32) = some (some 2) := by decide

/-- WidfWord and WidinsWord: fields 5 and 6; a value that fits its field of 4 bits and one that does not. -/
theorem test_hyps_WidfWord :
    let s := st 0 0x31 15 0
    ready s c0 = true ∧ (5 : BitVec 21).toNat ≤ 5 ∧ 5 < (6 : BitVec 21).toNat ∧ widthOf s.widths 0 = 4
    ∧ (15 : Nat) < 2 ^ widthOf s.widths 0 ∧ 2 ^ widthOf s.widths 0 ≤ 16 ∧ widthOf s.widths 5 = 0
    ∧ decodeTableWord 64 0x298000005060003F = some (.widf c0 ⟨5, 6, 0, 5⟩) := by decide

/-- DrawWord and BudgetWord: a ready task of a launch, and a word of budget. -/
theorem test_hyps_DrawWord :
    ready (st 0 0 0 0) c0 = true ∧ (st 0 0 0 0).myLaunch 0 = some la
    ∧ decodeTableWord 64 0x280000000070003F = some (.budget c0 ⟨5, 0, 0, 0⟩) := by decide

/-- A state whose edges 0 (produced) and 1 (consumed) hold these six words. -/
def edges (n : Word) (l : List Word) : State :=
  { st 0 n 0 0 with sem := ([8, 16].flatMap fun w => (List.range 6).map fun i => (w + i, l.getD i 0)).filter fun e => e.2 != 0 }

/-- EdgeQueueWords: each clause of the producing end at the place where it meets the next. -/
theorem test_hyps_EdgeQueueWords_send :
    let f : FTk := ⟨5, 6, 0, 0⟩
    let r (s : State) (k : Nat) : Nat := (s.semRead (8 + k)).toNat
    let s (wpos pubd freed closed : Word) := edges 0 [2, wpos, pubd, 0, freed, closed]
    ready (s 1 0 0 0) c0 = true ∧ goodAnd (fun ks => ks == [8, 9, 10, 11, 12, 13]) (edgeWords (s 1 0 0 0) f true) = true
    ∧ r (s 1 0 0 0) 1 - r (s 1 0 0 0) 4 < r (s 1 0 0 0) 0 ∧ r (s 2 0 0 0) 0 ≤ r (s 2 0 0 0) 1 - r (s 2 0 0 0) 4
    ∧ (s 0 0 0 0).semRead 13 ≠ 1 ∧ (s 0 0 0 1).semRead 13 = 1
    ∧ r (s 1 0 0 0) 1 = 1 ∧ r (s 2 1 0 0) 2 = 1 ∧ (1 : Nat) < r (s 2 1 0 0) 1 ∧ r (s 2 0 0 0) 2 < 1
    ∧ r (s 1 1 0 0) 1 ≤ 1 ∧ 0 < r (s 1 1 0 0) 2 ∧ r (s 1 1 0 0) 2 = r (s 1 1 0 0) 1 ∧ r (s 2 1 0 0) 2 ≠ r (s 2 1 0 0) 1 := by decide

/-- EdgeQueueWords: the same for the consuming end. -/
theorem test_hyps_EdgeQueueWords_receive :
    let f : FTk := ⟨5, 6, 0, 1⟩
    let r (s : State) (k : Nat) : Nat := (s.semRead (16 + k)).toNat
    let s (pubd rpos freed closed : Word) := edges 0 [2, 2, pubd, rpos, freed, closed]
    ready (s 1 0 0 0) c0 = true ∧ goodAnd (fun ks => ks == [16, 17, 18, 19, 20, 21]) (edgeWords (s 1 0 0 0) f false) = true
    ∧ r (s 1 0 0 0) 3 < r (s 1 0 0 0) 2 ∧ (r (s 1 1 0 1) 3 = r (s 1 1 0 1) 2 ∧ (s 1 1 0 1).semRead 21 = 1)
    ∧ (r (s 1 1 0 0) 2 ≤ r (s 1 1 0 0) 3 ∧ (s 1 1 0 0).semRead 21 ≠ 1)
    ∧ (r (s 1 0 0 0) 3 = 0 ∧ 0 < r (s 1 0 0 0) 2) ∧ r (s 1 0 0 1) 2 ≤ 1 ∧ (r (s 2 0 0 0) 3 ≠ 1 ∧ 1 < r (s 2 0 0 0) 2)
    ∧ (0 < r (s 1 1 0 0) 3 ∧ r (s 1 1 0 0) 4 = 0) ∧ (1 < r (s 2 2 0 0) 3 ∧ r (s 2 2 0 0) 4 < 1)
    ∧ r (s 1 1 0 0) 3 ≤ 1 ∧ 0 < r (s 1 1 1 0) 4 := by decide

/-- EdgeQueueWords: a run of six words, and the capacities. -/
theorem test_hyps_EdgeQueueWords_init :
    ready (st 0 58 0 0) c0 = true
    ∧ goodAnd (fun ks => ks == [58, 59, 60, 61, 62, 63]) (semRun (st 0 58 0 0) 0 58 54 6 0) = true
    ∧ (0x1000000 : Word).toNat ≤ 2 ^ 24 ∧ 2 ^ 24 < (0x1000001 : Word).toNat := by decide

/-! ### Semaphores and timeline counters -/

/-- SemaphoreInstructions: a good handle, an index beyond the allocation, a one in bit 20; scopes 5 and 6; a word at and below the
awaited value. -/
theorem test_hyps_SemaphoreInstructions :
    let s : State := { st 0 63 9 0 with sem := [(63, 9)] }
    ready s c0 = true ∧ semKey s (s.ctxOf s.me) 63 = some (some 63) ∧ (5 : BitVec 3).toNat ≤ 5 ∧ 5 < (6 : BitVec 3).toNat
    ∧ (0x100000 : BitVec 32).toNat / 2 ^ 20 ≠ 0 ∧ (64 : BitVec 32).toNat / 2 ^ 20 = 0
    ∧ (s.ctx (s.ctxOf s.me)).sem0.toNat % 2 ^ 19 ≤ (64 : BitVec 32).toNat % 2 ^ 19
    ∧ (s.ctx (s.ctxOf s.me)).sem1.toNat % 2 ^ 19 ≤ (0x80000 : BitVec 32).toNat % 2 ^ 19
    ∧ (9 : Word).toNat ≤ (s.semRead 63).toNat ∧ (s.semRead 63).toNat < (10 : Word).toNat ∧ s.here.granted = false := by decide

/-- BumpWord: a sum at the limit and one beyond it. -/
theorem test_hyps_BumpWord :
    let s : State := { st 0 63 1 10 with sem := [(63, 9)] }
    ready s c0 = true ∧ semKey s (s.ctxOf s.me) 63 = some (some 63)
    ∧ (s.semRead 63).toNat + (s.rx 0 7).toNat ≤ (s.rx 0 8).toNat
    ∧ (s.rx 0 8).toNat < (s.semRead 63).toNat + (2 : Word).toNat := by decide

/-- TimelineWords: a counter at and below the awaited value, with nothing stopped. -/
theorem test_hyps_TimelineWords :
    let s := stB fun b => { b with tl := [(2, ⟨4, 4, []⟩)] }
    ready s c0 = true ∧ stoppedOn (s.core 0) 2 1 = none ∧ stoppedStreamOn (s.core 0) s.here 2 1 4 = none
    ∧ stoppedStreamOn (s.core 0) s.here 2 1 5 = none
    ∧ (4 : Nat) ≤ (SMap.get Timeline.reset s.here.tl 2).val ∧ (SMap.get Timeline.reset s.here.tl 2).val < 5
    ∧ s.waited s.me < 1024 := by decide

/-! ### The handler's words, seals and vouches -/

/-- The task in handler mode, with x5 to x8 as given. -/
def hs (d a b e : Word) : State := (st d a b e).modBank 0 fun k => { k with mode := .handler }

/-- HandlerWords: each mode; an answer, no request, a request of another task; QTL at and below the awaited value. -/
theorem test_hyps_HandlerWords :
    let h := hs 0 7 0 0
    let q (n : Nat) : State := stX h fun c => { c with qtl := n, req := some ⟨none⟩ }
    ready (st 0 0 0 0) c0 = true ∧ (st 0 0 0 0).here.mode = .task ∧ ready h c0 = true ∧ h.here.mode = .handler
    ∧ (h.modBank 0 fun b => { b with hans := some 9 }).here.hans = some 9 ∧ h.here.hans = none ∧ (h.ctx 0).req = none
    ∧ ((q 0).ctx 0).req = some ⟨none⟩ ∧ (⟨none⟩ : HostReq) ≠ ⟨some (h.me, h.here.uid.getD 0)⟩
    ∧ (h.rx 0 6).toNat ≤ ((q 7).ctx 0).qtl ∧ ((q 6).ctx 0).qtl < (h.rx 0 6).toNat := by decide

/-- KillWords: a handle of the launch, one of no word, one with a one in bit 20. -/
theorem test_hyps_KillWords :
    let h := hs 0 1 0 0
    ready h c0 = true ∧ h.here.mode = .handler ∧ semKey h 0 1 = some (some 1) ∧ semKey h 0 0x100000 = none
    ∧ semKey h 0 64 = some none ∧ h.slotOf 0 1 = some 0 ∧ SMap.find (h.ctx 0).launches 0 = some la ∧ h.task 1 = some tk
    ∧ tk.ctx = 0 ∧ tk.lslot = 0 ∧ la.first ≤ 1 := by decide

/-- A page fault of the task that nobody waits for. -/
def fr : FaultRec := ⟨0x1000, 9, 41, 0, .core, 4, 0, 0, 0, 0, 0, 0, 0x1000, none, []⟩

/-- GateAndTranslationWords: the own core, a core of the grant that is awake and one that is gated, one outside; a fault record
that is answered and none; an answer of 1 and one of 2. -/
theorem test_hyps_GateAndTranslationWords :
    let h := hs 0 1 1 0
    let g := h.modCore 1 fun c => { c with gated := true }
    let f : State := { hs 0 9 1 0 with faults := [fr] }
    ready h c0 = true ∧ h.here.mode = .handler ∧ h.granted (h.ctxOf h.me) 1 = true ∧ h.granted (h.ctxOf h.me) 2 = false
    ∧ 64 * keyPart (keyCore h.me) + 0 = keyCore h.me ∧ 64 * keyPart (keyCore h.me) + 1 ≠ keyCore h.me
    ∧ (h.core 1).gated = false ∧ (h.core 1).awake = true ∧ h.seals = [] ∧ (h.core 1).arrays = [] ∧ (g.core 1).gated = true
    ∧ (g.core 1).down = false ∧ ((h.modCore 1 fun c => { c with down := true }).core 1).awake = false
    ∧ ready f c0 = true ∧ f.unanswered 0 9 = some fr ∧ fr.waiters = [] ∧ f.unanswered 0 8 = none
    ∧ (f.rx 0 7).toNat ≤ 1 ∧ 1 < (2 : Word).toNat := by decide

/-- RecoveryFences: a fence that has begun, one that begins on a shadowed core and one that does not; error fences of a task with
and without errors and with outstanding commands; tasks whose vouch is settled and one that is not. -/
theorem test_hyps_RecoveryFences :
    let s := st 0 0 0 0
    let p := stB fun b => { b with pf := some (3, false) }
    let w := stC fun c => { c with shadowed := true }
    let v : State := { s with tasks := [(1, tk), (2, { tk with st := .retired, provisional := true })] }
    let e : State := { s with tasks := [(1, { tk with errs := [(8, true)] })] }
    p.here.pf = some (3, false) ∧ p.seals = [] ∧ ready w c0 = true ∧ w.here.pf = none ∧ (w.core (keyCore w.me)).shadowed = true
    ∧ 1 ≤ (1 : BitVec 3).toNat ∧ (4 : BitVec 3).toNat ≤ 4 ∧ 4 < (5 : BitVec 3).toNat ∧ ready s c0 = true ∧ (s.core 0).shadowed = false
    ∧ s.here.uid = some 1 ∧ s.task 1 = some tk ∧ condHolds s (.idle 1) = true ∧ tk.errs = []
    ∧ (stC fun c => { c with vq := [vc] }).here.uid = some 1 ∧ condHolds (stC fun c => { c with vq := [vc] }) (.idle 1) = false
    ∧ (e.task 1).map (·.errs) = some [(8, true)] ∧ condHolds e (.idle 1) = true
    ∧ ready v c0 = true ∧ ((v.covered 0 0 5).map fun u => (u.1, u.2.provisional)) = [(2, true)]
    ∧ v.vouchSet 0 5 = [2] ∧ s.covered 0 0 5 = [] := by decide


/-- GateAndTranslationWords: a core with a seal in progress, and a cached translation that an update meets and one that it does not. -/
theorem test_hyps_PageTableUpdates :
    let g : State := { hs 0 1 1 0 with seals := [⟨1, 0, 1, none, false⟩] }
    let e : TlbEntry := ⟨0, 0, 2 ^ 30, 0xF⟩
    let p := (paged 0xF).modBank 0 fun b => { b with mode := .handler }
    let u := p.modCore 0 fun c => { c with tlb := [e, { e with page := 2 ^ 30 }] }
    (g.seals.any fun y => y.core == 1) = true ∧ (g.core 1).awake = true ∧ ready u c0 = true ∧ u.here.mode = .handler ∧ keyPart 0 = keyPart (keyCore u.me)
    ∧ u.ctxOf u.me = 0 ∧ spansMeet 0x10000 0x10000 e.page e.size = true ∧ spansMeet 0x10000 0x10000 (2 ^ 30) e.size = false
    ∧ pteCause u 0 (tlbLevel e) e.pte .read = 0 ∧ leafSpan 0 (e.page, tlbLevel e, e.pte) = some (0, 2 ^ 30)
    ∧ spansMeet 0 (2 ^ 30) (32 * 0x100) 32 = true := by decide
/-! ### The vector engine -/

/-- What VecReady asks, as a test. -/
def vecReady (s : State) (c : Ctl) : Bool :=
  s.here.uid.isSome && crewOk s.here c .vec && (trapV (s.core (keyCore s.me)) (s.here.uid.getD 0)).isNone
    && (stoppedVecStream (s.core (keyCore s.me)) s.here (s.here.uid.getD 0)).isNone

theorem vecReady_of {s : State} {c : Ctl} (h : vecReady s c = true) : VecReady s c := by
  simp only [vecReady, Bool.and_eq_true, Option.isNone_iff_eq_none] at h
  exact ⟨h.1.1.1, h.1.1.2, h.1.2, h.2⟩

/-- A stream of 4 entries of 256 bytes in the own scratchpad. -/
def sd (dir fmt : Nat) : List Word :=
  [own + 0x1000, 0x100, 0x0001000400000000, BitVec.ofNat 64 (fmt * 2 ^ 24 + 0x00FF0001), 0, BitVec.ofNat 64 (dir * 2 ^ 32), 0, 0]

/-- A task with an input stream (0), an output stream (1) and a grant of 256 rotating registers. -/
def sb : State := stB fun b => { b with
  streams := [(0, Stream.ofWords (sd 0 5)), (1, Stream.ofWords (sd 1 5))], grant := 256, vrb := 255, prb := 47 }

/-- VectorOperandFields: the first and last code of each kind; each state of a stream that a field can find; the ends of a
pattern. -/
theorem test_hyps_VectorOperandFields :
    let b := sb.here
    (63 : BitVec 9).toNat < 64 ∧ 64 ≤ (64 : BitVec 9).toNat ∧ (319 : BitVec 9).toNat < 64 + b.grant ∧ (319 : BitVec 9).toNat < 320
    ∧ 64 + (st 0 0 0 0).here.grant ≤ (64 : BitVec 9).toNat ∧ 320 ≤ (320 : BitVec 9).toNat ∧ (351 : BitVec 9).toNat < 352
    ∧ 352 ≤ (352 : BitVec 9).toNat ∧ b.stream 2 = none ∧ b.stream 0 = some (Stream.ofWords (sd 0 5))
    ∧ (Stream.ofWords (sd 0 5)).dir ≠ 1 ∧ (Stream.ofWords (sd 1 5)).dir = 1
    ∧ (Stream.ofWords (sd 0 5)).fmt.toNat ∈ [5] ∧ (Stream.ofWords (sd 0 5)).fmt.toNat ∉ [6]
    ∧ (Stream.ofWords (sd 0 5)).stop = 0 ∧ (Stream.ofWords (sd 0 5)).issue < (Stream.ofWords (sd 0 5)).total
    ∧ { Stream.ofWords (sd 0 5) with issue := 4 }.total ≤ { Stream.ofWords (sd 0 5) with issue := 4 }.issue := by decide

/-- VectorArithmeticAndMemoryWords: every instruction has a type, immediate or function code that it accepts, with register operands;
room in the queue. -/
theorem test_hyps_VectorArithmeticAndMemoryWords :
    let s := sb
    let b := s.here
    let g (code : Nat) (u : Use) (t : Nat) : Bool := good (vField b (BitVec.ofNat 9 code) u [t] none 55)
    let some3 (o : VOp) : Bool := (List.range 7).any fun t =>
      o.accepts t && g 1 o.dest t && g 2 .read t && g 319 .read t && good (vecMode b o t (.stat 1))
    vecReady s c0 = true ∧ (s.core 0).vq.length < 512
    ∧ ([VOp.add, .sub, .mul, .fma, .fms, .fnma, .min, .max, .div, .amin, .amax, .sadd, .ssub, .mulh, .dot2, .dot4, .and, .or, .xor, .andn,
        .sll, .srl, .sra, .sel, .perm, .zip, .unzip, .trn, .addx, .subx, .mulx, .fmax, .minx, .maxx, .scalex].all some3) = true
    ∧ ([VOp.addi, .mini, .maxi, .andi, .xori, .slli, .srli, .srai, .slide, .rotl, .bcl].all fun o =>
        (List.range 7).any fun t => o.accepts t && immOk o t 7) = true
    ∧ ([VOp.fn, .neg, .abs, .cls, .bits, .rsum, .rmax, .rmin, .ramax, .scan, .mov, .rev].all fun o =>
        (List.range 7).any fun t => o.accepts t && fnOk o 0 && good (vecMode b o t (.stat 1))) = true
    ∧ cvtPair 0 3 = true ∧ good (fieldMode b 0 false 29) = true ∧ g 1 .write 3 = true
    ∧ ([VOp.pcnt, .pfirst, .ptox, .pfromx, .pwhile].all fun o => (List.range 7).any fun t => pxfFn o t 0) = true
    ∧ g 1 .reg 0 = true ∧ predPending (s.core 0) 1 1 = false ∧ s.here.exposed = []
    ∧ predPending ((stC fun c => { c with vq := [{ VCmd.blank .cmp with uid := 1, pd := 1 }] }).core 0) 1 1 = true
    ∧ (predFor (s.core 0) s.here 1 c0 1).isSome = true
    ∧ good (checkRun s (s.agent s.me) none 32 4 own (List.range 64)) = true
    ∧ good (checkRun s (s.agent s.me) none 32 6 own (List.range 64)) = true
    ∧ ([VOp.gath, .scat, .scadd].all fun o => (List.range 7).any fun t => o.accepts t && good (vField b 320 .read (indexFmts t) none 41)) = true := by
  decide

/-- VectorControlWords: the function codes; no mark, a mark that fits the oldest command and one without a command; LC of 0, 1 and 2. -/
theorem test_hyps_VectorControlWords :
    let s := st 0 1 0 0
    let m : State := (stC fun c => { c with vq := [vc] }).modBank 0 fun b => { b with vupc := BitVec.ofNat 9 vc.opc, vl0 := 64 }
    vecReady s c0 = true ∧ (1 : BitVec 4).toNat ≤ 1 ∧ 1 < (2 : BitVec 4).toNat ∧ (2 : BitVec 4).toNat ≤ 2 ∧ 2 < (3 : BitVec 4).toNat
    ∧ (replayTurn s 0 1 && mayIssue s 0 1 .vec c0) = true ∧ (replayTurn m 0 1 && mayIssue m 0 1 .vec c0) = false
    ∧ s.here.vupc = 0 ∧ (s.core 0).vq.length < 512
    ∧ vecReady m c0 = true ∧ m.here.vupc ≠ 0 ∧ (m.core 0).vq.find? (fun v => v.uid == 1) = some vc ∧ vc.opc = m.here.vupc.toNat
    ∧ m.here.vl0.toNat ≤ 2048 / vc.op.width vc.ty ∧ 2048 / vc.op.width vc.ty < 65 ∧ (m.core 0).vq.length < 512
    ∧ (stB fun b => { b with vupc := 9 }).here.vupc ≠ 0 ∧ (s.core 0).vq.find? (fun v => v.uid == 1) = none
    ∧ crewOf s.here .vec = none ∧ mayIssue s s.me 1 .vec c0 = true ∧ (s.here.pc + 8).toNat % 4 = 0
    ∧ (s.here.pc + (2 : BitVec 24).signExtend 64 * 4).toNat % 4 = 0 ∧ s.here.lc = 0 ∧ 2 ≤ (2 : BitVec 32).toNat := by decide

/-- VectorLanesAndPredicates: the last lane of each integer type, active and inactive; the last bit of a predicate. -/
theorem test_hyps_VectorLanesAndPredicates :
    (63 : Nat) < lanes (etWidth 5) ∧ (255 : Nat) < lanes (etWidth 6)
    ∧ active (some (1#256 <<< 252)) (etWidth 5) 63 = true ∧ active (some (1#256 <<< 252)) (etWidth 5) 62 = false ∧ (255 : Nat) < 256 := by decide

/-- VectorEngineSteps: one command, waiting and issued. -/
theorem test_hyps_VectorEngineSteps :
    let s : State := (stC fun c => { c with vq := [vc] })
    let r : VRes := ⟨none, none, none, 0, none⟩
    let i : State := (stC fun c => { c with vq := [{ vc with issued := true, res := some r }] })
    s.works 0 = true ∧ bankKey 0 0 = 0 ∧ (s.core 0).vq = [vc] ∧ vc.bank = 0 ∧ vc.uid = 1 ∧ (s.bank 0).uid = some 1
    ∧ (s.bank 0).st ≠ .restoring ∧ vc.op.isMem = false ∧ vc.op ≠ .resume ∧ vc.issued = false ∧ vc.stop = none
    ∧ (s.bank 0).crew = none ∧ (s.bank 0).exposed = [] ∧ gapPassed s 0 .vec vc.ctl = true
    ∧ rangeOk (s.core 0) 0 1 vc.seq vc.range = true ∧ s.modl.resets = [] ∧ s.running = true ∧ vc.va.arrived (s.bank 0) = true ∧ vc.vb.arrived (s.bank 0) = true
    ∧ (i.core 0).vq = [{ vc with issued := true, res := some r }]
    ∧ resultFits (i.bank 0) { vc with issued := true, res := some r } = true
    ∧ (i.bank 0).timeline 4 = ⟨vc.tl - 1, ((i.bank 0).timeline 4).last, []⟩ ∧ 0 < vc.tl := by decide


/-- VectorLanesAndPredicates: the floating types and their lanes, numbers of each kind, the conversions and the folds; an index inside a slide
and one outside. -/
theorem test_hyps_VectorValues :
    ((List.range 3).all fun ty => (fmtOf ty).isSome && decide (0 < lanes (etWidth ty))) = true ∧ lanes (etWidth 0) = 64
    ∧ active none (etWidth 0) 63 = true ∧ ((fmtOf 0).map fun f => decodeNum f 0x7FC00000) = some .nan ∧ ((fmtOf 0).map fun f => decodeNum f 0x3F800000 != .nan) = some true
    ∧ (0 : Int) ≤ (1 : Int) + (-1) ∧ ¬(0 : Int) ≤ (0 : Int) + (-1) ∧ (63 : Nat) < lanes (max (etWidth 5) (etWidth 6))
    ∧ active none (max (etWidth 5) (etWidth 6)) 63 = true ∧ (fmtOf 0).isSome = true ∧ active none 32 63 = true := by decide

/-- VectorLanesAndPredicates: element accesses of each instruction, one that faults in translation, an inactive element. -/
theorem test_hyps_VectorElementAccesses :
    let m (op : VOp) : VCmd := { VCmd.blank op with uid := 1, vd := .stat 1, ty := 5, tl := 1, sx := own }
    let z : VReg := 0
    let s := st 0 0 0 0
    let ok (op : VOp) (k : Access) : Bool := good (access s (s.agent 0) k false 30 ((m op).elemAddr z 63) 4)
    let stops (r : Except Stop State) : Bool := match r with
      | .error (.page _) => true
      | _ => false
    (s.bank 0).uid = some 1 ∧ keyCore 0 = (s.agent 0).key ∧ (63 : Nat) < lanes (etWidth 5)
    ∧ ok .ld .read = true ∧ ok .gath .read = true ∧ ok .st .write = true ∧ ok .scat .write = true ∧ ok .scadd .atomic = true
    ∧ (m .ld).op.isMem = true ∧ s.tagged (m .scadd) 0 = false ∧ active (some (1#256)) (etWidth 5) 0 = true
    ∧ active (some (1#256)) (etWidth 5) 1 = false ∧ ((s.home 0 1).getD Bank.reset).replay = []
    ∧ stops (elemAccess s (s.agent 0) { m .ld with sx := 0x10000 } z z 0) = true := by decide
/-! ### The matrix engine -/

/-- What MatReady asks, as a test. -/
def matReady (s : State) (c : Ctl) : Bool :=
  s.here.uid.isSome && crewOk s.here c .mat && (stoppedMatStream (s.core (keyCore s.me)) s.here (s.here.uid.getD 0)).isNone

theorem matReady_of {s : State} {c : Ctl} (h : matReady s c = true) : MatReady s c := by
  simp only [matReady, Bool.and_eq_true, Option.isNone_iff_eq_none] at h
  exact ⟨h.1.1, h.1.2, h.2⟩

/-- A task with every slot claimed, both streams, x6 a geometry of one element and one k-step. -/
def sm : State := sb.modBank 0 fun b => { b with claim := BitVec.allOnes 48, x := [(6, 0x10101)] }

/-- MultiplyWords: each multiply with its last slots and last tile, one slot and one tile too many, a bad geometry. -/
theorem test_hyps_MultiplyWords :
    let s := sm
    let f : FMt := ⟨11, 40, 47, 6, 2, 127, 0, 0, 0⟩
    matReady s c0 = true ∧ f.acc.toNat < 12 ∧ f.ma.toNat < 48 ∧ f.mb.toNat < 48 ∧ 12 ≤ (12 : BitVec 4).toNat ∧ 48 ≤ (48 : BitVec 6).toNat
    ∧ ([0x0C0, 0x0C1, 0x0C2, 0x0C3, 0x0C4, 0x0C5, 0x0C6, 0x0C7, 0x0C8, 0x0C9].all fun o =>
        let m := MCmd.blank o (encMt f) (s.rx s.me f.xg)
        geoOk m && (m.mmaSlots.all fun n => s.here.claim.getLsbD n) && !m.empty
          && decide (roundCourse (s.core 0) 1 m.acc ≤ m.course) && !geoOk (MCmd.blank o (encMt f) 0xFFFFFFFFFFFFFFFF)) = true := by decide

/-- TileQueueWords: the last slot and tile and one beyond, a claimed slot and one not claimed, a stream for each direction, the
two states of the resume mark. -/
theorem test_hyps_TileQueueWords :
    let s := sm
    let u := sb
    matReady s c0 = true ∧ (47 : BitVec 6).toNat < 48 ∧ 48 ≤ (48 : BitVec 6).toNat ∧ s.here.claim.getLsbD 47 = true
    ∧ u.here.claim.getLsbD 47 = false ∧ s.here.stream 0 = some (Stream.ofWords (sd 0 5)) ∧ (Stream.ofWords (sd 0 5)).dir = 0
    ∧ (Stream.ofWords (sd 0 5)).fmt.toNat = 5 ∧ (11 : BitVec 4).toNat < 12 ∧ 12 ≤ (12 : BitVec 4).toNat
    ∧ good (streamField s.here 1 true [5] (blocksPerEntry 5) 55) = true ∧ good (streamField s.here 0 false [5] (blocksPerEntry 5) 55) = true
    ∧ good (fieldMode s.here 0 true 43) = true ∧ asGeoOk 0x10101 5 (geoN 0x10101) = true ∧ asGeoOk 0x10101 5 (geoM 0x10101) = true
    ∧ geoInt 0x10101 = true ∧ geoInt 0x00101 = false ∧ asGeoOk 0x00101 4 1 = true
    ∧ s.here.mupc.getLsbD 15 = false ∧ s.here.prevMat = none ∧ (stB fun b => { b with mupc := 0x8000 }).here.mupc.getLsbD 15 = true := by
  decide

/-- TileQueueWords: an mload before the mresume, whose marks of rows 5 and 128 fit it, and whose mark of row 129 does not. -/
theorem test_hyps_TileQueueWords_resume :
    let m : MCmd := { MCmd.blank 0x0CC (encMs ⟨47, 0, 0, 5⟩) 0 with tl := 1, uid := 1 }
    let s := sm.modBank 0 fun b => { b with mupc := 0x80CC, row := 5, prevMat := some m }
    matReady s c0 = true ∧ s.here.mupc.getLsbD 15 = true ∧ m.opc = s.here.mupc.toNat % 2 ^ 9 ∧ progressOk m 5 0 0 = true
    ∧ progressOk m 128 0 0 = true ∧ progressOk m 129 0 0 = false ∧ (s.core (keyCore s.me)).mq.length < 256 := by decide

/-- A command of the tile queue. -/
def mc (opc : Nat) (operands : BitVec 36) : MCmd := { MCmd.blank opc operands 0x10101 with uid := 1, tl := 1 }

/-- A state whose core 0 has this one command in its tile queue. -/
def so (m : MCmd) : State := sm.modCore 0 fun c => { c with mq := [m] }

/-- What OneMat asks, as a test. -/
def oneMat (s : State) (m : MCmd) : Bool :=
  s.works 0 && (s.core 0).mq == [m] && m.bank == 0 && (s.bank 0).uid == some m.uid && (s.bank 0).st != .restoring

theorem oneMat_of {s : State} {m : MCmd} (h : oneMat s m = true) : OneMat s 0 0 m := by
  simp only [oneMat, Bool.and_eq_true, beq_iff_eq, bne_iff_ne] at h
  exact ⟨h.1.1.1.1, rfl, h.1.1.1.2, h.1.1.2, h.1.2, h.2⟩

/-- MatrixCommandSteps: a command of each kind, before its entry, before its start, before its end. -/
theorem test_hyps_MatrixCommandSteps :
    let z := mc 0x0CD (encMs ⟨47, 0, 0, 0⟩)
    let a := mc 0x0D2 (encAs ⟨11, 0, 0, 0, 0, 0, 0⟩)
    let l := mc 0x0CA (encMs ⟨47, 0, 0, 0⟩)
    oneMat (so z) z = true ∧ oneMat (so a) a = true ∧ oneMat (so l) l = true
    ∧ z.entered = false ∧ z.opc ≠ 0x0CE ∧ ((so z).bank 0).crew = none ∧ gapPassed (so z) 0 .mat z.ctl = true
    ∧ z.started = false ∧ z.opc = 0x0CD ∧ a.opc = 0x0D2 ∧ SMap.find ((so a).core 0).rounds a.acc = none
    ∧ l.opc = 0x0CA ∧ l.finished = false ∧ SMap.find ((so l).core 0).slots l.ms = none ∧ l.opc ≠ 0x0D3
    ∧ ((so l).bank 0).timeline 5 = ⟨l.tl - 1, (((so l).bank 0).timeline 5).last, []⟩ ∧ 0 < l.tl := by decide

/-- MatrixProgress: the last line of an mload, an entry of an astore and of an aload, an array before its last mark. -/
theorem test_hyps_MatrixProgress :
    let m : MCmd := { mc 0x0CC (encMs ⟨47, 0, 0, 5⟩) with started := true, entry := 0, row := 127, sn := 0, entries := 128 }
    let i : Stream := { Stream.ofWords (sd 0 5) with buf := [(127, 1#2048)] }
    let s := (so m).modBank 0 fun b => { b with streams := [(0, i), (1, Stream.ofWords (sd 1 5))] }
    let o : MCmd := { mc 0x0D0 (encAs ⟨11, 1, 6, 5, 0, 0, 0⟩) with started := true, sn := 1, entries := 1 }
    let x : MCmd := { mc 0x0C2 (encMt ⟨11, 0, 1, 6, 0, 127, 0, 0, 0⟩) with started := true }
    let t : State := (so x).modCore 0 fun c => { c with arrays := [(0, ⟨0, 1, []⟩)] }
    oneMat s m = true ∧ oneMat (so o) o = true ∧ oneMat t x = true
    ∧ m.row < 128 ∧ ((s.bank 0).stream 0).isSome = true ∧ (SMap.find i.buf (m.entry + m.row)).isSome = true
    ∧ o.row < o.entries ∧ ((so o).bank 0).stream 1 = some (Stream.ofWords (sd 1 5)) ∧ (Stream.ofWords (sd 1 5)).hasRoom 0 = true
    ∧ SMap.find (t.core 0).arrays 0 = some ⟨0, 1, []⟩ ∧ x.tl = 1 ∧ isMma x.opc = true ∧ geoK x.geo ≠ 0 := by decide


/-- MatrixCommandSteps and MatrixProgress: a command that has entered and one held slot's owner, the completion of an aload whose last element
it holds, an entry of an aload in the buffer, geometries of integers and of floats. -/
theorem test_hyps_MatrixAload :
    let m : MCmd := { mc 0x0D3 (encAs ⟨11, 0, 6, 5, 0, 0, 0⟩) with entered := true, started := true, sn := 0, entries := 1 }
    let e : MCmd := { m with finished := true, held := [(0, 7), (16383, 9)] }
    let i : Stream := { Stream.ofWords (sd 0 5) with buf := [(0, 1#2048)] }
    let s := (so m).modBank 0 fun b => { b with streams := [(0, i)] }
    let z : MCmd := { mc 0x0CD (encMs ⟨47, 0, 0, 0⟩) with entered := true }
    let h := (so (mc 0x0CA (encMs ⟨47, 0, 0, 0⟩))).modCore 0 fun c => { c with slots := [(47, ⟨none, some 0⟩)] }
    oneMat s m = true ∧ m.opc = 0x0D3 ∧ m.row < m.entries ∧ (s.bank 0).stream 0 = some i ∧ SMap.find i.buf (m.entry + m.row) = some 1
    ∧ geoM m.geo ≤ 128 ∧ geoN m.geo ≤ 128 ∧ oneMat (so e) e = true ∧ e.finished = true ∧ e.acc < 12 ∧ (e.held.map (·.1)).Nodup
    ∧ oneMat (so z) z = true ∧ z.started = false ∧ (so z).running = true ∧ (so z).modl.resets = []
    ∧ (SMap.find (h.core 0).slots 47).map (·.held) = some none ∧ (SMap.find (h.core 0).slots 47).bind (·.last) = some 0
    ∧ geoInt 0x10101 = true ∧ geoInt 0x00101 = false := by decide
/-! ### Copy queues -/

/-- CopyWords: aligned and misaligned descriptors, legal and illegal flags, a global and a scratchpad address, a legal and an illegal
parameter, room and a stopped command. -/
theorem test_hyps_CopyWords :
    let s := st 0 own 0 0
    let k : CCmd := { CCmd.blank .copy own 0 0 with uid := 1, tl := 1, stop := some (31, 0) }
    let t := stC fun c => { c with cq := [(2, [k])] }
    crewOk s.here c0 .c2 = true ∧ trapC (s.core 0) 2 1 = none ∧ ((s.core 0).unit 2).length < 128
    ∧ own.toNat % 64 = 0 ∧ (own + 16).toNat % 32 ≠ 0 ∧ (own + 32).toNat % 32 = 0 ∧ (own + 32).toNat % 64 ≠ 0
    ∧ (3 : BitVec 4).toNat < 4 ∧ 4 ≤ (4 : BitVec 4).toNat
    ∧ (parseWindow s (s.agent 0) 0x1000).any (fun w => w.1 == 0) = true
    ∧ ¬(parseWindow s (s.agent 0) own).any (fun w => w.1 == 0) = true
    ∧ migrateOk 0x1F1 = true ∧ migrateOk 2 = false ∧ trapC (t.core 0) 2 1 = some (31, 0, 1)
    ∧ trapC ((stC fun c => { c with cq := [(2, [k, { CCmd.blank .cresume 1 1 0 with uid := 1 }])] }).core 0) 2 1 = none := by decide

/-- CopyControlAndBinWords: no mark and a mark of a partly performed copy; one bin, 4,096 bins and one more; a drop counter that
lies in the allocation. -/
theorem test_hyps_CopyControlAndBinWords :
    let s := st 0 0 0 0
    let k : CCmd := { CCmd.blank .copy own 0 0 with uid := 1, tl := 1, started := true, desc := [0, 0, 8, 0x100000001, 0x100000001, 0x100000001] }
    let t := (stC fun c => { c with cq := [(2, [k])] }).modBank 0 fun b => { b with cupc := [(2, 0x8100)] }
    crewOk s.here c0 .c2 = true ∧ ready s c0 = true ∧ ((s.core 0).unit 2).length < 128 ∧ (SMap.get 0 s.here.cupc 2).getLsbD 15 = false
    ∧ (SMap.get 0 t.here.cupc 2).getLsbD 15 = true ∧ ((t.core 0).unit 2).find? (fun k => k.bank == 0 && k.partly) = some k
    ∧ keyCore k.bank = 0 ∧ bits (SMap.get 0 t.here.cupc 2) 8 0 = k.kind.opc ∧ k.indicesOk [0, 0, 0, 0, 0, 0] = true
    ∧ s.here.uid.isSome = true ∧ mayIssue s 0 1 .c2 c0 = true
    ∧ (9 : Word) ≠ ~~~0 ∧ 4095 < (4096 : Word).toNat ∧ (4096 : Word) ≠ ~~~0
    ∧ semKey s 0 0 = some (some 0) ∧ (∀ i, i < 5 → semOk s 0 (0 + BitVec.ofNat 32 i) = true) ∧ 1 ≤ (1 : Word).toNat
    ∧ (4096 : Word).toNat ≤ 4096 ∧ 4096 < (4097 : Word).toNat ∧ (4095 : Word).toNat ≤ 4095
    ∧ semKey s 0 (0 + BitVec.ofNat 32 (4 + 3 * (0 : Word).toNat)) = some (some 4) := by decide

/-- CopyControlWords: a cresume whose mark names another command. -/
theorem test_hyps_CopyControlWords_misfit :
    let k : CCmd := { CCmd.blank .binscat own 0 0 with uid := 1, tl := 1, started := true }
    let t := (stC fun c => { c with cq := [(2, [k])] }).modBank 0 fun b => { b with cupc := [(2, 0x8100)] }
    (SMap.get 0 t.here.cupc 2).getLsbD 15 = true ∧ ((t.core 0).unit 2).find? (fun k => k.bank == 0 && k.partly) = some k
    ∧ bits (SMap.get 0 t.here.cupc 2) 8 0 ≠ k.kind.opc := by decide

/-- CresumeStep: a stopped fill and the cresume behind it. -/
theorem test_hyps_CresumeStep :
    let k : CCmd := { CCmd.blank .copy own 0 0 with uid := 1, tl := 1, issued := true, started := true, stop := some (31, 0) }
    let r : CCmd := { CCmd.blank .cresume 1 1 0 with uid := 1, tl := 2, li := [0, 0, 0, 0, 0, 1], ctl := ⟨1, 0⟩ }
    let s := stC fun c => { c with cq := [(2, [k, r])] }
    s.works 0 = true ∧ (s.core 0).unit 2 = [k, r] ∧ keyCore k.bank = 0 ∧ r.bank = k.bank ∧ r.uid = k.uid ∧ r.tl ≠ k.tl
    ∧ r.xb.toNat = k.tl ∧ r.xa.toNat = k.uid ∧ k.kind ≠ .cresume ∧ r.issued = false ∧ r.finished = false
    ∧ (s.home k.bank k.uid).any (fun b => b.crew == none) = true ∧ gapPassed s k.bank (unitQueue 2) r.ctl = true ∧ r.ctl.v ≠ 0 := by
  decide

/-- CopyAndPageMoveSteps: a command before it is dequeued, before it starts, with a good and a bad descriptor, a fill into the
instruction memory, a binscat at its end, a command that is done. -/
theorem test_hyps_CopyAndPageMoveSteps_copies :
    let d : List Word := [0x1122334455667788, 0x100, 8 + 2 ^ 32, 0x100000001, 0x100000001, 0x100000001, 0, 0, 0, 0, 0, 0]
    let k : CCmd := { CCmd.blank .copy own 0 2 with uid := 1, tl := 1 }
    let s := withWords (stC fun c => { c with cq := [(2, [k])] }) own d
    let i : CCmd := { k with issued := true }
    let r : CCmd := { i with started := true, desc := d }
    let t : CCmd := { CCmd.blank .binscat own 0 0 with uid := 1, tl := 1, issued := true, started := true, desc := [0, 0, 0, 0, 0, 0, 1, 0], li := [1] }
    s.works 0 = true ∧ (s.core 0).unit 2 = [k] ∧ keyCore k.bank = 0 ∧ k.issued = false
    ∧ (s.home k.bank k.uid).any (fun b => b.crew == none) = true ∧ gapPassed s k.bank (unitQueue 2) k.ctl = true
    ∧ rangeOk (s.core 0) k.bank k.uid k.seq (some none) = true
    ∧ (i.issued = true ∧ i.started = false ∧ i.finished = false ∧ i.stop = none ∧ i.fault = none)
    ∧ (let e := readDesc s (i.agent s) i.xa 12; e.1 = d ∧ e.2.2 = none ∧ copyCheck e.2.1 (i.agent s) i e.1 = none)
    ∧ (let z := withWords (stC fun c => { c with cq := [(2, [k])] }) own (d.set 2 (2 ^ 40))
       let e := readDesc z (i.agent z) i.xa 12; e.2.2 = none ∧ copyCheck e.2.1 (i.agent z) i e.1 = some (31, 0))
    ∧ (r.started = true ∧ r.fill = true ∧ copyKind r.desc = 1 ∧ r.part = 0 ∧ 0 < copyLen r.desc ∧ copyLen r.desc ≤ 65536)
    ∧ (runIteration (s.modCore 0 fun c => { c with cq := [(2, [r])] }) 2 r).isSome = true
    ∧ (t.kind = .binscat ∧ t.det = false ∧ bits (t.desc.getD 6 0) 31 0 ≤ t.li.getD 0 0)
    ∧ (runToken (s.modCore 0 fun c => { c with cq := [(2, [t])] }) 2 t).isSome = true
    ∧ ({ r with finished := true } : CCmd).kind ≠ .migrate
    ∧ s.running = true ∧ s.modl.resets = [] := by decide

/-- CopyAndPageMoveSteps: a heap page, a page that stays, a page that moves, and a move that is done, late and in time. -/
theorem test_hyps_CopyAndPageMoveSteps_pages :
    let m : Move := ⟨0, 0, 2, 0, 1, 0, 0, 0, false, false⟩
    let s : State := { paged 0x4000004F with moves := [m] }
    let u := paged 0x4000002F
    let h := stX (st 0 0 0 0) fun c => { c with heapl := 0x10000 }
    let w : Move := { m with moved := true, done := true, parms := 2 ^ 32 }
    s.moves[0]? = some m ∧ m.done = false ∧ (heapPlace h 0 0 0).isSome = true ∧ heapPlace s 0 0 0 = none
    ∧ goodAnd (fun e => moveOutcome s 0 e.1 e.2 0 0 == 2) (match walkCtx s 0 0 .read 0 0 with | .ok e => .ok e | .error _ => .error ()) = true
    ∧ Memory.wf s.mem = true ∧ bits m.parms 3 0 ≤ 1 ∧ keyPart m.core = 0
    ∧ ((s.leaves 0).map fun x => (x.1, x.2.2, samePage x.2.1 0x4000004F)) = [(0x20000, 2, true)]
    ∧ goodAnd (fun e => moveOutcome u 0 e.1 e.2 0 0 == 1) (match walkCtx u 0 0 .read 0 0 with | .ok e => .ok e | .error _ => .error ()) = true
    ∧ (w.done = true ∧ w.moved = true ∧ bits w.parms 63 32 ≠ 0 ∧ w.at0 + bits w.parms 63 32 < { s with cycle := 2048 }.tick)
    ∧ ¬(w.at0 + bits w.parms 63 32 < { s with cycle := 1024 }.tick) := by decide


/-- CopyAndPageMoveSteps: the walk over the iterations at its first and its last; a copy of one piece, one that faults before its end,
and one of 16 bytes. -/
theorem test_hyps_CopyIterationValues :
    let d (src dst : Word) (n : Nat) : List Word := [src, dst, BitVec.ofNat 64 n, 0x100000001, 0x100000001, 0x100000001, 0, 0, 0, 0, 0, 0]
    let k (src dst : Word) (n : Nat) : CCmd := { CCmd.blank .copy own 0 0 with
      uid := 1, tl := 1, issued := true, started := true, desc := d src dst n, li := [0, 0, 0, 0, 0, 0] }
    let s (k : CCmd) : State := stC fun c => { c with cq := [(2, [k])] }
    let a := k own (own + 0x100) 8
    let b := k own (own + 0x100) 16
    let f := k 0x10000 (own + 0x100) 8
    (s a).works 0 = true ∧ ((s a).core 0).unit 2 = [a] ∧ keyCore a.bank = 0 ∧ a.part = 0 ∧ a.buf = [] ∧ a.fill = false ∧ copyKind a.desc = 0
    ∧ copyLen a.desc = 8 ∧ pieces 8 (a.iteration a.li).1 8 = [((a.iteration a.li).1, 8)]
    ∧ pieces 8 (a.iteration a.li).2 8 = [((a.iteration a.li).2, 8)]
    ∧ good (access (s a) (a.agent (s a)) .read false 4 own 8) = true ∧ good (access (s a) (a.agent (s a)) .write false 6 (own + 0x100) 8) = true
    ∧ (let r := readPieces (s b) (b.agent (s b)) (pieces 16 own 16)
       r.1.length = 16 ∧ r.2.2 = none
       ∧ (writePieces r.2.1 (b.agent (s b)) (b.bank, 2, b.tl) (pieces 16 (own + 0x100) 16) r.1).2.2 = none)
    ∧ (match (readPieces (s f) (f.agent (s f)) (pieces 8 0x10000 8)).2.2 with | some (.page _) => true | _ => false) = true
    ∧ nextIndices [0, 0] [2, 3] = some [1, 0] ∧ nextIndices [1, 2] [2, 3] = none ∧ (pieces 3 1 3)[1]? = some (2, 2) := by decide

/-- CopyAndPageMoveSteps: a token of an index above the last bin, of a bin with room, of one whose overflow has room, of one with neither, and
one with parameters outside their limits; its move and its return slot. -/
theorem test_hyps_BinscatTokenValues :
    let tok (last : Nat) : CCmd := { CCmd.blank .binscat own 0 0 with
      uid := 1, tl := 1, issued := true, started := true, li := [0]
      desc := [own + 0x400, 8, own + 0x100, own + 0x300, own + 0x200, 0, BitVec.ofNat 64 (last * 2 ^ 48 + 8 * 2 ^ 32 + 1), 0] }
    let s (cap spill ones : Word) : State := withWords (stC id) (own + 0x200) [own + 0x500, own + 0x600, cap + spill * 0x100000000, ones]
    let k := tok 0
    let z := s 1 1 0
    let ag := k.agent z
    let kind (x : State) : Option Nat := match bumpToken x 2 k ag 0 with
      | .ok r => some r.2.1
      | .error _ => none
    let index := withWords z (own + 0x100) [1]
    (readPieces z ag (pieces 2 (own + 0x100) 2) |>.2.2) = none ∧ SMap.find (z.core 0).semTag 2 = none
    ∧ (readDesc z ag (own + 0x200) 4).1.length = 4 ∧ (readDesc z ag (own + 0x200) 4).2.2 = none
    ∧ kind z = some 0 ∧ kind (s 0 1 0) = some 1 ∧ kind (s 0 0 0) = some 2 ∧ kind (s 1 1 1) = none ∧ kind index = some 3
    ∧ good (access z ag .write false 6 (own + 0x300) 8) = true ∧ ((k.desc.getD 3 0).toNat % 8 = 0)
    ∧ (readPieces z ag (pieces 8 (own + 0x400) 8)).2.2 = none := by decide
/-! ### Streams -/

/-- StreamWords: a free number and a bound one, a good descriptor and a bad one, an aligned and a misaligned address; both directions,
idle, busy and stopped; the end of a pattern and one beyond; addresses of each window, and casts. -/
theorem test_hyps_StreamWords :
    let s := withWords (st 0 own 0 0) own (sd 0 5)
    let z := st 0 own 0 0
    let o := Stream.ofWords (sd 1 5)
    let i := Stream.ofWords (sd 0 5)
    ready s c0 = true ∧ ready sb c0 = true ∧ s.here.stream 0 = none ∧ own.toNat % 64 = 0 ∧ (own + 8).toNat % 64 ≠ 0
    ∧ goodAnd (fun e => streamCheck e.1 (Stream.ofWords e.1) == 0) (loadWords (s.issued c0) (s.agent 0) 8 own) = true
    ∧ goodAnd (fun e => streamCheck e.1 (Stream.ofWords e.1) == 0x19) (loadWords (z.issued c0) (z.agent 0) 8 own) = true
    ∧ (sb.here.stream 0).isSome = true ∧ sb.here.stream 0 = some i ∧ sb.here.stream 1 = some o ∧ { o with stop := 1 }.stop ≠ 0
    ∧ (o.stop = 0 ∧ o.dir = 1 ∧ o.buf = [] ∧ o.pos = o.issue) ∧ ¬({ o with issue := 1 }.buf = [] ∧ { o with issue := 1 }.pos = 1)
    ∧ (i.stop = 0 ∧ i.dir = 0) ∧ good (storeWords (sb.issued c0) (sb.agent 0) i.words own) = true
    ∧ good (storeWords ((sb.issued c0).acquireDrains sb.me 1 o.issue) (sb.agent 0) o.words own) = true
    ∧ i.issue + 4 ≤ i.total ∧ i.total < i.issue + 5
    ∧ parseWindow z (z.agent 0) 0x8000000000000000 = none ∧ parseWindow z (z.agent 0) 0x1000 = some (0, .glob 0x1000)
    ∧ parseWindow z (z.agent 0) own = some (2, .spad 0 0)
    ∧ castPointer z (z.agent 0) own 1 = some 0xC000000000000000 ∧ castPointer z (z.agent 0) own 0 = none
    ∧ (3 : BitVec 3).toNat < 4 ∧ 4 ≤ (4 : BitVec 3).toNat := by decide

/-- StreamTraffic: an entry that can be fetched, one whose address is in no window, and an output entry that can be written. -/
theorem test_hyps_StreamTraffic :
    let ag := sb.agentFor 0 1 true
    let i := Stream.ofWords (sd 0 5)
    let w := { i with base := 0x8000000000000000 }
    let o := { Stream.ofWords (sd 1 5) with buf := [(0, 1#2048)], issue := 1 }
    let p (t : Stream) : List (Word × Nat) := pieces 256 (t.addr t.next) t.elen ++ pieces 8 (t.scaleAddr t.next) t.bpe.toNat
    let bs := leBytes 256 1
    sb.works 0 = true ∧ (sb.bank 0).uid = some 1 ∧ (sb.core 0).tracker = [] ∧ (sb.bank 0).stream 0 = some i
    ∧ i.skips = [] ∧ i.mayFetch 0 = true ∧ (readPieces sb ag (p i)).2.2.isNone = true
    ∧ (match (readPieces sb ag (p w)).2.2 with | some (.trap 25 _) => true | _ => false) = true
    ∧ (o.dir = 1 ∧ o.stop = 0 ∧ o.hold = false ∧ o.parked = none ∧ o.buf.head? = some (0, 1#2048))
    ∧ (writePieces sb ag (0, 9, 1) (pieces 256 (o.addr 0) o.elen ++ pieces 8 (o.scaleAddr 0) o.bpe.toNat)
        (bs.take o.elen ++ (bs.drop 248).take o.bpe.toNat)).2.2.isNone = true := by decide


/-- StreamWords: an output stream that is idle, busy and stopped, and casts from each window: the frame, a core of the grant in the own
quadrant and one outside it. -/
theorem test_hyps_PointerCasts :
    let s := st 0 0 0 0
    let a : Agent := { s.agent 0 with frame := 0x1000, framesz := 16 }
    let o := Stream.ofWords (sd 1 5)
    (o.dir = 1 ∧ o.stop = 0 ∧ o.pos = o.issue ∧ { o with issue := 1 }.pos ≠ 1) ∧ own.toNat % 64 = 0 ∧ (own + 32).toNat % 64 ≠ 0
    ∧ parseWindow s a 0x100F = some (0, .glob 0x100F) ∧ (0x100F - a.frame : Word).toNat < a.framesz ∧ a.framesz ≤ (0x1010 - a.frame : Word).toNat
    ∧ parseWindow s a 0xC0200000007FFFFF = some (1, .spad 1 0x7FFFFF) ∧ parseWindow s a 0xD040000000000001 = some (2, .spad 1 1)
    ∧ keyL 1 / 16 = keyL a.key / 16 ∧ parseWindow s a 0xD400000000000000 = some (2, .spad 16 0) ∧ keyL 16 / 16 ≠ keyL a.key / 16
    ∧ parseWindow s a 0xE00000000000000F = some (3, .glob 0x100F) ∧ castPointer s a 0xE00000000000000F 0 = some 0x100F
    ∧ a.framesz ≤ 2 ^ 40 ∧ s.granted a.ctx (keyL 1) = true := by decide

/-- StreamTraffic: an input stream whose next entry lies on a page without a translation. -/
theorem test_hyps_StreamTraffic_page :
    let i := { Stream.ofWords (sd 0 5) with base := 0x10000 }
    let ag := sb.agentFor 0 1 true
    let r := readPieces sb ag (pieces 256 (i.addr i.next) i.elen ++ pieces 8 (i.scaleAddr i.next) i.bpe.toNat)
    i.skips = [] ∧ i.mayFetch 0 = true ∧ (match r.2.2 with | some (.page _) => true | _ => false) = true ∧ r.2.1.faults = [] := by decide
/-! ### Collectives -/

/-- A group entry whose one member is rank 0, held. -/
def ge : List (Nat × Word) := [(0, 1), (16, 0x600000400), (22, 5)]

/-- A task that holds group entry 0, in a context with a heap and a rank table of one rank. -/
def sg (a xb : Word) : State := { st 0 a xb 0 with
  banks := [(0, { bk 0 a xb 0 with hold := 1 })]
  ctxs := [(0, { cx with heapl := 0x100000, rankt := 0x2000, rankn := 1, group := ge })]
  ports := [(0, { Port.reset with lanes := 8, firmware := true })] }

def eg : Entry := ((sg 0 0).ctx 0).entry 0

/-- The image of such an entry. -/
def img : List Word := [1, 0, 0, 0, 0, 0, 0, 0, 0, 0, 0, 0, 0, 0, 0, 0, 0x400000400, 0, 0, 0, 0, 0, 6, 0]

/-- CollectiveWords: a settled entry that the bank holds and one that it does not; the counts 1 and 2^24; a member and a rank
that is none; an image and parameters within the limits and beyond; a stopped operation; a full queue; a grpget that is done and one
that is queued. -/
theorem test_hyps_CollectiveWords :
    let s := sg own 1
    let f : FGr := ⟨5, 6, 7, 0, 1, 4, 5⟩
    let w := withWords { s with ctxs := [(0, { cx with heapl := 0x100000, rankt := 0x2000, rankn := 1 })] } own img
    let k : KCmd := { KCmd.blank .owrite f with uid := 1, stop := some (45, 0) }
    let g : KCmd := { KCmd.blank .grpgetWord f with uid := 1, performed := true }
    let q (k : KCmd) : State := s.modCore 0 fun c => { c with kq := [k] }
    crewOk s.here c0 .col = true ∧ (s.core 0).kq.length < 64 ∧ trapCol (s.core 0) 1 = none ∧ s.here.hold.getLsbD 0 = true
    ∧ (st 0 own 1 0).here.hold.getLsbD 0 = false ∧ own.toNat % 64 = 0 ∧ (own + 32).toNat % 64 ≠ 0 ∧ f.et.toNat ≤ 6
    ∧ countOk 1 = true ∧ countOk 0x1000000 = true ∧ f.op.toNat ≤ 4 ∧ ((s.myLaunch 0).map (·.det)).getD false = false
    ∧ eg.members.getLsbD 0 = true ∧ (SMap.get 0 s.here.kstep 1).getLsbD 15 = false
    ∧ goodAnd (fun e => e.1 == img && imageOk w 0 0 0 e.1) (readWords w (w.agent 0) 24 own) = true ∧ (w.agent 0).ctx = 0
    ∧ qparmOk eg 0 1 = true ∧ qparmOk eg 0 2 = false ∧ qparmOk eg 0 0 = false
    ∧ (24 : Word).toNat ≤ 24 ∧ 23 < (24 : Word).toNat ∧ (23 : Word).toNat ≤ 23
    ∧ trapCol ((q k).core 0) 1 = some (45, 0, 0) ∧ readyGet (q g) .grpgetWord = some g
    ∧ readyGet (q { g with performed := false }) .grpgetWord = none ∧ queuedGet (q { g with performed := false }) .grpgetWord = true
    ∧ queuedGet s .grpgetWord = false
    ∧ good (storeWords ((q { g with kind := .grpgetStore }).dropGet .grpgetStore) (s.agent 0) img own) = true := by decide

/-- ControlFormSteps: a form at the head; a held entry that is the bank's and one that is another's; K at its limit. -/
theorem test_hyps_ControlFormSteps :
    let k : KCmd := { KCmd.blank .grpsetClaim ⟨5, 6, 7, 0, 1, 0, 0⟩ with uid := 1 }
    let s := (sg 0 0).modCore 0 fun c => { c with kq := [k] }
    let z : State := s.modBank 0 fun b => { b with hold := 0 }
    let q (k : KCmd) : State := (sg 0 0).modCore 0 fun c => { c with kq := [{ k with uid := 1 }] }
    let w := q { KCmd.blank .grpsetWrite ⟨5, 6, 7, 0, 1, 0, 0⟩ with desc := img }
    let r := KCmd.blank .rndwait ⟨5, 6, 7, 0, 1, 0, 0⟩
    s.works 0 = true ∧ k.core = 0 ∧ keyCore k.bank = 0 ∧ (s.core 0).kq = [k] ∧ k.issued = false ∧ (s.bank 0).uid = some k.uid
    ∧ (s.bank 0).crew = none ∧ gapPassed s 0 .col k.ctl = true ∧ k.ge < 256 ∧ k.kind = .grpsetClaim
    ∧ ((s.ctx 0).entry 0).held = true ∧ (s.bank 0).hold.getLsbD 0 = true ∧ (z.bank 0).hold.getLsbD 0 = false
    ∧ img.length = 24 ∧ opInFlight w 0 0 = false
    ∧ opInFlight (q { KCmd.blank .allred ⟨5, 6, 7, 0, 1, 0, 0⟩ with tl := 1 }) 0 0 = true
    ∧ (15 : Word).toNat < 16 ∧ (63 : Word).toNat < 64 ∧ (3 : Word).toNat < 4 ∧ (1 : Word).toNat < 2
    ∧ (rndResult (q { r with issued := true, performed := true }) 0 eg 0).isNone = true
    ∧ (rndResult (q { r with issued := true, performed := true }) 0 (eg.set 18 1) 0).isSome = true
    ∧ (2047 : Word).toNat < 2048 ∧ KKind.allred.isOp = true ∧ rangeOk (s.core 0) 0 1 k.seq (some none) = true := by decide

/-- An operation of the group, issued, with the descriptor of one INT32 element. -/
def ka : KCmd := { KCmd.blank .allred ⟨5, 6, 7, 0, 0, 0, 5⟩ with uid := 1, issued := true, xa := own, xb := 1, entry := eg, tl := 1 }
def da : List Word := [own + 0x1000, own + 0x2000, 0x5500000001, 0, 0, 0, 0, 0]
def ca : Contribution := ka.contribution da [7] 0

/-- CollectiveWords, CollectiveChecks, ControlFormSteps: an operation on its way to its group, a kresume that goes on with it, one whose
DONE does not fit, and one with nothing to go on. -/
theorem test_hyps_CollectiveWords_resume :
    let k : KCmd := { ka with phase := 1 }
    let s := (sg 0 0).modBank 0 fun b => { b with kstep := [(0, 0x9000)] }
    let t := s.modCore 0 fun c => { c with kq := [k] }
    let z := t.modBank 0 fun b => { b with kstep := [(0, 0x9001)] }
    let r : KCmd := { KCmd.blank .kresume ⟨5, 6, 7, 0, 0, 0, 0⟩ with uid := 1 }
    (SMap.get 0 t.here.kstep 0).getLsbD 15 = true ∧ (t.core 0).kq.find? (fun k => k.uid == 1 && k.ch == 0 && k.partly) = some k
    ∧ (SMap.get 0 t.here.kseq 0).toNat = k.tag % 2 ^ 32 ∧ bits (SMap.get 0 t.here.kstep 0) 14 12 ≤ k.phase
    ∧ bits (SMap.get 0 t.here.kstep 0) 11 0 ≤ k.done / 4096 ∧ ¬ bits (SMap.get 0 z.here.kstep 0) 11 0 ≤ k.done / 4096
    ∧ (s.core 0).kq = [] ∧ r.kind.isOp = true ∧ rangeOk (s.core 0) 0 1 r.seq (some none) = true := by decide

/-- CollectiveTraffic: a contribution that can be sent, one that arrives first, a round that is closed and one that is reduced. -/
theorem test_hyps_CollectiveTraffic_rounds :
    let s := (withWords (sg own 1) own da).modCore 0 fun c => { c with kq := [ka] }
    let ag := s.agentFor ka.bank ka.uid true
    let c := ca
    let r : Round := ⟨.closed, some c, [c], [], none, [], [], [], [], [], 0⟩
    let g : Group := ⟨0, 5, 1, 1, [(0, r)], [], [], [], none, none⟩
    let kp : KCmd := { ka with phase := 1, desc := da }
    let t : State := { s.modCore 0 fun c => { c with kq := [kp] } with groups := [(0, g)] }
    (s.works 0 = true ∧ nextOp s 0 (bankKey 0 0) 0 = some ka ∧ ka.kind.isGroup = true
      ∧ portReady s 0 (s.remoteGroup ka.ctx (Entry.members ka.entry)) = true
      ∧ earlierUnsent s ka = false ∧ s.groupIx 0 (Entry.gid ka.entry) (Entry.members ka.entry) = none
      ∧ ka.tag < (((s.ctx 0).entry 0).getD 18 0).toNat + 4)
    ∧ (let e := readDesc s ag ka.xa 8; e.1 = da ∧ e.2.2.isNone = true ∧ groupDescOk e.2.1 ag ka e.1 = true
      ∧ (readPieces (e.2.1.copyWriteback ag (own + 0x1000, 4) (own + 0x2000, 4)) ag (pieces 4 (own + 0x1000) 4)).2.2.isNone = true)
    ∧ sourceBytes ka da = 4 ∧ resultBytes ka da = 4 ∧ (s.findGroup c).isSome = true
    ∧ SMap.find t.groups 0 = some g ∧ SMap.find g.rounds 0 = some r ∧ r.first = some c ∧ r.st = .closed ∧ 0 ≠ g.openTag
    ∧ portReady t g.part (t.remoteGroup c.ctx g.members) = true
    ∧ t.memberSent 0 5 1 0 0 = some kp ∧ noResult g r 0 0 = none ∧ kp.stop = none ∧ kp.fault = none ∧ t.works kp.core = true
    ∧ (t.core 0).kq = [kp]
    ∧ (writeElems t (t.agentFor 0 1 true) (0, 6, 1) (own + 0x2000) (etWidth c.outf / 8) (toDeliver kp c g r 0)).2.isNone = true := by
  decide

/-- CollectiveTraffic: a notice to a member without an operation, a work entry that fires and one that completes, the time of SLACK. -/
theorem test_hyps_CollectiveTraffic_entries :
    let s := withWords (sg own 1) own da
    let ag := s.agentFor 0 1 true
    let m : Notice := ⟨0, 5, 1, 0, 3⟩
    let n : State := { s with notices := [m] }
    let ko : KCmd := { KCmd.blank .owrite ⟨5, 6, 7, 0, 0, 0, 0⟩ with uid := 1, issued := true, entry := eg, desc := [own + 0x1000, 0, 4, 0, 0, 0, 0, 0] }
    let v : State := s.modCore 0 fun c => { c with kq := [ko] }
    let w : WorkEntry := ⟨0, 0, 0, 0, 1, [], true⟩
    let u : State := v.writebackSectors 0 (spanSectors v ag (own + 0x1000, 4)) (spanSectors v ag (0, 4))
    (n.notices[0]? = some m ∧ n.memberEntry 0 5 1 0 = some (0, 0) ∧ n.memberSent 0 5 1 0 3 = none ∧ m.tag + 1 < 2 ^ 64
      ∧ (((n.ctx 0).entry 0).getD 18 0).toNat ≤ 3)
    ∧ nextOp v 0 (bankKey 0 0) 0 = some ko ∧ ko.kind.isGroup = false ∧ portReady v 0 false = true ∧ v.workPath ko ko.desc = true
    ∧ workFires v 0 ko.desc = true ∧ (v.rankEntry 0 (weRank ko.desc)).map rankModule = some 0
    ∧ (match firePieces ag (some ag) ko.desc u 0 (targetPieces ko.desc 0) with
        | .done _ => true | _ => false) = true
    ∧ ([w].find? (fun w => w.core == 0 && w.bank == bankKey 0 0 && w.ch == 0 && w.fired)) = some w
    ∧ (v.core 0).kq = [ko] ∧ ko.kind.isOp = true
    ∧ s.running = true ∧ SMap.get 0 s.modl.last 1 + 64000 ≤ { s with cycle := 64000 }.cycle
    ∧ (({ Ctx.reset with group := [(16, 2 ^ 45)] } : Ctx).entry 0).thr = true := by decide

/-- A second member's contribution to a round whose quorum is 2, and the group of both. -/
def c2 (rank tag : Nat) : Contribution := { ca with members := 3, rank := rank, tag := tag, par := 2048 }
def g2 (openTag : Nat) (rounds : SMap Round) : Group := ⟨0, 5, 3, openTag, rounds, [], [], [], none, none⟩
def r2 (st : RoundSt) (on : List Contribution) : Round := ⟨st, on.head?, on, [], none, [], [], [], [], [], 0⟩

/-- ControlFormSteps: each fate of a contribution: on time, refused, folded, discarded, open, none. -/
theorem test_hyps_RoundFates :
    let e : Entry := (eg.set 0 3).set 18 1
    let r := r2 .reduced [c2 0 0]
    let g := g2 1 [(0, r)]
    let s : State := { sg 0 0 with groups := [(0, g)] }
    let sends : State := s.modCore 0 fun c => { c with kq := [{ ka with entry := e }] }
    (0 : Nat) < (e.getD 18 0).toNat ∧ ¬(1 : Nat) < (e.getD 18 0).toNat ∧ e.own = 0 ∧ (sg 0 0).groupIx 0 e.gid e.members = none
    ∧ (s.groupIx 0 e.gid e.members).map (·.1) = some 0 ∧ SMap.find g.rounds 0 = some r ∧ (r.ontime.any fun c => c.rank == e.own) = true
    ∧ ((r2 .reduced [c2 1 0]).ontime.all fun c => c.rank != e.own) = true ∧ ([0] : List Nat).contains e.own = true
    ∧ ([(0, 0, some 2)] : List (Nat × Nat × Option Nat)).find? (fun f => f.1 == e.own && f.2.1 == 0) = some (0, 0, some 2)
    ∧ contributes sends 0 e 0 = true ∧ contributes s 0 e 0 = false ∧ contributes (sg 0 0) 0 e 0 = false := by decide

/-- CollectiveTraffic: arrivals: a duplicate, one for a group that is dead, one for a round that has Ended, one that differs, one that is late, and
those before and at the quorum. -/
theorem test_hyps_ContributionArrivals :
    let on := c2 0 0
    let c := c2 1 0
    let f := g2 0 [(0, r2 .opened [on])]
    let z : Group := g2 1 [(0, r2 .ended [on])]
    let l : Group := g2 1 [(0, r2 .reduced [on])]
    let odd : Contribution := { c with op := 2 }
    knownContribution f on = true ∧ knownContribution f c = false ∧ f.dead = none ∧ ({ f with dead := some 0 } : Group).dead = some 0
    ∧ f.pending = [] ∧ f.gone = [] ∧ f.fault = none ∧ c.tag < z.openTag ∧ (z.round 0).st = .ended ∧ c.tag = f.openTag
    ∧ (f.round 0).first = some on ∧ (f.round 0).st = .opened ∧ (f.round 0).record = none ∧ parMode on = 0
    ∧ (f.round 0).ontime.length < parK on f.members ∧ parK on f.members ≤ (ranksOf f.members).length ∧ carriedEq on odd = false
    ∧ carriedEq on c = true ∧ (l.round 0).st ≠ .ended ∧ (l.round 0).st ≠ .waiting ∧ (l.round 1).first = none
    ∧ parLag on = 0 ∧ parLag { on with par := 2 ^ 21 } = 1 ∧ c.kind ≠ .bcast
    ∧ (f.round 0).ontime.length + 1 = parK on f.members ∧ ((g2 0 []).round 0).ontime.length + 1 < parK on f.members
    ∧ (sg 0 0).memberOp 0 5 3 1 0 = none
    ∧ (((sg 0 0).modCore 0 fun c => { c with kq := [ka] }).memberOp 0 5 1 0 0).isSome = true := by decide

/-- CollectiveTraffic: the results of each kind of round, of one member and of two, and a fold. -/
theorem test_hyps_RoundResults :
    let f0 : Contribution := { c2 0 0 with et := 0, outf := 0, elems := [0x3F800000] }
    let f1 : Contribution := { c2 1 0 with et := 0, outf := 0, elems := [0x40000000] }
    let r := r2 .closed [f0, f1]
    ranksOf (3 : BitVec 1024) = [0, 1] ∧ f0.kind = .allred ∧ 0 < f0.nmax ∧ ca.et = 5 ∧ ca.outf = 5 ∧ ca.rm = 0 ∧ r.folds = [] ∧ r.ontime.length = 2
    ∧ (r.ontime.find? fun c => c.rank == 1).bind (·.elems[0]?) = some 0x40000000 ∧ nanRule (presentOf r.ontime [] 0) = false
    ∧ ((([ca] : List Contribution).find? fun c => c.rank == 0).bind (·.elems[0]?)).map (toSigned 32) = some 7
    ∧ ([ca].all fun c => decide (c.elems.length ≤ ca.nmax)) = true ∧ parWrule { f0 with par := 2 ^ 25 } = 1
    ∧ ([{ c2 0 0 with kind := .bcast, nmax := 0 }].find? fun c => c.rank == c.nmax).isSome = true := by decide

/-- CollectiveWords: a count of none, a root that is no member, a deterministic launch whose quorum leaves a member out, a queue that is
full, an OP and a type beyond their ranges. -/
theorem test_hyps_CollectiveChecks :
    let s := sg own 1
    let d : State := { s with ctxs := [(0, { cx with launches := [(0, { la with det := true })], group := [(0, 3), (16, 0xA00000400), (22, 5)] })] }
    let e := (d.ctx 0).entry 0
    crewOk d.here c0 .col = true ∧ countOk 0 = false ∧ countOk 1 = true ∧ eg.members.getLsbD 1 = false
    ∧ ((d.myLaunch 0).map (·.det)).getD false = true ∧ e.k < bits e.w16 44 34 ∧ e.mode = 0 ∧ d.here.hold.getLsbD 0 = true
    ∧ 4 < (5 : BitVec 3).toNat ∧ 6 < (7 : BitVec 4).toNat ∧ 5 < (6 : BitVec 3).toNat ∧ 1 < (2 : BitVec 3).toNat
    ∧ 64 ≤ (((sg 0 0).modCore 0 fun c => { c with kq := List.replicate 64 ka }).core 0).kq.length := by decide
/-! ### The scheduler -/

/-- A second record of the launch. -/
def t2 : Task := { tk with st := .eligible, prio := 5, home := none, frame := own }

/-- The same task with its bank changed, and the second record Eligible, on core 0 alone. -/
def sk (g : Bank → Bank) : State := { st 0 0 0 0 with
  banks := [(0, g (bk 0 0 0 0))], tasks := [(1, tk), (2, t2)]
  ctxs := [(0, { cx with cgrant := 1, imgn := 8, launches := [(0, { la with lcmask := 1 })] })] }

/-- PopAndRetirement: an Empty bank that takes the record; a bank that preloads it, with a bad and a good descriptor; an image; an
aging step that is due; a tracker entry that is done. -/
theorem test_hyps_PopAndRetirement :
    let e := sk fun b => { b with st := .empty, uid := none }
    let p (ws : List Word) : State := withWords { sk id with tasks := [(1, tk), (2, { t2 with stage := true })] } own ws
    let tg : Task := { t2 with stage := true }
    let read (s : State) : State × SMap (List Byte) × Option PageStop :=
      (pieces 96 own 96).foldl (stagePiece (s.agentFor 0 2 true) 2048) (s, [], none)
    let staged (s : State) : List Word × State × Option Stop × Bool :=
      stagingDesc (read s).2.1 (read s).1 (s.agentFor 0 2 true) tg (stagingCopy tg 0 2 0 0 s.tick)
    let im : Image := ⟨0, Bank.reset, [], [], [], [], false⟩
    let r : State := { sk (fun b => { b with st := .restoring }) with tasks := [(1, { tk with image := some im })] }
    let tr : Tracker := ⟨1, 0, none, 0, false, Bank.reset⟩
    let c := (sk id).modCore 0 fun c => { c with tracker := [tr] }
    (popChoice e 0).map (fun x => (x.1, x.2.uid)) = some (0, some 2) ∧ keyBank 0 ≠ 1 ∧ t2.image = none ∧ t2.stage = false
    ∧ ((p []).bank 0).uid.isSome = true ∧ (p []).preloaded 0 = none ∧ (p []).works 0 = true ∧ (p []).ctxOfCore 0 = some 0
    ∧ (((p []).candidates 0 0).head?.map (·.uid)) = some (some 2)
    ∧ (read (p [])).2.2 = none ∧ (staged (p [])).2.2.1.isNone = true ∧ (staged (p [])).2.2.2 = true
    ∧ (read (p [0, own])).2.2 = none ∧ (staged (p [0, own])).2.2.1.isNone = true ∧ (staged (p [0, own])).2.2.2 = false
    ∧ own.toNat % 32 = 0 ∧ (own + 8).toNat % 32 ≠ 0 ∧ copyEmpty (staged (p [0, own])).1 = true
    ∧ (r.bank 0).st = .restoring ∧ r.works 0 = true ∧ imageFree (r.core 0) im 1 = true
    ∧ t2.stepDue (cx).ageCycles 65536 = true
    ∧ (c.core 0).tracker.head? = some tr ∧ tr.done (c.core 0) = true ∧ c.task 1 = some tk := by decide

/-- ParkAndPreemption: a wait of 1,024 cycles, a condition that holds, a parked bank at its PARK_EVICT, the victims of both triggers, a
bank that saves, two tasks that wait for each other. -/
theorem test_hyps_ParkAndPreemption :
    let w : WaitCond := .semGe 3 0
    let p : State := { sk (fun b => { b with wait := some w, waitFrom := 0 }) with cycle := 2048 }
    let n : State := { p with banks := [(0, { bk 0 0 0 0 with wait := some (.semGe 3 1), waitFrom := 0 })] }
    let q : State := { sk (fun b => { b with st := .parked, wait := some w }) with cycle := 16 * 1024 }
    let o : State := { sk id with banks := [(0, bk 0 0 0 0), (1, { bk 0 0 0 0 with uid := some 3 })]
                                  tasks := [(1, { tk with prio := 2 }), (2, { t2 with fresh := true }), (3, { tk with home := some 1 })] }
    let l : State := { o.modBank 1 (fun b => { b with runAt := 1 }) with cycle := 65536, tasks := [(1, { tk with prio := 5 }), (2, { t2 with aged := 2, reached := 0 }), (3, { tk with prio := 5 })] }
    let v := sk fun b => { b with st := .saving }
    let mk (b u n : Nat) : MCmd := { mc 0x0CA (encMs ⟨BitVec.ofNat 6 n, 0, 0, 0⟩) with bank := b, uid := u, entered := true }
    let d := o.modCore 0 fun c => { c with mq := [mk 0 1 3, mk 1 3 4], slots := [(3, ⟨some 3, none⟩), (4, ⟨some 1, none⟩)] }
    (p.bank 0).st = .running ∧ (p.bank 0).wait = some w ∧ 1024 ≤ n.waited 0 ∧ (n.bank 0).st = .running ∧ condHolds n (.semGe 3 1) = false
    ∧ p.works 0 = true ∧ condHolds p w = true
    ∧ q.ctxOfCore 0 = some 0 ∧ imageRoom q 0 0 1 = true ∧ (q.bank 0).st = .parked
    ∧ (q.bank 0).parkTick + (q.ctx 0).parkEvict.toNat ≤ q.tick ∧ q.candidates 0 0 ≠ []
    ∧ imageRoom o 0 0 1 = true ∧ (o.candidates 0 0).any (fun c => victimLow o 0 0 c == some 0) = true
    ∧ ((l.candidates 0 0).head?.any fun c => victimLong l 0 0 c == some 0) = true
    ∧ (v.bank 0).st = .saving ∧ (v.core 0).arrays = [] ∧ (v.core 0).inFlight 1 = []
    ∧ waitsOn d (d.core 0) 1 3 = true ∧ waitsOn d (d.core 0) 3 1 = true ∧ (d.bank 0).st = .running ∧ (d.bank 1).st = .running
    ∧ (2 : Nat) < tk.prio := by decide

/-- BudgetAndTraps: a due trap, an ended budget, a due replay, a tick boundary, a budget of 0. -/
theorem test_hyps_BudgetAndTraps :
    let d := sk fun b => { b with due := [⟨41, 0⟩] }
    let r := sk fun b => { b with due := [⟨43, 0⟩] }
    let b : State := { sk id with ctxs := [(0, { cx with launches := [(0, { la with ended := true, budget := some 0 })] })] }
    let z : State := { b with ctxs := [(0, { cx with launches := [(0, { la with budget := some 0 })] })] }
    (d.bank 0).st = .running ∧ d.works 0 = true ∧ (d.bank 0).dueOther = some ⟨41, 0⟩ ∧ (b.bank 0).dueOther = none ∧ b.budgetDue 0 = true
    ∧ (r.bank 0).replayDue = some ⟨43, 0⟩ ∧ { sk id with cycle := 1024 }.budgetTicks < { sk id with cycle := 1024 }.tick
    ∧ SMap.find (z.ctx 0).launches 0 = some { la with budget := some 0 } ∧ la.ended = false ∧ z.task 2 = some t2 ∧ t2.st = .eligible := by
  decide

/-- AnswersAndKills: a request of the bank, a fault that a core waits for, a held fault, a wait on a gated core and on an awake one, a
drained kill. -/
theorem test_hyps_AnswersAndKills :
    let s := st 0 0 0 0
    let q := stX s fun c => { c with req := some ⟨some (0, 1)⟩ }
    let w : FaultRec := { fr with waiters := [(.core, 0, 0, 1)] }
    let f : State := { s with faults := [w], heldFaults := [{ fr with page := 2 }] }
    let a (g : Bool) : State := (stB fun b => { b with wait := some (.awake 1) }).modCore 1 fun c => { c with gated := g, remote := if g then [7] else [] }
    let k := stX s fun c => { c with kills := [⟨1, true, []⟩] }
    (q.ctx 0).req = some ⟨some (0, 1)⟩ ∧ (q.bank 0).uid = some 1 ∧ f.unanswered 0 9 = some w ∧ (f.bank 0).due = []
    ∧ f.heldFaults = [{ fr with page := 2 }] ∧ f.faults.length < 4096 ∧ (f.ctx 0).fringn = 0 ∧ w.page ≠ 2
    ∧ ((a true).bank 0).wait = some (.awake 1) ∧ ((a true).core 1).gated = true ∧ 0 ∉ ((a true).core 1).remote
    ∧ ((a true).core 1).remote ≠ [] ∧ ((a false).core 1).awake = true ∧ (a false).works 0 = true
    ∧ (k.ctx 0).kills = [⟨1, true, []⟩] ∧ k.killDrained 0 = true := by decide

/-- SealsAndChecks: a seal in progress; a core whose power is back, without a context, shadowed and not; a live task; a scan target; a
failed entry whose second run has still to come. -/
theorem test_hyps_SealsAndChecks :
    let s := st 0 0 0 0
    let x : Seal := ⟨0, 0, 0, none, false⟩
    let d (sh : Bool) : State := stC fun c => { c with down := true, shadowed := sh }
    let e : LogEntry := ⟨1, 5, none, none, true, false, 0⟩
    let p : State := { s with phys := [(0, { Phys.reset with log := [e] })], cycle := 2000 * 1000000000 }
    let v : State := { p with modl := { p.modl with scanning := some (5, 0, true) } }
    ({ s with seals := [x] }.seals.find? fun x => x.core == 0) = some x ∧ (s.core 0).down = false ∧ (s.core 0).halted = false
    ∧ ((d true).core 0).down = true ∧ ((d true).core 0).halted = false ∧ (d true).grantee 0 = some 0 ∧ ((d true).ctx 0).cstate ≠ 1
    ∧ ((d true).core 0).shadowed = true ∧ ((d false).core 0).shadowed = false
    ∧ { d true with ctxs := [] }.grantee 0 = none
    ∧ s.task 1 = some tk ∧ tk.st ≠ .retired ∧ tk.st ≠ .retiring ∧ p.scanTarget.isSome = true ∧ p.modl.boot = 6 ∧ p.modl.mpwr = 0
    ∧ (p.physCore 0).log[0]? = some e ∧ e.failed = true ∧ e.s2 = none ∧ p.entryLives e = true ∧ p.checkRuns 0 1 1 = true
    ∧ p.modl.scanning = none ∧ v.modl.scanning = some (5, 0, true) ∧ 0 + 200000 ≤ v.cycle
    ∧ ((d true).core 0).paceLost = false ∧ (d true).refillWaits 0 0 = false := by decide

/-- ResetsAndLosses: a core and an engine with work; a die without a recent reset and one with; a rolling reset that is due. -/
theorem test_hyps_ResetsAndLosses :
    let s := st 0 0 0 0
    let w : State := stC fun c => { c with vq := [vc] }
    let r : State := { s with modl := { s.modl with dieResets := [(0, 0)] }, cycle := 100000000 }
    (s.core 0).gated = false ∧ s.physOf 0 < 72 ∧ (s.physCore (s.physOf 0)).score < 2 ∧ s.engineBusy 0 .control = true
    ∧ w.engineBusy 0 .vec = true
    ∧ ((stC fun c => { c with marks := [(0, 2 ^ 20), (1, 2 ^ 20 - 1)] }).core 0).worked .control = 2 ^ 20
    ∧ ((stC fun c => { c with marks := [(0, 2 ^ 20), (1, 2 ^ 20 - 1)] }).core 0).worked .vec = 2 ^ 20 - 1
    ∧ s.running = true ∧ { s with modl := Modl.reset }.running = false ∧ { s with modl := { s.modl with scanning := some (3, 0, true) } }.modl.scanning.isSome = true
    ∧ (SMap.find w.cores 0).isSome = true ∧ s.modl.dieResets = []
    ∧ (r.modl.dieResets.any fun e => e.1 == 0 && decide (r.cycle ≤ e.2 + 100000000)) = true
    ∧ (s.quad 0).thermalOff = false ∧ s.modl.mpwr = 0 ∧ s.modl.rollp ≠ 0
    ∧ { s with cycle := 60 * 3600 * 1000000000 }.periodDue 3 s.modl.rollp.toNat s.rollUnits.length = true := by decide


/-- PopAndRetirement: the candidate at the head that fits the pool and one of priority 7 that does not, an earlier and a later one, a launch with
and without placement, and a tail's join. -/
theorem test_hyps_PopOrder :
    let e := sk fun b => { b with st := .empty, uid := none }
    let z : State := { e with ctxs := [(0, { cx with cgrant := 1, launches := [(0, { la with lcmask := 1, vreg := 256 })] })]
                              tasks := [(2, { t2 with prio := 7 })], banks := e.banks ++ [(1, { bk 0 0 0 0 with uid := some 3, grant := 256 })] }
    let tr : Tracker := ⟨1, 0, some 8, 0, false, Bank.reset⟩
    let j : State := { (sk id).modCore 0 fun c => { c with tracker := [tr] } with sem := [(8, 1)] }
    let top (s : State) : Option Cand := ((s.candidates 0 0).filter fun c => !avoided s 0 0 c).head?
    e.ctxOfCore 0 = some 0 ∧ (e.bank 0).st = .empty ∧ e.works 0 = true ∧ e.logFull 0 = false ∧ e.moveDue 0 = false ∧ (e.preloaded 0).isNone = true
    ∧ (e.tasks.all fun x => !x.2.stepDue (e.ctx 0).ageCycles e.cycle) = true
    ∧ ((top e).map fun c => decide (c.request ≤ e.freePool 0)) = some true ∧ (popChoice e 0).isSome = true
    ∧ ((top z).map fun c => decide (z.freePool 0 < c.request) && c.e == 7) = some true ∧ (popChoice z 0).isNone = true
    ∧ la.det = false ∧ (mayRun la 0 none 0 && mayRun la 0 (some 0) 0) = true ∧ mayRun la 0 (some 1) 0 = false
    ∧ (j.core 0).tracker.head? = some tr ∧ tr.done (j.core 0) = true ∧ semKey j 0 8 = some (some 8) ∧ j.semRead 8 ≠ 0
    ∧ j.statusKey 0 la ≠ some 8 ∧ (sk id).running = true := by decide
/-! ### Cores, clocks, heat, power and the host -/

/-- MapClocksRefreshAndCap, moves and clocks: a hot vacant core with a cooler spare, a resident one at its deadline; a droop that is over; headroom below 4 and at 8
degrees. -/
theorem test_hyps_MapClocksRefreshAndCap_moves :
    let s : State := { st 0 0 0 0 with phys := [(0, { Phys.reset with temp16 := 1680 }), (16, { Phys.reset with temp16 := 800 })] }
    let v : State := { s.modCore 0 fun c => { c with allow := 2 ^ 62 } with banks := [] }
    let r : State := { s.modCore 0 fun c => { c with allow := 2 ^ 62, rotateTick := some 0 } with cycle := 64 * 1024 }
    let q : State := { s with quads := [(0, { Quad.reset with droop := true })], cycle := 10 ^ 9 }
    (v.core 0).allow.getLsbD 62 = true ∧ v.works 0 = true ∧ v.vacant 0 = true ∧ (v.core 0).moving = none ∧ (v.coolerSpare 0).isSome = true
    ∧ (r.core 0).rotateTick = some 0 ∧ r.works 0 = true ∧ r.grantee 0 = some 0 ∧ 0 + (r.ctx 0).ageTicks ≤ r.tick ∧ (r.coolerSpare 0).isSome = true
    ∧ s.running = true ∧ (q.quad 0).droop = true ∧ (q.quad 0).droopAt + q.droopHold 0 ≤ q.cycle
    ∧ s.modl.boot = 6 ∧ SMap.get 0 q.modl.last 0 + 16000 ≤ q.cycle ∧ 0 ∈ s.coreKeys ∧ s.served 0 = true
    ∧ 105 * 16 - (s.physCore (s.physOf 0)).temp16 < 64 ∧ 128 ≤ 105 * 16 - (s.physCore 16).temp16 := by decide

/-- MapClocksRefreshAndCap, refresh, scrub and cap: a stack that refreshes and one that is due at its moment and at its midpoint, the cycle before a midpoint and the one of
it, REFX2 set before and after a midpoint; power above the cap and below 95 % of it. -/
theorem test_hyps_MapClocksRefreshAndCap_refresh :
    let s := st 0 0 0 0
    let x (at_ : Nat) : StackSt := { StackSt.reset with refx2 := true, refxAt := at_ }
    let f : State := { s with hbm := [(0, { StackSt.reset with refreshing := true })], cycle := 350 }
    let q (n : Word) : State := { s with
      quads := [(0, { Quad.reset with power := true })], cycle := 10 ^ 9, modl := { s.modl with pwrnow := n } }
    (f.hbm.any fun e => e.2.refreshing) = true ∧ SMap.get 0 f.modl.last 16 + 350 ≤ f.cycle ∧ s.powered = true
    ∧ (SMap.get StackSt.reset s.hbm 11).refreshing = false ∧ s.modl.mpwr = 0 ∧ s.modl.boot = 6 ∧ StackSt.reset.sinceMoment 3900 = 0
    ∧ StackSt.reset.sinceMoment 4249 = 349 ∧ StackSt.reset.sinceMoment 1950 = 1950 ∧ (x 0).sinceMoment 1949 = 1949
    ∧ (x 0).sinceMoment 1950 = 0 ∧ (x 1950).sinceMoment 1950 = 0 ∧ (x 1951).sinceMoment 1952 = 1952
    ∧ SMap.get 0 (q 0).modl.last 2 + 1000000 ≤ (q 0).cycle
    ∧ ((q 0).quad 0).power = true ∧ ((q 0).quad 1).power = false ∧ (q 0).running = true
    ∧ (q 3001).modl.pwrcap.toNat < bits (q 3001).modl.pwrnow 31 0 ∧ 100 * bits (q 2849).modl.pwrnow 31 0 < 95 * (q 2849).modl.pwrcap.toNat
    ∧ ¬100 * bits (q 2850).modl.pwrnow 31 0 < 95 * (q 2850).modl.pwrcap.toNat := by decide

/-- MapClocksRefreshAndCap, moves and clocks: a core that is on its way to its spare, and a time-multiplexed quadrant with a core free for the next logical core due. -/
theorem test_hyps_MapClocksRefreshAndCap_moves_slices :
    let s : State := { st 0 0 0 0 with lmap := [(0, 72)] }
    (0 : Nat) < 72 ∧ s.inService 0 = true ∧ ((s.modCore 0 fun c => { c with moving := some 16 }).core 0).moving = some 16 ∧ (s.nextDue 0 (s.quad 0).rotNext).isSome = true ∧ s.coreOn 0 = none := by decide

/-- PowerDownsAndHeat: a module that may power down, one that sleeps, a core above 110 degrees, a quadrant below 95, a stack above 95
and below 90, a core above 120; PlannedDown of a shadowed core that is up and of one that is not shadowed. -/
theorem test_hyps_PowerDownsAndHeat :
    let s := st 0 0 0 0
    let h : State := { s with phys := [(71, { Phys.reset with temp16 := 1937 })] }
    let q : State := { s with quads := [(0, { Quad.reset with thermalOff := true })] }
    let x (t : Int) (o : Bool) : StackSt := { StackSt.reset with temp16 := t, overheated := o }
    let p : State := stC fun c => { c with shadowed := true }
    s.hostReady = true ∧ s.modl.mpwr = 0 ∧ { s.modl with mpwr := 1 }.mpwr = 1 ∧ s.running = true ∧ s.powered = true
    ∧ 18 * 3 ≤ 71 ∧ 71 < 18 * 3 + 18 ∧ 110 * 16 < (h.physCore 71).temp16 ∧ 120 * 16 < (h.physCore 71).temp16 ∧ (h.quad 3).thermalOff = false
    ∧ (q.quad 0).thermalOff = true ∧ (∀ p, p < 18 → (q.physCore p).temp16 < 95 * 16)
    ∧ (x 1521 false).overheated = false ∧ 95 * 16 < (x 1521 false).temp16 ∧ (x 1439 true).overheated = true ∧ (x 1439 true).temp16 < 90 * 16
    ∧ 0 ∈ p.coreKeys ∧ p.served 0 = true ∧ (p.core 0).shadowed = true ∧ (p.core 0).gated = false ∧ p.grantee 0 = some 0
    ∧ (p.core 0).down = false ∧ p.quadOf 0 = 0 ∧ 1 ∈ p.coreKeys ∧ (p.core 1).down = false ∧ (p.core 1).shadowed = false := by
  decide

/-- PowerDownsAndHeat: a byte of HBM is outside every core, and the first and the last byte of a scratchpad are not. -/
theorem test_hyps_OutsideCore :
    (∀ k, k < 4 → ¬(spadLoc k 0 ≤ 0 ∧ 0 < spadLoc k 0 + 2 ^ 23) ∧ ¬(imemLoc k 0 ≤ 0 ∧ 0 < imemLoc k 0 + 2 ^ 18)
      ∧ ¬(microLoc k 0 ≤ 0 ∧ 0 < microLoc k 0 + 2 ^ 15))
    ∧ (spadLoc 0 0 ≤ spadLoc 0 0 + 2 ^ 23 - 1 ∧ spadLoc 0 0 + 2 ^ 23 - 1 < spadLoc 0 0 + 2 ^ 23) := by decide

/-- ContextRegisters, register writes: a configuring context, each limit at and beside its boundary, a partition beyond the last, and semaphore words
that enter an allocation, leave one and lie beyond it. -/
theorem test_hyps_ContextRegisters_writes :
    let s := stX (st 0 0 0 0) fun c => { c with cstate := 1, cgrant := 0 }
    s.hostReach 0 = true ∧ (s.ctx 0).cstate = 1 ∧ (s.ctx 0).cgrant = 0 ∧ ((st 0 0 0 0).ctx 0).cstate ≠ 1
    ∧ (4096 : Word).toNat % 4096 = 0 ∧ (4097 : Word).toNat % 4096 ≠ 0 ∧ (65536 : Word).toNat % 65536 = 0 ∧ (65535 : Word).toNat % 65536 ≠ 0
    ∧ 0x050 ∈ [0x050, 0x058, 0x060, 0x068, 0x070, 0x078, 0x080, 0x088, 0x090, 0x098] ∧ (3 : Word).toNat < 4 ∧ 4 ≤ (4 : Word).toNat
    ∧ (0x3FFFC : Word).toNat % 4 = 0 ∧ (0x3FFFC : Word).toNat < 0x40000 ∧ (2 : Word).toNat % 4 ≠ 0 ∧ 0x40000 ≤ (0x40000 : Word).toNat
    ∧ (63 / 2 ^ 19 = 0 ∧ (63 % 2 ^ 19 + 2 ^ 19 - bits (64 : Word) 50 32) % 2 ^ 19 < bits (64 : Word) 18 0)
    ∧ ¬(64 % 2 ^ 19 + 2 ^ 19 - bits (64 : Word) 50 32) % 2 ^ 19 < bits (64 : Word) 18 0
    ∧ (64 % 2 ^ 19 + 2 ^ 19 - bits (128 : Word) 50 32) % 2 ^ 19 < bits (128 : Word) 18 0 := by decide

/-- ContextRegisters: each CSTATE, a heap beyond memory, a grant that is free, entries of the freed context, a doorbell with a good and a misaligned
address, a handle of a launch, a word, and a link that is down. -/
theorem test_hyps_ContextRegisters :
    let s := st 0 0 0 0
    let c (n : BitVec 2) : State := { s with ctxs := [(0, { Ctx.reset with cstate := n, cgrant := 3, sem0 := 64, sema := 63 })] }
    let h : State := { s with mem := Memory.writeList [] 0x1000 (hd.flatMap fun w => leBytes 8 w.toNat)
                              ctxs := [(0, { cx with heapl := 0x100000 })] }
    let o := stX s fun x => { x with cstate := 1, heapl := 2 ^ 40 }
    let e (size page : Nat) : TlbEntry := { ctx := 0, size := size, page := page, pte := 0 }
    let d : State := { s with modl := { s.modl with linkUp := false } }
    s.hostReach 0 = true ∧ (c 1).hostReach 0 = true ∧ s.hostReach 64 = false ∧ ((c 0).ctx 0).cstate = 0 ∧ ((c 1).ctx 0).cstate = 1 ∧ (s.ctx 0).cstate = 2
    ∧ (c 1).heapFits 0 = true ∧ o.heapFits 0 = false ∧ d.linkDown = true ∧ s.linkDown = false
    ∧ ((c 1).core 0).down = false ∧ (c 1).grantTaken 0 0 3 = false ∧ (s.ctx 0).freeSlot.isSome = true ∧ (s.ctx 0).posts = [] ∧ { s.ctx 0 with posts := [64] }.posts ≠ []
    ∧ keyPart 0 = 0 ∧ ¬(2 ^ 57 ≤ (e 1 0).page ∨ (e 1 0).size = 0) ∧ (2 ^ 57 ≤ (e 1 (2 ^ 57)).page ∨ (e 1 (2 ^ 57)).size = 0) ∧ ((c 1).core 1).shadowed = false
    ∧ (c 1).partStopped 0 = false ∧ (64 : Word).toNat % 128 ≠ 0
    ∧ (h.hostHeader 0 0x1000).any (fun x => launchCheck h 0 x none == 0) = true ∧ (0x1000 : Word).toNat % 128 = 0
    ∧ s.slotOf 0 1 = some 0 ∧ SMap.find (s.ctx 0).launches 0 = some la ∧ semKey (c 1) 0 63 = some (some 63) := by
  decide

/-- BootLinkAndAttestation: each boot step, both ends of memory, a lost link, a refreshing stack and one at rest, a port whose lanes fall. -/
theorem test_hyps_BootLinkAndAttestation :
    let s := st 0 0 0 0
    let b (n : BitVec 3) : State := { State.reset with modl := { Modl.reset with boot := n, linkUp := true } }
    let d : State := { s with modl := { s.modl with linkUp := false } }
    State.reset.modl.boot = 0 ∧ State.reset.modl.lowFrom = none ∧ { Modl.reset with boot := 1 }.boot ≠ 0 ∧ { Modl.reset with boot := 1 }.linkUp = false
    ∧ d.linkDown = true ∧ s.linkDown = false ∧ (0 : Word) ≠ 1 ∧ (b 2).modl.boot = 2
    ∧ (b 3).hostHolds (b 3).modl.fwaddr.toNat [] = true ∧ ([] : List Byte).length = (b 3).modl.fwlen.toNat
    ∧ s.hostReady = true ∧ bits (0x1003 : Word) 11 4 = 0 ∧ bits (0x1013 : Word) 11 4 ≠ 0 ∧ s.noneFired 3 = true ∧ (b 4).modl.boot = 4 ∧ (b 5).modl.boot = 5
    ∧ (∀ p, p < 72 → ((b 4).physCore p).serviceable = true) ∧ bits (2 : Word) 1 0 ≠ 3 ∧ (∀ c, c < 64 → ((b 4).ctx c).cstate = 0)
    ∧ 2 ≤ s.modl.boot.toNat ∧ s.modl.linkUp = true ∧ 0 < s.parts ∧ (s.memSize - 8) + 8 ≤ s.memSize
    ∧ s.refreshed ⟨0, true, none⟩ = false
    ∧ s.leaves 0 = [] ∧ (∀ c, c < 64 → ((b 6).ctx c).cstate ≠ 2) ∧ s.running = true
    ∧ (SMap.get Port.reset s.ports 15).lanes ≠ (if 8 ≤ 7 then 8 else if 4 ≤ 7 then 4 else 0)
    ∧ (0xFFFF < 0x10000 ∧ 0x10000 + 0x1000 * 63 + 0xFFF = 0x4FFFF) := by decide

/-- BootLinkAndAttestation: a stack that refreshes, and the read of a byte in it waits. -/
theorem test_hyps_BootLinkAndAttestation_refresh :
    let s : State := { st 0 0 0 0 with
      hbm := [(Config.stackOf 0 (logicalBank 0), { StackSt.reset with refreshing := true })] }
    s.refreshed ⟨0, true, none⟩ = true := by
  simp [State.refreshed, SMap.get, SMap.find]

/-- BootLinkAndAttestation: a page pinned to a slice, an address in it and the address after it; a dirty copy of a host sector and one of another. -/
theorem test_hyps_BootLinkAndAttestation_pins :
    let p := paged 0x4F
    let pins := (p.leaves 0).filter fun x => bits x.2.1 6 5 == 2
    let w : State := stC fun c => { c with l1 := [(sectorOf (hostLoc 0x40), .dirty), (sectorOf 0x40, .dirty)] }
    (pins.any fun x => bits x.2.1 55 16 * 2 ^ 16 == 0 && bits x.2.1 13 8 == 0) = true
    ∧ sectorOf (hostLoc 0x40) ∈ sectorsOf (hostLoc (0x7F / 64 * 64)) 64 ∧ sectorOf 0x40 ∉ sectorsOf (hostLoc (0x7F / 64 * 64)) 64
    ∧ SMap.find (w.core 0).l1 (sectorOf (hostLoc 0x40)) = some .dirty := by decide

/-! ### The decoder, the step and the reset state -/

/-- DecodeEncode: a well-formed instruction with an encoding, and a word that decodes. -/
theorem test_hyps_DecodeEncode :
    WellFormed (.vadd ⟨2, 1023⟩ ⟨511, 511, 511, 63, 7⟩) = true ∧ (encode (.vadd ⟨2, 1023⟩ ⟨511, 511, 511, 63, 7⟩)).isSome = true
    ∧ decodeTableWord 32 0x00500293 = some (.rv64Instruction (.imm .addi 5 0 5)) := by decide

/-- What a step answers as a next state passes a test. -/
def stepsTo (s : State) (p : State → Bool) : Bool :=
  match step s with
  | .next t => p t
  | _ => false

/-- StepRunsDecoded: a running bank with no trap due, an instruction at its pc, one that waits for x5, a reject there, pcs beyond memory, at its
last parcel and between words. -/
theorem test_hyps_StepRunsDecoded :
    let s := State.reset.withFetchWord 32 0x00500293
    let b := s.bank 0
    let x := State.reset.withFetchWord 64 0x000000000FC001BF
    let r : State := { s with inputs := [.run 0 0] }
    r.inputs = .run 0 0 :: [] ∧ bankKey 0 0 = 0 ∧ keyCore 0 = 0 ∧ b.st = .running ∧ s.works 0 = true ∧ b.dueOther = none
    ∧ s.budgetDue 0 = false ∧ b.replayDue = none ∧ b.pc.toNat % 4 = 0 ∧ b.pc.toNat < 0x40000 ∧ interlocked b (.rv64Instruction (.imm .addi 5 0 5)) = false
    ∧ interlocked { b with pendX := [5] } (.rv64Instruction (.imm .addi 5 0 5)) = true ∧ parcelBytes 0x00500293 = 4 ∧ parcelBytes 0x0FC001BF = 8
    ∧ s.parcel 0 b.pc.toNat = 0x00500293 ∧ (x.parcel 0 (x.bank 0).pc.toNat) = 0x0FC001BF ∧ (x.bank 0).pc.toNat + 4 < 0x40000
    ∧ (match decodeParcels 0x0FC001BF 0 with | .ok _ => false | .error _ => true) = true
    ∧ (0x40000 : Word).toNat % 4 = 0 ∧ 0x40000 ≤ (0x40000 : Word).toNat ∧ (0x3FFFC : Word).toNat < 0x40000 ∧ (0x102 : Word).toNat % 4 ≠ 0
    ∧ { s with inputs := [.event .boot] }.inputs = .event .boot :: [] ∧ encode .boot = none ∧ State.reset.inputs = [] := by decide

/-- StepKeepsMemory: memory is canonical at reset and after a store. -/
theorem test_hyps_StepKeepsMemory :
    Memory.wf State.reset.mem = true ∧ Memory.wf (Memory.writeList [] 0x1000 [1, 0, 2]) = true := by decide

/-! ### Single steps (expected values by hand from the rules cited) -/

/-- R64: addi x5, x0, 5 as the first instruction after reset. -/
theorem test_step_addi :
    stepsTo (State.reset.withFetchWord 32 0x00500293) (fun t => t.here.rx 5 == 5) = true := by decide

/-- R198: sem.add returns the old word and leaves the sum, modulo 2^64. -/
theorem test_exec_semAdd :
    (match exec (.semAdd c0 ⟨5, 6, 7, 0, 4⟩) { st 0 63 (~~~0) 0 with sem := [(63, 9)] } with
      | .next t => t.here.rx 5 == 9 && t.semRead 63 == 8 && t.here.pc == 0x108
      | _ => false) = true := by decide

/-- R252: replacing field 1 (bits [7:4]) of 0x31 by 0xA gives 0xA1. -/
theorem test_exec_widins :
    (match exec (.widins c0 ⟨5, 6, 7, 1⟩) (st 0 0x31 0xA 0) with
      | .next t => t.here.rx 5 == 0xA1
      | _ => false) = true := by decide

/-- R251: field 1 of 0x31 is 3. -/
theorem test_exec_widf :
    (match exec (.widf c0 ⟨5, 6, 0, 1⟩) (st 0 0x31 0 0) with
      | .next t => t.here.rx 5 == 3
      | _ => false) = true := by decide

/-- R200: bump at its limit takes the units, one beyond it returns all ones. -/
theorem test_exec_bump :
    (match exec (.bump c0 ⟨5, 6, 7, 8, 4⟩) { st 0 63 1 10 with sem := [(63, 9)] } with
      | .next t => t.here.rx 5 == 9 && t.semRead 63 == 10
      | _ => false) = true
    ∧ (match exec (.bump c0 ⟨5, 6, 7, 8, 4⟩) { st 0 63 2 10 with sem := [(63, 9)] } with
      | .next t => t.here.rx 5 == ~~~0#64 && t.semRead 63 == 9
      | _ => false) = true := by decide

/-- R330, R333: brk code=7 at 0x100 enters the handler at 0x80 with cause 3. -/
theorem test_exec_brk :
    (match exec (.brk c0 ⟨0, 0, 0, 7⟩) (st 0 0 0 0) with
      | .next t => t.here.mode == .handler && t.here.pc == 0x80 && t.here.sepc == 0x100 && t.here.scause == 3 && t.here.stval == 7
      | _ => false) = true := by decide

/-- R331: tret returns to sepc in task mode; in task mode it traps with cause 40. -/
theorem test_exec_tret :
    (match exec (.tret c0 ⟨0, 0, 0, 0⟩) ((hs 0 0 0 0).modBank 0 fun b => { b with sepc := 0x104 }) with
      | .next t => t.here.mode == .task && t.here.pc == 0x104
      | _ => false) = true
    ∧ (match exec (.tret c0 ⟨0, 0, 0, 0⟩) (st 0 0 0 0) with
      | .next t => t.here.mode == .handler && t.here.scause == 40
      | _ => false) = true := by decide

/-- R64, R193: sd then ld at the own scratchpad, the source register also the destination. -/
theorem test_exec_store_load :
    (match exec (.rv64Store .sd 6 7 8) (st 0 own 0x8877665544332211 0) with
      | .next t =>
        match exec (.rv64Load .lw 6 6 12) t with
        | .next u => Memory.read t.mem (spadLoc 0 8) == 0x11 && u.here.rx 6 == 0xFFFFFFFF88776655
        | _ => false
      | _ => false) = true := by decide

/-- R38: the own-scratchpad window of another core raises cause 26. -/
theorem test_exec_foreign_scratchpad :
    (match exec (.rv64Load .ld 5 6 0) (st 0 (own + 2 ^ 54) 0 0) with
      | .next t => t.here.mode == .handler && t.here.scause == 26
      | _ => false) = true := by decide

/-- R48: an issue in program order does not need the queue: hold passes. -/
theorem test_exec_hold :
    (match exec (.hold c0) (st 0 0 0 0) with
      | .next t => t.here.pc == 0x108
      | _ => false) = true := by decide

/-- R74: the branch, jump and upper immediates as RISC-V encodes them (beq x0, x0, 8; jal x0, -4; lui x5, 0x12346 with its
low part); a branch word two words on, and one that is not a multiple of 4. -/
theorem test_relocations :
    relocPut 4 0x00000063 8 = 0x00000463 ∧ relocPut 5 0x0000006F (-4) = 0xFFDFF06F
    ∧ relocValue 6 ⟨0x12345FFF, 0, 0, 0, none⟩ = some 0x12346 ∧ relocPut 6 0x000002B7 0x12346 = 0x123462B7
    ∧ relocValue 7 ⟨0x12345FFF, 0, 0, 0, none⟩ = some 0xFFF
    ∧ relocValue 3 ⟨0x110, 0, 0x100, 0, none⟩ = some 4 ∧ relocValue 3 ⟨0x112, 0, 0x100, 0, none⟩ = none
    ∧ relocValue 12 ⟨8, 0, 0, 8, none⟩ = none ∧ relocValue 12 ⟨7, 0, 0, 8, none⟩ = some 7 := by decide

/-- R72, R74, R75: an object of one data section with an ABS64 of its own symbol 4 bytes in, loaded at 0x1000; the same with
another version is rejected. -/
theorem test_loader :
    let file (v : Nat) : List Byte :=
      leBytes 4 0x31485356 ++ leBytes 2 v ++ leBytes 2 0 ++ leBytes 4 1 ++ leBytes 4 1 ++ leBytes 4 1 ++ leBytes 4 0
      ++ leBytes 8 64 ++ leBytes 8 96 ++ leBytes 8 120 ++ leBytes 8 144 ++ leBytes 8 (2 ^ 64 - 1)
      ++ leBytes 4 0 ++ leBytes 1 1 ++ leBytes 1 3 ++ leBytes 2 0 ++ leBytes 8 8 ++ leBytes 8 144 ++ leBytes 8 0
      ++ leBytes 4 0 ++ leBytes 2 0 ++ leBytes 1 1 ++ leBytes 1 2 ++ leBytes 8 4 ++ leBytes 8 4
      ++ leBytes 8 0 ++ leBytes 2 0 ++ leBytes 2 1 ++ leBytes 4 0 ++ leBytes 8 (2 ^ 64 - 1) ++ leBytes 8 0
    loadObject (file 1) [0x1000] 0 0 = some [(1, 0x1000, leBytes 8 0x1003)] ∧ loadObject (file 2) [0x1000] 0 0 = none := by decide

/-- R72, R73, R75: the same object with a text section of kind 0, loaded at 0x10 for cores 0 and 1. -/
theorem test_loader_text :
    let file : List Byte :=
      leBytes 4 0x31485356 ++ leBytes 2 1 ++ leBytes 2 0 ++ leBytes 4 1 ++ leBytes 4 0 ++ leBytes 4 0 ++ leBytes 4 0
      ++ leBytes 8 64 ++ leBytes 8 96 ++ leBytes 8 96 ++ leBytes 8 96 ++ leBytes 8 (2 ^ 64 - 1)
      ++ leBytes 4 0 ++ leBytes 1 0 ++ leBytes 1 3 ++ leBytes 2 0 ++ leBytes 8 8 ++ leBytes 8 96 ++ leBytes 8 0
      ++ leBytes 8 0x0050029300500293
    let t := (st 0 0 0 0).loadFile 0 [0, 1] [0x10] file
    t.parcel 0 0x10 = 0x00500293 ∧ t.parcel 1 0x14 = 0x00500293 ∧ t.parcel 0 0x18 = 0 := by decide

/-- R22: the logical memory bank of the spec's example. -/
theorem test_logicalBank : logicalBank 0x2345678900 = 136 := by decide

/-- R67 to R70: the lines and words of the examples of R58, R165 and R225; R70: pg=p0 is rejected; R71: a branch does not end
a task, and a jump does. -/
theorem test_choash_words :
    assembleText ["vadd.bf16.v2 v70, v3, s4, pg=p2, idle=3"] = some (leBytes 8 0x2300E8811200073F)
    ∧ assembleText ["mma.e4m3.tb acc3, ms8, ms17, x12, p=128, course=2"] = some (leBytes 8 0x3211613FA600003F)
    ∧ assembleText ["copy x5, x6, x7, ch=2"] = some (leBytes 8 0x8C7280000800003F) := by decide

theorem test_choash_rejects :
    assembleText ["vadd.bf16 v1, v2, v3, pg=p0"] = none
    ∧ assembleText [".task foo", "beq x0, x0, foo", ".end_task"] = none
    ∧ assembleText [".task foo // task", "j foo", ".end_task"] = some (leBytes 4 0x6F) := by decide
end Tests
end Sys2Proof
end

namespace Sys2Proof.Machine

/-! ### CSR instructions (R11, R65, R326, R327): what an access answers -/

/-- The value that a CSR instruction writes, formed from the old value and its source (R11). -/
def CsrOp.form (op : CsrOp) (old v : Word) : Word :=
  match op with
  | .write => v
  | .set => old ||| v
  | .clear => old &&& ~~~v

/-- The value that a CSR instruction leaves in NRM (R11, R66). -/
def CsrOp.formNrm (op : CsrOp) (old v : Word) : Word :=
  match op with
  | .write => nrmWrite old v
  | .set => nrmSet old v
  | .clear => nrmClear old v

theorem checkPriv_of_handler {s : State} (h : s.here.mode ≠ .task) : checkPriv s = .ok () := by
  have hm : (s.bank s.me).mode = .handler := by
    unfold State.here at h
    cases hc : (s.bank s.me).mode <;> simp_all
  simp [checkPriv, need, hm]

theorem checkPriv_of_task {s : State} (h : s.here.mode = .task) : checkPriv s = .error (.trap 40 s.ir) := by
  have hm : (s.bank s.me).mode = .task := h
  simp [checkPriv, need, hm]

/-- Every trap CSR is implemented, and none is a read-only number. -/
theorem csrRead_of_privCsr {n : Nat} (s : State) (bk : Nat) (h : privCsr n = true) :
    (∃ old, csrRead s bk n = some old) ∧ ¬(0xCC0 ≤ n ∧ n ≤ 0xCFF) := by
  have hn : n = 0x105 ∨ n = 0x140 ∨ n = 0x141 ∨ n = 0x142 ∨ n = 0x143 := by
    simp only [privCsr, Bool.or_eq_true, beq_iff_eq, Bool.and_eq_true, decide_eq_true_eq] at h
    omega
  rcases hn with rfl | rfl | rfl | rfl | rfl <;> exact ⟨⟨_, rfl⟩, by decide⟩

theorem writable_of_not_readOnly {n : Nat} (src : Option Word) (h : ¬(0xCC0 ≤ n ∧ n ≤ 0xCFF)) :
    (src.isNone || !(decide (0xCC0 ≤ n) && decide (n ≤ 0xCFF))) = true := by
  rw [← Bool.decide_and, decide_eq_false h]
  exact Bool.or_true _

section Access
variable {s : State} {n : Nat} {old : Word} (op : CsrOp) (rd : BitVec 5) (src : Option Word) (v : Word)

theorem csrAccess_unimplemented (h : csrRead s s.me n = none) : csrAccess s op rd n src = .error (.bad 2 6 20) := by
  simp only [csrAccess, h]
  rfl

theorem csrAccess_readOnly (h : csrRead s s.me n = some old) (hn : 0xCC0 ≤ n ∧ n ≤ 0xCFF) :
    csrAccess s op rd n (some v) = .error (.bad 2 6 20) := by
  simp only [csrAccess, h, hn, need]
  rfl

theorem csrAccess_priv (hp : privCsr n = true) (hm : s.here.mode = .task) :
    csrAccess s op rd n src = .error (.trap 40 s.ir) := by
  obtain ⟨⟨old, h⟩, hn⟩ := csrRead_of_privCsr s s.me hp
  simp only [csrAccess, h, need, writable_of_not_readOnly src hn, hp, checkPriv_of_task hm]
  rfl

theorem csrAccess_none (h : csrRead s s.me n = some old) (ha : ¬(privCsr n = true ∧ s.here.mode = .task)) :
    csrAccess s op rd n none = .ok (s.wx s.me rd old) := by
  by_cases hp : privCsr n = true
  · simp only [csrAccess, h, hp, checkPriv_of_handler fun hm => ha ⟨hp, hm⟩]
    rfl
  · simp only [csrAccess, h, hp]
    rfl

theorem csrAccess_some (h : csrRead s s.me n = some old) (ha : ¬(privCsr n = true ∧ s.here.mode = .task))
    (hn : ¬(0xCC0 ≤ n ∧ n ≤ 0xCFF)) (h8 : n ≠ 0x800) :
    csrAccess s op rd n (some v) = .ok ((csrWrite s s.me n (op.form old v)).wx s.me rd old) := by
  by_cases hp : privCsr n = true
  · simp only [csrAccess, h, need, writable_of_not_readOnly _ hn, hp, checkPriv_of_handler fun hm => ha ⟨hp, hm⟩, if_neg h8]
    rfl
  · simp only [csrAccess, h, need, writable_of_not_readOnly _ hn, hp, if_neg h8]
    rfl

theorem csrAccess_nrm :
    csrAccess s op rd 0x800 (some v)
      = .ok ((s.modBank s.me fun b => { b with nrm := op.formNrm b.nrm v }).wx s.me rd s.here.nrm) := rfl

end Access

/-- Where every access to a CSR stops in one way, all six CSR instructions on it do (R11). -/
theorem stopsWith_csr {s : State} {csr : BitVec 12} {rd : BitVec 5} {e : Stop}
    (h : ∀ op src, csrAccess s op rd csr.toNat src = .error e) (rs1 u : BitVec 5) :
    StopsWith (.csrrw rd csr rs1) s e ∧ StopsWith (.csrrs rd csr rs1) s e ∧ StopsWith (.csrrc rd csr rs1) s e
    ∧ StopsWith (.csrrwi rd csr u) s e ∧ StopsWith (.csrrsi rd csr u) s e ∧ StopsWith (.csrrci rd csr u) s e :=
  have stop : ∀ op src, perform s 4 (csrAccess s op rd csr.toNat src) = .next (settleStop s s.me e) :=
    fun op src => by rw [h op src, perform_error]
  ⟨stop _ _, stop _ _, stop _ _, stop _ _, stop _ _, stop _ _⟩

/-- What every access with a source answers, the CSR instructions answer, a set or clear where its source is not x0 or
zero (R11). -/
theorem csr_sourced {s : State} {csr : BitVec 12} {rd : BitVec 5} (P : CsrOp → Word → Out → Prop)
    (h : ∀ op v, P op v (perform s 4 (csrAccess s op rd csr.toNat (some v)))) (rs1 u : BitVec 5) :
    P .write (s.rx s.me rs1) (exec (.csrrw rd csr rs1) s) ∧ P .write (u.setWidth 64) (exec (.csrrwi rd csr u) s)
    ∧ (rs1 ≠ 0 → P .set (s.rx s.me rs1) (exec (.csrrs rd csr rs1) s) ∧ P .clear (s.rx s.me rs1) (exec (.csrrc rd csr rs1) s))
    ∧ (u ≠ 0 → P .set (u.setWidth 64) (exec (.csrrsi rd csr u) s) ∧ P .clear (u.setWidth 64) (exec (.csrrci rd csr u) s)) := by
  have sourced : ∀ op v (r : BitVec 5), r ≠ 0 →
      P op v (perform s 4 (csrAccess s op rd csr.toNat (if r = 0 then none else some v))) := by
    intro op v r hr
    rw [if_neg hr]
    exact h op v
  exact ⟨h _ _, h _ _, fun hr => ⟨sourced _ _ _ hr, sourced _ _ _ hr⟩, fun hu => ⟨sourced _ _ _ hu, sourced _ _ _ hu⟩⟩

/-- An access without a source only writes rd. -/
theorem csrAccess_none_writesOnly {s : State} {n : Nat} {old : Word} (op : CsrOp) (rd : BitVec 5)
    (h : csrRead s s.me n = some old) (ha : ¬(privCsr n = true ∧ s.here.mode = .task)) :
    ∃ t, perform s 4 (csrAccess s op rd n none) = .next t ∧ Writes s t 4 rd old ∧ SameMem s t ∧ Local s t := by
  rw [csrAccess_none op rd h ha, perform_ok]
  exact ⟨_, rfl, writes_wx s s 4 rd old rfl fun _ => rfl, sameMem_of_eq rfl,
    ((Local.refl s).modBank _ State.rest_setBank).modBank _ State.rest_setBank⟩

/-- Settles O10: by what the access answers on an implemented CSR with and without a source, on a read-only number, on an
unimplemented one, and on a trap CSR in task mode. -/
theorem csrInstructions : Obligations.CsrInstructions := by
  intro s csr rd rs1 u
  refine ⟨fun old h ha => ⟨fun hn h8 => ?_, ?_, ?_, fun hn => ?_⟩, fun h => ?_, fun hp hm => ?_⟩
  · refine csr_sourced (fun op v o => ∃ t, o = .next t
      ∧ t = ((csrWrite s s.me csr.toNat (op.form old v)).wx s.me rd old).modBank s.me fun b => b.pass (s.here.pc + 4))
      (fun op v => ?_) rs1 u
    exact ⟨_, by rw [csrAccess_some op rd v h ha hn h8, perform_ok]; rfl, rfl⟩
  · rintro rfl
    exact ⟨csrAccess_none_writesOnly .set rd h ha, csrAccess_none_writesOnly .clear rd h ha⟩
  · rintro rfl
    exact ⟨csrAccess_none_writesOnly .set rd h ha, csrAccess_none_writesOnly .clear rd h ha⟩
  · refine csr_sourced (fun _ _ o => o = .next (settleStop s s.me (.bad 2 6 20))) (fun op v => ?_) rs1 u
    rw [csrAccess_readOnly op rd v h hn, perform_error]
  · exact stopsWith_csr (fun op src => csrAccess_unimplemented op rd src h) rs1 u
  · exact stopsWith_csr (fun op src => csrAccess_priv op rd src hp hm) rs1 u

/-! ### What a written CSR reads as (R11, R12, R65, R66, R327) -/

/-- The CSRs that a write may change, NRM aside: the pacing registers, the registers of one field, the progress registers
of the four copy channels and of the two collective channels. -/
inductive WritableCsr : Nat → Prop
  | pace (i : Nat) : i < 7 → WritableCsr (0x801 + i)
  | vrb : WritableCsr 0x808
  | prb : WritableCsr 0x809
  | lc : WritableCsr 0x80A
  | vupc : WritableCsr 0x810
  | vl0 : WritableCsr 0x811
  | vl1 : WritableCsr 0x812
  | mupc : WritableCsr 0x818
  | row : WritableCsr 0x819
  | col : WritableCsr 0x81A
  | depth : WritableCsr 0x81B
  | cupc (u : Nat) : u < 4 → WritableCsr (0x820 + 8 * u)
  | cli (u i : Nat) : u < 4 → i < 6 → WritableCsr (0x821 + 8 * u + i)
  | kseq (k : Nat) : k < 2 → WritableCsr (0x840 + 2 * k)
  | kstep (k : Nat) : k < 2 → WritableCsr (0x841 + 2 * k)
  | ntdet : WritableCsr 0x5C0
  | stvec : WritableCsr 0x105
  | sscratch : WritableCsr 0x140
  | sepc : WritableCsr 0x141
  | scause : WritableCsr 0x142
  | stval : WritableCsr 0x143

theorem writableCsr_of_csrRead {s : State} {bk n : Nat} (h8 : n ≠ 0x800) (hr : ¬(0xCC0 ≤ n ∧ n ≤ 0xCFF))
    (h : (csrRead s bk n).isSome = true) : WritableCsr n := by
  refine Classical.byContradiction fun hn => ?_
  have ne : ∀ {m}, WritableCsr m → n ≠ m := fun hm e => hn (e ▸ hm)
  have pace : ¬(0x801 ≤ n ∧ n ≤ 0x807) := fun hp => ne (.pace (n - 0x801) (by omega)) (by omega)
  have cupc : 0x820 ≤ n ∧ n ≤ 0x83F → (n - 0x820) % 8 ≠ 0 := fun hc h0 =>
    ne (.cupc ((n - 0x820) / 8) (by omega)) (by omega)
  have cli : 0x820 ≤ n ∧ n ≤ 0x83F → ¬(n - 0x820) % 8 ≤ 6 := fun hc h6 =>
    ne (.cli ((n - 0x820) / 8) ((n - 0x820) % 8 - 1) (by omega) (by have := cupc hc; omega)) (by have := cupc hc; omega)
  have kseq : ¬(n = 0x840 ∨ n = 0x842) := fun hk => hk.elim (ne (.kseq 0 (by decide))) (ne (.kseq 1 (by decide)))
  have kstep : ¬(n = 0x841 ∨ n = 0x843) := fun hk => hk.elim (ne (.kstep 0 (by decide))) (ne (.kstep 1 (by decide)))
  have id : n ≠ 0xCC0 := by omega
  have last : csrRead s bk n = none := by
    by_cases hc : 0x820 ≤ n ∧ n ≤ 0x83F
    · simp only [csrRead, h8, pace, ne .vrb, ne .prb, ne .lc, ne .vupc, ne .vl0, ne .vl1, ne .mupc, ne .row, ne .col, ne .depth,
        if_pos hc, cupc hc, cli hc, if_false]
    · simp only [csrRead, h8, pace, ne .vrb, ne .prb, ne .lc, ne .vupc, ne .vl0, ne .vl1, ne .mupc, ne .row, ne .col, ne .depth,
        hc, kseq, kstep, ne .ntdet, id, ne .stvec, ne .sscratch, ne .sepc, ne .scause, ne .stval, if_false]
  rw [last] at h
  cases h

/-! The equations of a read and a write in the CSRs that lie in tables. -/

theorem lt_two_cases {n : Nat} (h : n < 2) : n = 0 ∨ n = 1 := by omega
theorem lt_four_cases {n : Nat} (h : n < 4) : n = 0 ∨ n = 1 ∨ n = 2 ∨ n = 3 := by omega
theorem lt_six_cases {n : Nat} (h : n < 6) : n = 0 ∨ n = 1 ∨ n = 2 ∨ n = 3 ∨ n = 4 ∨ n = 5 := by omega

section Tables
variable (s : State) (bk : Nat) (v : Word) {i u k : Nat}

theorem csrRead_pace (hi : i < 7) :
    csrRead s bk (0x801 + i) = some ((SMap.get 0 (s.core (keyCore bk)).pace i).setWidth 64) := by
  simp [csrRead, show 0x801 + i ≠ 0x800 by omega, show 0x801 + i ≤ 0x807 by omega]

theorem csrWrite_pace (hi : i < 7) :
    csrWrite s bk (0x801 + i) v
      = s.modCore (keyCore bk) fun c => { c with pace := SMap.set 0 c.pace i (v.setWidth 10) } := by
  simp [csrWrite, show 0x801 + i ≤ 0x807 by omega]

theorem csrRead_cupc (hu : u < 4) :
    csrRead s bk (0x820 + 8 * u) = some ((SMap.get 0 (s.bank bk).cupc u).setWidth 64) := by
  rcases lt_four_cases hu with rfl | rfl | rfl | rfl <;> rfl

theorem csrWrite_cupc (hu : u < 4) :
    csrWrite s bk (0x820 + 8 * u) v
      = s.modBank bk fun b => { b with cupc := SMap.set 0 b.cupc u (v.setWidth 16 &&& 0x81FF#16) } := by
  rcases lt_four_cases hu with rfl | rfl | rfl | rfl <;> rfl

theorem csrRead_cli (hu : u < 4) (hi : i < 6) :
    csrRead s bk (0x821 + 8 * u + i) = some ((SMap.get 0 (s.bank bk).cli (8 * u + i)).setWidth 64) := by
  rcases lt_four_cases hu with rfl | rfl | rfl | rfl <;> rcases lt_six_cases hi with rfl | rfl | rfl | rfl | rfl | rfl <;> rfl

theorem csrWrite_cli (hu : u < 4) (hi : i < 6) :
    csrWrite s bk (0x821 + 8 * u + i) v
      = s.modBank bk fun b => { b with cli := SMap.set 0 b.cli (8 * u + i) (v.setWidth 32) } := by
  rcases lt_four_cases hu with rfl | rfl | rfl | rfl <;> rcases lt_six_cases hi with rfl | rfl | rfl | rfl | rfl | rfl <;> rfl

theorem csrRead_kseq (hk : k < 2) :
    csrRead s bk (0x840 + 2 * k) = some ((SMap.get 0 (s.bank bk).kseq k).setWidth 64) := by
  rcases lt_two_cases hk with rfl | rfl <;> rfl

theorem csrWrite_kseq (hk : k < 2) :
    csrWrite s bk (0x840 + 2 * k) v = s.modBank bk fun b => { b with kseq := SMap.set 0 b.kseq k (v.setWidth 32) } := by
  rcases lt_two_cases hk with rfl | rfl <;> rfl

theorem csrRead_kstep (hk : k < 2) :
    csrRead s bk (0x841 + 2 * k) = some ((SMap.get 0 (s.bank bk).kstep k).setWidth 64) := by
  rcases lt_two_cases hk with rfl | rfl <;> rfl

theorem csrWrite_kstep (hk : k < 2) :
    csrWrite s bk (0x841 + 2 * k) v = s.modBank bk fun b => { b with kstep := SMap.set 0 b.kstep k (v.setWidth 16) } := by
  rcases lt_two_cases hk with rfl | rfl <;> rfl

end Tables

/-- A write leaves every other CSR as it was. -/
theorem csrRead_csrWrite_ne {n m : Nat} (s : State) (bk : Nat) (v : Word) (hn : WritableCsr n) (h : m ≠ n) :
    csrRead (csrWrite s bk n v) bk m = csrRead s bk m := by
  cases hn with
  | pace i hi =>
    rw [csrWrite_pace s bk v hi]
    by_cases hm : 0x801 ≤ m ∧ m ≤ 0x807
    · have hne : m - 0x801 ≠ i := by omega
      simp [csrRead, hm, SMap.get_set_ne _ _ _ hne]
    · simp [csrRead, hm]
  | cupc u hu =>
    rw [csrWrite_cupc s bk v hu]
    by_cases hm : (0x820 ≤ m ∧ m ≤ 0x83F) ∧ (m - 0x820) % 8 = 0
    · have hne : (m - 0x820) / 8 ≠ u := by omega
      simp [csrRead, hm, SMap.get_set_ne _ _ _ hne]
    · have hm : ¬(0x820 ≤ m ∧ m ≤ 0x83F) ∨ (m - 0x820) % 8 ≠ 0 := by omega
      rcases hm with hm | hm <;> simp [csrRead, hm]
  | cli u i hu hi =>
    rw [csrWrite_cli s bk v hu hi]
    by_cases hm : (0x820 ≤ m ∧ m ≤ 0x83F) ∧ (m - 0x820) % 8 ≠ 0 ∧ (m - 0x820) % 8 ≤ 6
    · have hne : 8 * ((m - 0x820) / 8) + ((m - 0x820) % 8 - 1) ≠ 8 * u + i := by omega
      simp [csrRead, hm, SMap.get_set_ne _ _ _ hne]
    · have hm : ¬(0x820 ≤ m ∧ m ≤ 0x83F) ∨ (m - 0x820) % 8 = 0 ∨ ¬(m - 0x820) % 8 ≤ 6 := by omega
      rcases hm with hm | hm | hm <;> simp [csrRead, hm]
  | kseq k hk =>
    rw [csrWrite_kseq s bk v hk]
    by_cases hm : m = 0x840 ∨ m = 0x842
    · have hne : (m - 0x840) / 2 ≠ k := by omega
      simp [csrRead, hm, SMap.get_set_ne _ _ _ hne]
    · simp [csrRead, hm]
  | kstep k hk =>
    rw [csrWrite_kstep s bk v hk]
    by_cases hm : m = 0x841 ∨ m = 0x843
    · have hne : (m - 0x841) / 2 ≠ k := by omega
      simp [csrRead, hm, SMap.get_set_ne _ _ _ hne]
    · simp [csrRead, hm]
  | _ => simp [csrWrite, csrRead, h]

/-- A write of a CSR changes no scalar register and no memory. -/
theorem csrWrite_frame {n : Nat} (s : State) (bk : Nat) (v : Word) (hn : WritableCsr n) :
    ((csrWrite s bk n v).bank bk).x = (s.bank bk).x ∧ (csrWrite s bk n v).mem = s.mem := by
  cases hn with
  | pace i hi => simp [csrWrite_pace s bk v hi]
  | cupc u hu => simp [csrWrite_cupc s bk v hu]
  | cli u i hu hi => simp [csrWrite_cli s bk v hu hi]
  | kseq k hk => simp [csrWrite_kseq s bk v hk]
  | kstep k hk => simp [csrWrite_kstep s bk v hk]
  | _ => simp [csrWrite]

/-- A field of `k` bits holds the low `k` bits of what is written. -/
theorem setWidth_field (v : Word) {k : Nat} (hk : k ≤ 64) :
    (v.setWidth k).setWidth 64 = v &&& BitVec.ofNat 64 (2 ^ k - 1) := by
  apply BitVec.eq_of_toNat_eq
  have hm : 2 ^ k - 1 < 2 ^ 64 := by have := Nat.pow_le_pow_right (n := 2) (by decide) hk; have := Nat.two_pow_pos k; omega
  have hv : v.toNat % 2 ^ k < 2 ^ 64 := by have := Nat.mod_le v.toNat (2 ^ k); omega
  simp only [BitVec.toNat_setWidth, BitVec.toNat_and, BitVec.toNat_ofNat, Nat.mod_eq_of_lt hm, Nat.and_two_pow_sub_one_eq_mod]
  exact Nat.mod_eq_of_lt hv

/-- A microcode address keeps its low 9 bits and its top bit. -/
theorem setWidth_upc (v : Word) : (v.setWidth 16).setWidth 64 &&& 0x81FF#64 = v &&& 0x81FF#64 := by
  rw [setWidth_field v (by decide), BitVec.and_assoc]
  rfl

/-- A written CSR reads as the bits of its field, a rotating base taken modulo what it indexes (R11, R12). -/
theorem csrRead_csrWrite_same {n : Nat} (s : State) (bk : Nat) (v : Word) (hn : WritableCsr n) :
    csrRead (csrWrite s bk n v) bk n = some
       (if 0x801 ≤ n ∧ n ≤ 0x807 then v &&& 0x3FF#64
        else if n = 0x808 then
          (if (s.bank bk).grant = 0 then 0 else BitVec.ofNat 64 (v.toNat % 256 % (s.bank bk).grant % 256))
        else if n = 0x809 then BitVec.ofNat 64 (v.toNat % 64 % 48)
        else if n = 0x810 then v &&& 0x1FF#64
        else if n = 0x818 ∨ n = 0x820 ∨ n = 0x828 ∨ n = 0x830 ∨ n = 0x838 then v &&& 0x81FF#64
        else if n = 0x819 ∨ n = 0x81A ∨ n = 0x81B ∨ n = 0x841 ∨ n = 0x843 ∨ n = 0x5C0 then v &&& 0xFFFF#64
        else if n = 0x105 ∨ n = 0x141 then v &&& ~~~3#64
        else if n = 0x142 then v &&& 0x7FFFFFFFFFFFFFFF#64
        else if n = 0x140 ∨ n = 0x143 then v
        else v &&& 0xFFFFFFFF#64) := by
  cases hn with
  | pace i hi =>
    rw [csrWrite_pace s bk v hi, csrRead_pace _ _ hi, if_pos (by omega)]
    simp [setWidth_field]
  | vrb =>
    by_cases hg : (s.bank bk).grant = 0
    · simp [csrWrite, csrRead, hg]
    · apply congrArg some
      apply BitVec.eq_of_toNat_eq
      simp [csrWrite, hg, bits, bitsN]
  | prb =>
    apply congrArg some
    apply BitVec.eq_of_toNat_eq
    have hp : v.toNat % 64 % 48 < 64 := by omega
    simp [csrWrite, bits, bitsN, Nat.mod_eq_of_lt hp]
  | cupc u hu =>
    rw [csrWrite_cupc s bk v hu, csrRead_cupc _ _ hu]
    rcases lt_four_cases hu with rfl | rfl | rfl | rfl <;> simp [setWidth_upc]
  | cli u i hu hi =>
    rw [csrWrite_cli s bk v hu hi, csrRead_cli _ _ hu hi]
    rcases lt_four_cases hu with rfl | rfl | rfl | rfl <;> rcases lt_six_cases hi with rfl | rfl | rfl | rfl | rfl | rfl <;> simp [setWidth_field]
  | kseq k hk =>
    rw [csrWrite_kseq s bk v hk, csrRead_kseq _ _ hk]
    rcases lt_two_cases hk with rfl | rfl <;> simp [setWidth_field]
  | kstep k hk =>
    rw [csrWrite_kstep s bk v hk, csrRead_kstep _ _ hk]
    rcases lt_two_cases hk with rfl | rfl <;> simp [setWidth_field]
  | mupc => simp [csrWrite, csrRead, setWidth_upc]
  | _ => simp [csrWrite, csrRead, setWidth_field]

/-! ### NRM (R11, R66) -/

/-- A bank with another value in NRM. -/
def Bank.setNrm (b : Bank) (v : Word) : Bank := { b with nrm := v }

/-- The instruction passes with `new` in NRM and the old value in rd, and changes nothing else. -/
def NrmLeaves (s : State) (rd : BitVec 5) (new : Word) (o : Out) : Prop :=
  ∃ t, o = .next t ∧ (t.bank s.me).nrm = new
    ∧ (t.bank s.me).rx rd.toNat = (if rd = 0 then 0 else s.here.nrm) ∧ (t.bank s.me).pc = s.here.pc + 4
    ∧ (∀ r, r ≠ rd.toNat → (t.bank s.me).rx r = s.here.rx r)
    ∧ { (t.bank s.me).restX with nrm := 0 } = { s.here.restX with nrm := 0 } ∧ SameMem s t ∧ Local s t

/-- An access to NRM with a source leaves there what its operation forms. -/
theorem csrAccess_nrm_leaves (s : State) (op : CsrOp) (rd : BitVec 5) (v : Word) :
    NrmLeaves s rd (op.formNrm s.here.nrm v) (perform s 4 (csrAccess s op rd 0x800 (some v))) := by
  let t := ((s.modBank s.me (Bank.setNrm · (op.formNrm s.here.nrm v))).wx s.me rd s.here.nrm).modBank s.me
    fun b => b.pass (s.here.pc + 4)
  have hb : t.bank s.me = ((s.here.setNrm (op.formNrm s.here.nrm v)).wx rd.toNat s.here.nrm).pass (s.here.pc + 4) := by
    simp [t, State.wx, State.here]
  have hrx : ∀ r, (t.bank s.me).rx r = if r = rd.toNat then (if rd = 0 then 0 else s.here.nrm) else s.here.rx r := by
    intro r
    rw [hb, Bank.rx_pass, Bank.rx_wx]
    simp only [regNum_zero]
    rfl
  refine ⟨t, by rw [csrAccess_nrm, perform_ok]; rfl, ?_, ?_, ?_, fun r hr => ?_, ?_, sameMem_of_eq rfl, ?_⟩
  · rw [hb]
    exact Bank.wx_nrm _ _ _
  · rw [hrx, if_pos rfl]
  · rw [hb]
    rfl
  · rw [hrx, if_neg hr]
  · rw [hb, Bank.restX_pass, Bank.restX_wx]
    rfl
  · exact (((Local.refl s).modBank _ State.rest_setBank).modBank _ State.rest_setBank).modBank _ State.rest_setBank

/-- Settles O11: every implemented CSR but NRM and the read-only numbers is one of the writable ones, each with its own
field; and an access to NRM with a source forms its value by its operation. -/
theorem csrValues : Obligations.CsrValues := by
  refine ⟨fun s bk n v h8 hr h => ?_, fun s rd rs1 u => ?_⟩
  · have hn : WritableCsr n := writableCsr_of_csrRead h8 hr h
    obtain ⟨hx, hmem⟩ := csrWrite_frame s bk v hn
    exact ⟨csrRead_csrWrite_same s bk v hn, fun m hm => csrRead_csrWrite_ne s bk v hn hm,
      fun r => by rw [Bank.rx, hx, Bank.rx], sameMem_of_eq hmem⟩
  · have hs : ∀ v, nrmWrite s.here.nrm v = (v &&& 7#64) ||| (s.here.nrm &&& ~~~v &&& 0xF8#64) :=
      fun v => BitVec.or_comm _ _
    have leaves := csr_sourced (csr := 0x800#12) (rd := rd) (fun op v => NrmLeaves s rd (op.formNrm s.here.nrm v))
      (csrAccess_nrm_leaves s · rd ·) rs1 u
    simp only [CsrOp.formNrm, hs] at leaves
    exact leaves

end Sys2Proof.Machine

namespace Sys2Proof.Machine

/-! ### Spans of a table -/

theorem SMap.find_filter_keep {α : Type} (m : SMap α) (p : Nat × α → Bool) {k : Nat} (h : ∀ v, p (k, v) = true) :
    SMap.find (m.filter p) k = SMap.find m k := by
  induction m with
  | nil => rfl
  | cons e t ih =>
    obtain ⟨k', v⟩ := e
    by_cases hk : k' = k
    · subst hk
      simp [SMap.find, h]
    · by_cases hp : p (k', v) = true
      · simp [SMap.find, hp, hk, ih]
      · simp [SMap.find, hp, hk, ih]

theorem SMap.find_filter_drop {α : Type} (m : SMap α) (p : Nat × α → Bool) {k : Nat} (h : ∀ v, p (k, v) = false) :
    SMap.find (m.filter p) k = none := by
  induction m with
  | nil => rfl
  | cons e t ih =>
    obtain ⟨k', v⟩ := e
    by_cases hk : k' = k
    · subst hk
      simp [h, ih]
    · by_cases hp : p (k', v) = true
      · simp [SMap.find, hp, hk, ih]
      · simp [hp, ih]

/-- Changing the values of a table under their keys. -/
theorem SMap.find_map {α : Type} (m : SMap α) (g : Nat × α → Nat × α) (hg : ∀ e, (g e).1 = e.1) (k : Nat) :
    SMap.find (m.map g) k = (SMap.find m k).map fun v => (g (k, v)).2 := by
  induction m with
  | nil => rfl
  | cons e t ih =>
    obtain ⟨k', v⟩ := e
    have h1 : (g (k', v)).1 = k' := hg _
    by_cases hk : k' = k
    · subst hk
      simp [SMap.find, h1]
    · simp [SMap.find, h1, hk, ih]

theorem inSpan_eq (x a n : Nat) : (decide (a ≤ x) && decide (x < a + n)) = decide (a ≤ x ∧ x < a + n) :=
  (Bool.decide_and _ _).symm

theorem Memory.read_cellsOut (m : List Host.Cell) {a n x : Nat} (h : ¬(a ≤ x ∧ x < a + n)) :
    Memory.read (cellsOut m a n) x = Memory.read m x := by
  have keep := SMap.find_filter_keep m (fun e => !(decide (a ≤ e.1) && decide (e.1 < a + n))) (k := x)
    fun _ => by rw [inSpan_eq, decide_eq_false h]; rfl
  exact congrArg (·.getD Memory.unlisted) keep

theorem Memory.read_cellsIn (m : List Host.Cell) (a n x : Nat) :
    Memory.read (cellsIn m a n) x = if a ≤ x ∧ x < a + n then Memory.read m x else Memory.read [] x := by
  split
  case isTrue h =>
    have keep := SMap.find_filter_keep m (fun e => decide (a ≤ e.1) && decide (e.1 < a + n)) (k := x)
      fun _ => by rw [inSpan_eq, decide_eq_true h]
    exact congrArg (·.getD Memory.unlisted) keep
  case isFalse h =>
    have drop := SMap.find_filter_drop m (fun e => decide (a ≤ e.1) && decide (e.1 < a + n)) (k := x)
      fun _ => by rw [inSpan_eq, decide_eq_false h]
    exact congrArg (·.getD Memory.unlisted) drop

/-! ### A fold over units -/

/-- What the step of one item establishes and every step keeps holds after a fold over a list with the item. -/
theorem foldl_establishes {α : Type} (f : State → α → State) (a : α) (P Q : State → Prop)
    (make : ∀ s, Q s → P (f s a)) (keepQ : ∀ s b, b ≠ a → Q s → Q (f s b)) (keepP : ∀ s b, P s → P (f s b))
    {l : List α} (ha : a ∈ l) {s : State} (hq : Q s) : P (l.foldl f s) := by
  induction l generalizing s with
  | nil => cases ha
  | cons b l ih =>
    rw [List.foldl_cons]
    by_cases hb : b = a
    · subst hb
      exact foldl_keep P f keepP l _ (make s hq)
    · exact ih ((List.mem_cons.mp ha).resolve_left (Ne.symm hb)) (keepQ s b hb hq)

/-! ### Loss of a core's state (R360, R367) -/

theorem State.loseCore_gated {s : State} {ck : Nat} (h : (s.core ck).gated = true) : s.loseCore ck = s := if_pos h

/-- A core that loses its state. -/
def Core.lost (c : Core) : Core :=
  { c.kept with
    down := true, shadowed := c.shadowed, semTag := c.semTag, remote := c.remote, pace := c.pace, paceLost := c.paceLost,
    moduleLost := c.moduleLost }

/-- What the loss of a core's state does to each part of the machine. -/
theorem State.loseCore_parts {s : State} {ck : Nat} (h : (s.core ck).gated = false) :
    (s.loseCore ck).cores = SMap.put s.cores ck (s.core ck).lost
    ∧ (∀ bk, (s.loseCore ck).bank bk = ((s.modBank (2 * ck) Bank.away).modBank (2 * ck + 1) Bank.away).bank bk)
    ∧ (s.loseCore ck).mem
        = cellsOut (cellsOut (cellsOut s.mem (spadLoc ck 0) (2 ^ 23)) (imemLoc ck 0) (2 ^ 18)) (microLoc ck 0) (2 ^ 15)
    ∧ (s.loseCore ck).modl = s.modl ∧ (s.loseCore ck).phys = s.phys := by
  have hg : ¬(s.core ck).gated = true := by simp [h]
  unfold State.loseCore
  simp only [if_neg hg]
  split <;> exact ⟨rfl, fun _ => rfl, rfl, rfl, rfl⟩

theorem State.core_loseCore_same {s : State} {ck : Nat} (h : (s.core ck).gated = false) :
    (s.loseCore ck).core ck = (s.core ck).lost := by
  obtain ⟨hc, -⟩ := State.loseCore_parts h
  rw [State.core, hc, SMap.get_put_same]

theorem State.core_loseCore_ne (s : State) {ck j : Nat} (hj : j ≠ ck) : (s.loseCore ck).core j = s.core j := by
  cases h : (s.core ck).gated with
  | true => rw [State.loseCore_gated h]
  | false =>
    obtain ⟨hc, -⟩ := State.loseCore_parts h
    rw [State.core, hc, SMap.get_put_ne _ _ _ hj, ← State.core]

theorem State.bank_loseCore {s : State} {ck : Nat} (h : (s.core ck).gated = false) :
    (s.loseCore ck).bank (2 * ck) = (s.bank (2 * ck)).away ∧ (s.loseCore ck).bank (2 * ck + 1) = (s.bank (2 * ck + 1)).away := by
  obtain ⟨-, hb, -⟩ := State.loseCore_parts h
  have hne : 2 * ck + 1 ≠ 2 * ck := by omega
  refine ⟨?_, ?_⟩
  · rw [hb, State.bank_modBank_ne _ _ hne.symm, State.bank_modBank_same]
  · rw [hb, State.bank_modBank_same, State.bank_modBank_ne _ _ hne]

theorem State.read_loseCore (s : State) (ck : Nat) {a : Nat} (hs : ¬(spadLoc ck 0 ≤ a ∧ a < spadLoc ck 0 + 2 ^ 23))
    (hi : ¬(imemLoc ck 0 ≤ a ∧ a < imemLoc ck 0 + 2 ^ 18)) (hm : ¬(microLoc ck 0 ≤ a ∧ a < microLoc ck 0 + 2 ^ 15)) :
    Memory.read (s.loseCore ck).mem a = Memory.read s.mem a := by
  cases h : (s.core ck).gated with
  | true => rw [State.loseCore_gated h]
  | false =>
    obtain ⟨-, -, hmem, -⟩ := State.loseCore_parts h
    rw [hmem, Memory.read_cellsOut _ hm, Memory.read_cellsOut _ hi, Memory.read_cellsOut _ hs]

@[simp] theorem State.loseCore_modl (s : State) (ck : Nat) : (s.loseCore ck).modl = s.modl := by
  cases h : (s.core ck).gated with
  | true => rw [State.loseCore_gated h]
  | false =>
    obtain ⟨-, -, -, hl, -⟩ := State.loseCore_parts h
    exact hl

@[simp] theorem State.loseCore_phys (s : State) (ck : Nat) : (s.loseCore ck).phys = s.phys := by
  cases h : (s.core ck).gated with
  | true => rw [State.loseCore_gated h]
  | false =>
    obtain ⟨-, -, -, -, hp⟩ := State.loseCore_parts h
    exact hp

/-- A loss that hits one core at a time: it spares the other cores and a gated one, and leaves an ungated one as `P` says. -/
structure LosesCores (f : State → Nat → State) (P : Core → Prop) : Prop where
  others : ∀ s ck j, j ≠ ck → (f s ck).core j = s.core j
  gated : ∀ s ck, (s.core ck).gated = true → f s ck = s
  hit : ∀ s ck, (s.core ck).gated = false → P ((f s ck).core ck)

/-- Every ungated core of a list is hit, whatever else the list holds. -/
theorem LosesCores.foldl {f : State → Nat → State} {P : Core → Prop} (h : LosesCores f P) {l : List Nat} {ck : Nat}
    (hl : ck ∈ l) {s : State} (hg : (s.core ck).gated = false) : P ((l.foldl f s).core ck) := by
  refine foldl_establishes f ck (fun t => P (t.core ck)) (fun t => (t.core ck).gated = false) (fun t ht => h.hit t ck ht)
    (fun t b hb ht => ?_) (fun t b ht => ?_) hl hg
  · rwa [h.others t b ck hb.symm]
  · by_cases hb : ck = b
    · subst hb
      cases hgt : (t.core ck).gated with
      | true => rwa [h.gated t ck hgt]
      | false => exact h.hit t ck hgt
    · rwa [h.others t b ck hb]

theorem losesCores_loseCore : LosesCores State.loseCore fun c => c.down = true where
  others s ck _ hj := State.core_loseCore_ne s hj
  gated _ _ hg := State.loseCore_gated hg
  hit s ck hg := by
    rw [State.core_loseCore_same hg]
    rfl

theorem losesCores_losePower : LosesCores State.losePower fun c => c.down = true ∧ c.pace = [] where
  others s ck j hj := by
    unfold State.losePower
    split
    · rfl
    · rw [State.modCore, State.core_setCore_ne _ _ hj, State.core_loseCore_ne s hj]
  gated _ _ hg := if_pos hg
  hit s ck hg := by
    rw [State.losePower, if_neg (by simp [hg]), State.core_modCore_same, State.core_loseCore_same hg]
    exact ⟨rfl, rfl⟩

theorem State.foldl_loseCore_modl (l : List Nat) (s : State) : (l.foldl State.loseCore s).modl = s.modl :=
  foldl_proj State.modl State.loseCore State.loseCore_modl l s

/-! ### Resets of cores, dies and the package (R366, R367) -/

theorem whileUp_running {s : State} (h : s.running = true) (t : State) : whileUp s t = .next t := by
  rw [whileUp, if_pos h]

theorem whileUp_down {s : State} (h : s.running = false) (t : State) : whileUp s t = .next s := by
  rw [whileUp, if_neg (by simp [h])]

/-- A suspect score that stays below its limit only rises (R377). -/
theorem State.addScore_below {s : State} {p n : Nat} (hp : p < 72) (hs : (s.physCore p).score + n < 3) :
    s.addScore p n = s.modPhys p fun x => { x with score := x.score + n, scoreAt := s.cycle } := by
  have low : ((s.modPhys p fun x => { x with score := x.score + n, scoreAt := s.cycle }).physCore p).score < 3 := by
    simpa [State.modPhys, State.physCore] using hs
  rw [State.addScore, if_neg (by omega)]
  exact if_neg (by simp [Nat.not_le.mpr low])

/-- A core reset before the suspect score reaches its limit: the core loses its state and the score rises. -/
theorem State.resetCore_below {s : State} {ck : Nat} (hg : (s.core ck).gated = false) (hp : s.physOf ck < 72)
    (hs : (s.physCore (s.physOf ck)).score < 2) :
    ((s.resetCore ck).core ck) = (s.core ck).lost
    ∧ (s.resetCore ck).bank (2 * ck) = (s.bank (2 * ck)).away ∧ (s.resetCore ck).bank (2 * ck + 1) = (s.bank (2 * ck + 1)).away
    ∧ ((s.resetCore ck).physCore (s.physOf ck)).score = (s.physCore (s.physOf ck)).score + 1
    ∧ (s.resetCore ck).mem = (s.loseCore ck).mem := by
  let u : State := { s with modl := { s.modl with resets := s.modl.resets.filter fun r => r.1 != ck } }
  have hphys : (u.loseCore ck).physCore (s.physOf ck) = s.physCore (s.physOf ck) := by
    rw [State.physCore, State.loseCore_phys]
    rfl
  have hgu : (u.core ck).gated = false := hg
  have e : s.resetCore ck = (u.loseCore ck).modPhys (s.physOf ck) fun x =>
      { x with score := x.score + 1, scoreAt := (u.loseCore ck).cycle } :=
    State.addScore_below hp (by rw [hphys]; omega)
  rw [e]
  refine ⟨State.core_loseCore_same hgu, (State.bank_loseCore hgu).1, (State.bank_loseCore hgu).2, ?_, ?_⟩
  · rw [State.physCore, State.modPhys, SMap.get_put_same, hphys]
  · obtain ⟨-, -, hu, -⟩ := State.loseCore_parts hgu
    obtain ⟨-, -, hm, -⟩ := State.loseCore_parts hg
    exact hu.trans hm.symm

/-- A package reset takes the link down and the state of every core that is not gated. -/
theorem State.resetPackage_loses (s : State) :
    s.resetPackage.modl.linkUp = false
    ∧ ∀ ck ∈ s.coreKeys, (s.core ck).gated = false → (s.resetPackage.core ck).down = true :=
  ⟨rfl, fun _ hk hg => losesCores_loseCore.foldl hk hg⟩

/-- A die reset with no other within 100 ms takes the state of the die's cores, and the link stays. -/
theorem State.resetDie_first {s : State} (die : Nat) (h : ∀ r ∈ s.modl.dieResets, r.2 + 100000000 < s.cycle) :
    (s.resetDie die).modl.linkUp = s.modl.linkUp
    ∧ ∀ ck ∈ s.dieCores die, (s.core ck).gated = false → ((s.resetDie die).core ck).down = true := by
  have first : (s.modl.dieResets.any fun r => decide (s.cycle ≤ r.2 + 100000000)) = false := by
    simpa using h
  rw [State.resetDie, if_neg (by simp [first])]
  refine ⟨by rw [State.foldl_loseCore_modl], fun ck hk hg => ?_⟩
  exact losesCores_loseCore.foldl (f := State.loseCore) hk hg

/-- A die reset within 100 ms of another is a package reset. -/
theorem State.resetDie_again {s : State} (die : Nat) (h : ∃ r ∈ s.modl.dieResets, s.cycle ≤ r.2 + 100000000) :
    (s.resetDie die).modl.linkUp = false
    ∧ ∀ ck ∈ s.coreKeys, (s.core ck).gated = false → ((s.resetDie die).core ck).down = true := by
  have again : (s.modl.dieResets.any fun r => decide (s.cycle ≤ r.2 + 100000000)) = true := by
    simpa using h
  rw [State.resetDie, if_pos again]
  exact State.resetPackage_loses _

/-! ### Losses of power (R360) -/

/-- A core stands still (R360, R404, R405). -/
def State.halts (s : State) (k : Nat) : Bool :=
  (s.quad (s.quadOf k)).lehr || (s.quad (s.quadOf k)).thermalOff || s.modl.mpwr != 0

/-- A core stands still or not as its quadrant and the module say. -/
def State.rehaltCore (s : State) (k : Nat) : State :=
  if (s.core k).halted = s.halts k then s else s.modCore k fun c => { c with halted := s.halts k }

theorem State.rehalt_eq (s : State) : s.rehalt = s.coreKeys.foldl State.rehaltCore s := rfl

theorem State.rehaltCore_keeps {β : Type} (g : State → β) (hg : ∀ (s : State) k f, g (s.modCore k f) = g s) (s : State) (k : Nat) :
    g (s.rehaltCore k) = g s := by
  unfold State.rehaltCore
  split
  · rfl
  · exact hg s k _

/-- What does not lie in the cores stays when they are stopped or started. -/
theorem State.rehalt_keeps {β : Type} (g : State → β) (hg : ∀ (s : State) k f, g (s.modCore k f) = g s) (s : State) :
    g s.rehalt = g s := by
  rw [State.rehalt_eq]
  exact foldl_proj g State.rehaltCore (State.rehaltCore_keeps g hg) _ s

theorem State.rehaltCore_same (s : State) (k : Nat) : ((s.rehaltCore k).core k).halted = s.halts k := by
  unfold State.rehaltCore
  split
  · assumption
  · rw [State.core_modCore_same]

theorem State.rehaltCore_ne (s : State) {k j : Nat} (h : j ≠ k) : (s.rehaltCore k).core j = s.core j := by
  unfold State.rehaltCore
  split
  · rfl
  · exact State.core_setCore_ne s _ h

/-- Every core stands still exactly where its quadrant or the module has it so. -/
theorem State.rehalt_halted {s : State} {ck : Nat} (h : ck ∈ s.coreKeys) : (s.rehalt.core ck).halted = s.halts ck := by
  have halts : ∀ t k, (State.rehaltCore t k).halts ck = t.halts ck := State.rehaltCore_keeps (State.halts · ck) fun _ _ _ => rfl
  rw [State.rehalt_eq]
  refine (foldl_establishes State.rehaltCore ck (fun t => (t.core ck).halted = s.halts ck ∧ t.halts ck = s.halts ck)
    (fun t => t.halts ck = s.halts ck) (fun t ht => ?_) (fun t k _ ht => (halts t k).trans ht) (fun t k ht => ?_) h rfl).1
  · exact ⟨(State.rehaltCore_same t ck).trans ht, (halts t ck).trans ht⟩
  · refine ⟨?_, (halts t k).trans ht.2⟩
    by_cases hk : ck = k
    · subst hk
      exact (State.rehaltCore_same t ck).trans ht.2
    · rw [State.rehaltCore_ne t hk, ht.1]

/-- The loss of module input leaves of memory what lies at the host (R402). -/
theorem State.read_inputLoss (s : State) (a : Nat) :
    Memory.read s.inputLoss.mem a = if 2 ^ 64 ≤ a ∧ a < 2 ^ 65 then Memory.read s.mem a else Memory.read [] a :=
  Memory.read_cellsIn s.mem (2 ^ 64) (2 ^ 64) a

/-! ### Alarms and watchdogs (R366, R369) -/

theorem State.scanAlarm_serving (s t : State) {core : Nat} (h : core < 256) : s.scanAlarm core t = t := if_pos h

theorem State.scanAlarm_scanning {s : State} (t : State) {p began : Nat} {turn : Bool}
    (h : s.modl.scanning = some (p, began, turn)) : s.scanAlarm (p + 256) t = s.endScan p false := by
  rw [State.scanAlarm, if_neg (by omega)]
  simp only [h, if_true]

/-- One unit's share of the watchdogs' count: its own counter rises where it has work, and no other does. -/
theorem get_countWork_unit (m : SMap Nat) (busy : Bool) (g e : Engine) (d : Nat) :
    SMap.get 0 (if busy = true then SMap.put m (engineNum g) (SMap.get 0 m (engineNum g) + d) else m) (engineNum e)
      = SMap.get 0 m (engineNum e) + if e = g ∧ busy = true then d else 0 := by
  have inj : engineNum e = engineNum g ↔ e = g := by cases e <;> cases g <;> decide
  by_cases he : e = g
  · subst he
    cases busy <;> simp
  · cases busy
    · simp
    · simp [he, SMap.get_put_ne 0 m _ (mt inj.mp he)]

/-- The counters of a core after those of some units that have work have risen, each once. -/
theorem get_countWork_units (busy : Engine → Bool) (e : Engine) (d : Nat) {l : List Engine} (hl : l.Nodup) (m : SMap Nat) :
    SMap.get 0 (l.foldl (fun m g =>
        if busy g = true then SMap.put m (engineNum g) (SMap.get 0 m (engineNum g) + d) else m) m) (engineNum e)
      = SMap.get 0 m (engineNum e) + if e ∈ l ∧ busy e = true then d else 0 := by
  induction l generalizing m with
  | nil => simp
  | cons g l ih =>
    obtain ⟨hg, hl⟩ := List.nodup_cons.mp hl
    rw [List.foldl_cons, ih hl, get_countWork_unit, Nat.add_assoc]
    by_cases he : e = g
    · subst he
      simp [hg]
    · simp [he]

/-- What a watchdog has counted after `n` cycles (R366). -/
theorem State.worked_countWork {s : State} {core : Nat} {c : Core} (h : SMap.find s.cores core = some c) (n : Nat) {e : Engine}
    (he : e ≠ .die) :
    ((s.countWork n).core core).worked e = c.worked e
      + (if s.engineBusy core e then ({ s with cycle := s.cycle + n } : State).coreClock core - s.coreClock core else 0) := by
  rw [State.core, SMap.get, State.countWork, SMap.find_map _ _ (fun e => by dsimp only; split <;> rfl), h, Option.map_some,
    Option.getD_some]
  dsimp only
  split
  case isTrue hd => simp [hd]
  case isFalse =>
    have hm : e ∈ [Engine.control, .vec, .mat, .copy, .port] := by cases e <;> simp_all
    rw [Core.worked, get_countWork_units (s.engineBusy core) e _ (by decide)]
    simp only [hm, true_and]
    rfl

/-! ### The rolling reset (R368) -/

/-- An engine reset moves no memory and nothing of the module's registers. -/
theorem State.resetEngine_keeps (s : State) (core : Nat) (e : Engine) :
    (s.resetEngine core e).mem = s.mem ∧ (s.resetEngine core e).modl = s.modl := by
  cases e <;> exact ⟨rfl, rfl⟩

/-- A reset of an engine that is the first within 1 ms keeps memory and, but for the record of resets, the module (R366). -/
theorem State.countedReset_first {s : State} (core : Nat) (e : Engine) (h : ∀ r ∈ s.modl.resets, r.2.2 + 1000000 < s.cycle) :
    (s.countedReset core e).mem = s.mem ∧ (s.countedReset core e).modl = { s.modl with resets := [(core, engineNum e, s.cycle)] } := by
  have first : (s.modl.resets.filter fun r => decide (s.cycle ≤ r.2.2 + 1000000)) = [] := by
    simpa using h
  simp only [State.countedReset, first]
  exact State.resetEngine_keeps _ core e

/-- The next unit of the rolling reset. -/
def State.rollUnit (s : State) : Nat := (s.rollUnits.find? fun u => decide (s.modl.roll ≤ u)).getD (s.rollUnits.headD 0)

/-- The module with the rolling reset moved past a unit. -/
def State.rolled (s : State) (u : Nat) : State :=
  State.stampPeriod { s with modl := { s.modl with roll := (u + 1) % 232 } } 3

/-- A rolling reset that is due resets an engine or a port processor, or none where no logical core is served. -/
theorem tryRollingReset_due {s : State} (hb : s.modl.boot = 6) (hr : s.modl.rollp ≠ 0)
    (hd : s.periodDue 3 s.modl.rollp.toNat s.rollUnits.length = true) :
    tryRollingReset s = some (s.rolled s.rollUnit)
    ∨ ∃ ck e, tryRollingReset s = some ((s.rolled s.rollUnit).countedReset ck e) := by
  have due : (s.modl.boot != 6 || s.modl.rollp == 0 || !s.periodDue 3 s.modl.rollp.toNat s.rollUnits.length) = false := by
    have hr' : (s.modl.rollp == 0) = false := beq_false_of_ne hr
    simp only [hr', hd, hb]
    decide
  unfold tryRollingReset
  simp only [due, Bool.false_eq_true, if_false]
  split
  · exact .inl rfl
  · split
    · exact .inr ⟨_, _, rfl⟩
    · exact .inl rfl

/-- ROLLING_RESET moves on past its unit, notes the time and leaves memory as it is (R368). -/
theorem exec_rollingReset_due {s : State} (hb : s.modl.boot = 6) (hr : s.modl.rollp ≠ 0)
    (hd : s.periodDue 3 s.modl.rollp.toNat s.rollUnits.length = true) (h : ∀ r ∈ s.modl.resets, r.2.2 + 1000000 < s.cycle) :
    ∃ t, exec .rollingReset s = .next t ∧ t.modl.roll = (s.rollUnit + 1) % 232 ∧ SMap.get 0 t.modl.last 3 = s.cycle ∧ t.mem = s.mem := by
  have last : SMap.get 0 (s.rolled s.rollUnit).modl.last 3 = s.cycle := SMap.get_put_same 0 _ 3 _
  rcases tryRollingReset_due hb hr hd with ht | ⟨ck, e, ht⟩
  · exact ⟨_, congrArg (event s) ht, rfl, last, rfl⟩
  · obtain ⟨hmem, hmodl⟩ := State.countedReset_first (s := s.rolled s.rollUnit) ck e h
    exact ⟨_, congrArg (event s) ht, congrArg Modl.roll hmodl,
      (congrArg (fun m : Modl => SMap.get 0 m.last 3) hmodl).trans last, hmem⟩

/-! ### What the steps of the cox answer -/

/-- The watchdog of an engine. -/
theorem tryWatchdog_engine (s : State) (core : Nat) {e : Engine} (he : e = .vec ∨ e = .mat ∨ e = .copy) :
    tryWatchdog core e s
      = if 2 ^ 20 ≤ (s.core core).worked e then some ((s.alarmEngine core e).stampMark core (engineNum e)) else none := by
  rcases he with rfl | rfl | rfl <;> simp only [tryWatchdog, decide_eq_true_eq]

/-- The watchdog of a control core. -/
theorem tryWatchdog_control (s : State) (core : Nat) :
    tryWatchdog core .control s
      = if 2 ^ 20 ≤ (s.core core).worked .control then some ((s.resetCore core).stampMark core 0) else none := by
  simp only [tryWatchdog, decide_eq_true_eq]

/-- An alarm of an engine or a port processor resets it (R366). -/
theorem exec_alarm_engine {s : State} (hr : s.running = true) {core : Nat} (hc : core < 256) {e : Engine}
    (he : (e = .vec ∨ e = .mat ∨ e = .copy) ∨ e = .port) :
    exec (.parityAlarm core e) s = .next (s.alarmEngine core e) ∧ exec (.protocolAlarm core e) s = .next (s.alarmEngine core e) := by
  have alarm : whileUp s (s.scanAlarm core (s.alarmEngine core e)) = .next (s.alarmEngine core e) := by
    rw [State.scanAlarm_serving s _ hc, whileUp_running hr]
  rcases he with (rfl | rfl | rfl) | rfl <;> exact ⟨alarm, alarm⟩

/-- An alarm of the core under scan ends the scan as failed (R369). -/
theorem exec_alarm_scanning {s : State} (hr : s.running = true) {q began : Nat} {turn : Bool}
    (h : s.modl.scanning = some (q, began, turn)) (e : Engine) :
    exec (.parityAlarm (q + 256) e) s = .next (s.endScan q false) ∧ exec (.protocolAlarm (q + 256) e) s = .next (s.endScan q false) := by
  have alarm : ∀ t, whileUp s (s.scanAlarm (q + 256) t) = .next (s.endScan q false) := fun t => by
    rw [State.scanAlarm_scanning t h, whileUp_running hr]
  exact ⟨alarm _, alarm _⟩

/-- Lehr power lost or back stands its quadrant's cores still or lets them go on, and changes no memory and no bank (R360). -/
theorem State.rehalt_modQuad (s : State) (quad : Nat) (lehr : Bool) :
    let t := (s.modQuad quad fun q => { q with lehr := lehr }).rehalt
    (t.quad quad).lehr = lehr ∧ t.mem = s.mem ∧ t.banks = s.banks
    ∧ ∀ ck ∈ s.coreKeys, s.quadOf ck = quad →
        (t.core ck).halted = (lehr || (s.quad quad).thermalOff || s.modl.mpwr != 0) := by
  have hq : ((s.modQuad quad fun q => { q with lehr := lehr }).quad quad).lehr = lehr
      ∧ ((s.modQuad quad fun q => { q with lehr := lehr }).quad quad).thermalOff = (s.quad quad).thermalOff := by
    simp [State.modQuad, State.quad]
  refine ⟨?_, ?_, ?_, fun ck hk hck => ?_⟩
  · rw [State.rehalt_keeps (fun u => (u.quad quad).lehr) fun _ _ _ => rfl]
    exact hq.1
  · exact State.rehalt_keeps State.mem (fun _ _ _ => rfl) _
  · exact State.rehalt_keeps State.banks (fun _ _ _ => rfl) _
  · rw [State.rehalt_halted (s := s.modQuad quad fun q => { q with lehr := lehr }) hk, State.halts]
    have hk' : (s.modQuad quad fun q => { q with lehr := lehr }).quadOf ck = quad := hck
    rw [hk', hq.1, hq.2]
    rfl

/-- Settles O51: by what each reset and each loss takes of a core and leaves, folded over the cores that it hits, by
the watchdogs' count of one unit, and by the one unit that a rolling reset touches. -/
theorem resetsAndLosses : Obligations.ResetsAndLosses := by
  intro s core die quad
  refine ⟨fun hr => ⟨fun hg hp hs => ?_, fun hc => ⟨?_, fun e he => exec_alarm_engine hr hc he⟩,
      fun q began turn e h => exec_alarm_scanning hr h e, fun hd => ?_, fun h => ?_, fun h => ?_, ?_, ?_, ?_, ?_, ?_⟩,
    fun hr e i hi => ?_, fun e he => ⟨fun h => ?_, fun h => ?_⟩, fun h => ?_, fun h => ?_,
    fun n c e h he => State.worked_countWork h n he, ?_, fun hb hrp hd h => exec_rollingReset_due hb hrp hd h⟩
  -- a core reset
  · obtain ⟨hcore, hb0, hb1, hscore, hmem⟩ := State.resetCore_below hg hp hs
    refine ⟨_, whileUp_running hr _, hb0, hb1, by rw [hcore]; rfl, by rw [hcore]; rfl, hscore, fun a hsp hi hm => ?_⟩
    rw [hmem, State.read_loseCore s core hsp hi hm]
  -- alarms of a control core and of a die
  · exact (whileUp_running hr _).trans (congrArg _ (State.scanAlarm_serving s _ hc))
  · exact (whileUp_running hr _).trans (congrArg _ (State.scanAlarm_serving s _ hd))
  -- a die reset, alone and within 100 ms of another
  · exact ⟨_, whileUp_running hr _, State.resetDie_first die h⟩
  · exact ⟨_, whileUp_running hr _, State.resetDie_again die h⟩
  -- a package reset and a conventional reset
  · exact ⟨_, whileUp_running hr _, s.resetPackage_loses⟩
  · exact ⟨_, whileUp_running hr _, s.resetPackage_loses⟩
  -- compute power lost; lehr power lost, and back
  · refine ⟨_, whileUp_running hr _, fun ck hk hq hv => ?_⟩
    have hit : (s.core ck).gated = false → _ := losesCores_losePower.foldl (s := s)
      (l := s.coreKeys.filter fun k => s.quadOf k == quad && s.served k) (ck := ck) (by simp [hk, hq, hv])
    exact ⟨fun hg => (hit hg).1, fun hg => (hit hg).2⟩
  · obtain ⟨hl, hmem, hbanks, halt⟩ := s.rehalt_modQuad quad true
    exact ⟨_, whileUp_running hr _, hl, hmem, hbanks, fun ck hk hq => by rw [halt ck hk hq]; rfl⟩
  · obtain ⟨hl, hmem, hbanks, halt⟩ := s.rehalt_modQuad quad false
    refine ⟨_, whileUp_running hr _, hl, hmem, hbanks, fun ck hk hq ht hm => ?_⟩
    rw [halt ck hk hq, ht, hm]
    rfl
  -- without the compute domains up
  · have idle := whileUp_down hr
    simp only [List.mem_cons, List.not_mem_nil, or_false] at hi
    rcases hi with rfl | rfl | rfl | rfl | rfl | rfl | rfl | rfl | rfl <;> exact idle _
  -- watchdogs of engines and of the control core
  · exact congrArg (event s) ((tryWatchdog_engine s core he).trans (if_pos h))
  · exact congrArg (event s) ((tryWatchdog_engine s core he).trans (if_neg (Nat.not_le.mpr h)))
  · exact congrArg (event s) ((tryWatchdog_control s core).trans (if_pos h))
  · exact congrArg (event s) ((tryWatchdog_control s core).trans (if_neg (Nat.not_le.mpr h)))
  -- the loss of module input
  · exact ⟨_, rfl, rfl, rfl, rfl, rfl, rfl, s.read_inputLoss⟩

end Sys2Proof.Machine

namespace Sys2Proof.Machine

/-! ### Timelines (R111) -/

theorem Timeline.settle_last (n : Nat) (t : Timeline) : (Timeline.settle n t).last = t.last := by
  induction n generalizing t with
  | zero => rfl
  | succ n ih =>
    unfold Timeline.settle
    split
    · exact ih _
    · rfl

/-- A completion gives out no number. -/
@[simp] theorem Timeline.complete_last (t : Timeline) (n : Nat) : (t.complete n).last = t.last := by
  unfold Timeline.complete
  split
  · rfl
  · exact Timeline.settle_last _ _

@[simp] theorem Bank.tlNext_tlGive (b : Bank) (k : Nat) : (b.tlGive k).tlNext k = b.tlNext k + 1 := by
  simp [Bank.tlNext, Bank.timeline]

@[simp] theorem Bank.tlNext_tlDone (b : Bank) (k n : Nat) : (b.tlDone k n).tlNext k = b.tlNext k := by
  simp [Bank.tlNext, Bank.timeline]

/-! ### The issue of a word of any queue -/

/-- A bank whose crew has recorded an issue. -/
def Bank.stamped (b : Bank) (w : Option Crew) (k : Bool) : Bank := { b with crew := w, stuck := k }

/-- The issue of a word records its time in the bank's crew and changes nothing else of the bank. -/
theorem stampIssue_bank {s : State} (h : s.here.uid.isSome = true) (q : Queue) (c : Ctl) :
    ∃ w k, (stampIssue s s.me (s.here.uid.getD 0) q c).bank s.me = s.here.stamped w k := by
  obtain ⟨u, hu⟩ := Option.isSome_iff_exists.1 h
  have hu : (s.bank s.me).uid = some u := hu
  have hd : s.here.uid.getD 0 = u := by simp [State.here, hu]
  unfold stampIssue
  rw [hd]
  dsimp only
  split
  · rw [State.modHome, State.bank_setCore, if_pos hu, State.bank_modBank_same, State.bank_setCore]
    exact ⟨_, _, rfl⟩
  · rw [State.bank_setCore]
    exact ⟨_, _, rfl⟩

theorem local_lastIssue (s : State) (ck : Nat) (l : SMap Nat) :
    Local s (s.setCore ck { s.core ck with lastIssue := l }) := by
  refine ⟨rfl, fun bk _ => by rw [State.bank_setCore], fun k => ?_⟩
  by_cases hk : k = ck
  · subst hk
    simp [Core.rest]
  · rw [State.core_setCore_ne _ _ hk]

/-- Outside its bank the issue of a word changes only the issue times of its core. -/
theorem stampIssue_local {s : State} (h : s.here.uid.isSome = true) (q : Queue) (c : Ctl) :
    Local s (stampIssue s s.me (s.here.uid.getD 0) q c) := by
  obtain ⟨u, hu⟩ := Option.isSome_iff_exists.1 h
  have hu : (s.bank s.me).uid = some u := hu
  have hd : s.here.uid.getD 0 = u := by simp [State.here, hu]
  unfold stampIssue
  rw [hd]
  dsimp only
  split
  · rw [State.modHome, State.bank_setCore, if_pos hu]
    exact (local_lastIssue s _ _).modBank _ State.rest_setBank
  · exact local_lastIssue s _ _

theorem Keeps.sameMem {g : Core → Core} {s t : State} (h : Keeps State.rest g s t) : SameMem s t :=
  sameMem_of_eq (show t.rest.mem = s.rest.mem by rw [h.state])

/-! ### Words that the replay-queue controller performs (R140, R141) -/

/-- A word of the bank may be performed now: it is its turn at the replay queue, and its gap has passed (R48, log 43). -/
def State.replayReady (s : State) (c : Ctl) : Prop :=
  replayTurn s s.me (s.here.uid.getD 0) = true ∧ mayIssue s s.me (s.here.uid.getD 0) .vec c = true

/-- The state in which such a word has started: issued, with its tl4 number given out and passed. -/
def State.replayStarted (s : State) (c : Ctl) : State :=
  ((stampIssue s s.me (s.here.uid.getD 0) .vec c).modBank s.me fun b => (b.tlGive 4).nextSeq).tlDone s.me 4 (s.here.tlNext 4)

theorem VecReady.startReplayWord_eq {s : State} {c : Ctl} (h : VecReady s c) (fnOk : Bool) :
    startReplayWord s c fnOk = do
      need fnOk (badOp 0x19 41)
      need (replayTurn s s.me (s.here.uid.getD 0) && mayIssue s s.me (s.here.uid.getD 0) .vec c) .stall
      return s.replayStarted c := by
  have hg : trapV (s.core (keyCore s.me)) ((s.bank s.me).uid.getD 0) = none := h.going
  have hf : stoppedVecStream (s.core (keyCore s.me)) (s.bank s.me) ((s.bank s.me).uid.getD 0) = none := h.flowing
  simp [startReplayWord, h.checked, hg, hf, trapStopped, trapStream, State.replayStarted, State.here, bind, Except.bind, pure,
    Except.pure]

theorem VecReady.startReplayWord_ok {s : State} {c : Ctl} (h : VecReady s c) (ht : s.replayReady c) :
    startReplayWord s c true = .ok (s.replayStarted c) := by
  obtain ⟨ht, hm⟩ := ht
  simp [h.startReplayWord_eq, need, ht, hm, bind, Except.bind, pure, Except.pure]

theorem VecReady.startReplayWord_stall {s : State} {c : Ctl} (h : VecReady s c) (ht : ¬s.replayReady c) :
    startReplayWord s c true = .error .stall := by
  have ht : (replayTurn s s.me (s.here.uid.getD 0) && mayIssue s s.me (s.here.uid.getD 0) .vec c) = false := by
    rwa [← Bool.not_eq_true, Bool.and_eq_true]
  simp [h.startReplayWord_eq, need, ht, bind, Except.bind]

theorem VecReady.startReplayWord_bad {s : State} {c : Ctl} (h : VecReady s c) :
    startReplayWord s c false = .error (.bad 24 0x19 41) := by
  simp [h.startReplayWord_eq, need, badOp, bind, Except.bind]

theorem Bank.rx_congr {b b' : Bank} (h : b.x = b'.x) (r : Nat) : b.rx r = b'.rx r := by
  rw [Bank.rx, Bank.rx, h]

/-- A started word leaves the bank's scalar registers and replay queue, and has taken the next number of tl4. -/
theorem replayStarted_bank {s : State} {c : Ctl} (h : VecReady s c) :
    (∀ r, ((s.replayStarted c).bank s.me).rx r = s.here.rx r) ∧ ((s.replayStarted c).bank s.me).replay = s.here.replay
      ∧ ((s.replayStarted c).bank s.me).tlNext 4 = s.here.tlNext 4 + 1 := by
  obtain ⟨w, k, e⟩ := stampIssue_bank h.task .vec c
  have hb : (s.replayStarted c).bank s.me = (((s.here.stamped w k).tlGive 4).nextSeq).tlDone 4 (s.here.tlNext 4) := by
    simp [State.replayStarted, State.tlDone, e]
  rw [hb]
  refine ⟨Bank.rx_congr (by simp [Bank.nextSeq, Bank.stamped]), by simp [Bank.nextSeq, Bank.stamped], ?_⟩
  rw [Bank.tlNext_tlDone]
  exact Bank.tlNext_tlGive (s.here.stamped w k) 4

theorem replayStarted_local {s : State} {c : Ctl} (h : VecReady s c) : Local s (s.replayStarted c) := by
  unfold State.replayStarted State.tlDone
  exact ((stampIssue_local h.task .vec c).modBank _ State.rest_setBank).modBank _ State.rest_setBank

/-- The bank of an instruction that ends by writing a register. -/
theorem bank_wx_pass (s t : State) (rd : BitVec 5) (v pc : Word) :
    ((t.wx s.me rd v).modBank s.me fun b => b.pass pc).bank s.me = ((t.bank s.me).wx rd.toNat v).pass pc := by
  simp [State.wx]

theorem rx_wx_pass (b : Bank) (rd : BitVec 5) (v pc : Word) :
    ((b.wx rd.toNat v).pass pc).rx rd.toNat = if rd = 0 then 0 else v := by
  rw [Bank.rx_pass, Bank.rx_wx, if_pos rfl]
  simp only [regNum_zero]

/-- The number of entries that an rqrel releases (R140). -/
def rqrelCount (s : State) (f : FPxf) : Nat :=
  if f.fn = 0 then s.here.replay.length else min (s.rx s.me f.xa).toNat s.here.replay.length

/-- The value that an rqstat returns (R141). -/
def rqstatValue (s : State) (f : FPxf) : Word :=
  if f.fn = 0 then BitVec.ofNat 64 s.here.replay.length
  else if f.fn = 1 then (s.here.replay[(s.rx s.me f.xa).toNat]?.map (·.va)).getD 0
  else (s.here.replay[(s.rx s.me f.xa).toNat]?.map Replay.word).getD 0

/-- An rqrel is a word of the replay-queue controller that releases the oldest entries and returns their number. -/
theorem exec_rqrel_eq (c : Ctl) (f : FPxf) (s : State) :
    exec (.rqrel c f) s = perform s 8 ((startReplayWord s c (decide (f.fn.toNat ≤ 1))).map fun t =>
      (t.releaseReplay s.me (s.here.uid.getD 0) (s.here.replay.take (rqrelCount s f))).wx s.me f.xd (w64 (rqrelCount s f))) := by
  have hx : exec (.rqrel c f) s = execRqrel c f s := rfl
  rw [hx, execRqrel]
  cases startReplayWord s c (decide (f.fn.toNat ≤ 1)) <;> rfl

/-- An rqstat is a word of that controller that only returns a value. -/
theorem exec_rqstat_eq (c : Ctl) (f : FPxf) (s : State) :
    exec (.rqstat c f) s = perform s 8
      ((startReplayWord s c (decide (f.fn.toNat ≤ 2))).map fun t => t.wx s.me f.xd (rqstatValue s f)) := by
  have hx : exec (.rqstat c f) s = execRqstat c f s := rfl
  rw [hx, execRqstat]
  cases startReplayWord s c (decide (f.fn.toNat ≤ 2)) with
  | error e => rfl
  | ok t =>
    refine congrArg (fun v => perform s 8 (.ok (t.wx s.me f.xd v))) ?_
    split
    · next h0 => rw [rqstatValue, if_pos (by bv_omega)]; rfl
    · next h1 => rw [rqstatValue, if_neg (by bv_omega), if_pos (by bv_omega)]; rfl
    · next h0 h1 => rw [rqstatValue, if_neg (by bv_omega), if_neg (by bv_omega)]; rfl

section ReplayWords
variable {s : State} {c : Ctl} {i : Instr} {fnOk : Bool} {ends : State → State} (h : VecReady s c)
  (hi : exec i s = perform s 8 ((startReplayWord s c fnOk).map ends))
include h hi

theorem exec_replayWord (hf : fnOk = true) (ht : s.replayReady c) :
    exec i s = perform s 8 (.ok (ends (s.replayStarted c))) := by
  rw [hi, hf, h.startReplayWord_ok ht]
  rfl

theorem stopsWith_replayWord_stall (hf : fnOk = true) (ht : ¬s.replayReady c) : StopsWith i s .stall := by
  rw [StopsWith, hi, hf, h.startReplayWord_stall ht]
  rfl

theorem stopsWith_replayWord_bad (hf : fnOk = false) : StopsWith i s (.bad 24 0x19 41) := by
  rw [StopsWith, hi, hf, h.startReplayWord_bad]
  rfl

end ReplayWords

/-- An rqrel in its turn. -/
theorem rqrel_completes {s : State} {c : Ctl} {f : FPxf} (h : VecReady s c) (hf : f.fn.toNat ≤ 1) (ht : s.replayReady c) :
    ∃ t, exec (.rqrel c f) s = .next t ∧ (t.bank s.me).pc = s.here.pc + 8
      ∧ (t.bank s.me).rx f.xd.toNat = if f.xd = 0 then 0 else w64 (rqrelCount s f) := by
  refine ⟨_, exec_replayWord h (exec_rqrel_eq c f s) (decide_eq_true hf) ht, ?_, ?_⟩
  · rw [bank_wx_pass]
    rfl
  · rw [bank_wx_pass, rx_wx_pass]

/-- An rqstat in its turn leaves every other scalar register, the replay queue, memory and everything outside the bank but issue
times. -/
theorem rqstat_completes {s : State} {c : Ctl} {f : FPxf} (h : VecReady s c) (hf : f.fn.toNat ≤ 2) (ht : s.replayReady c) :
    ∃ t, (exec (.rqstat c f) s = .next t ∧ (t.bank s.me).pc = s.here.pc + 8
        ∧ (t.bank s.me).rx f.xd.toNat = if f.xd = 0 then 0 else rqstatValue s f)
      ∧ (∀ r, r ≠ f.xd.toNat → (t.bank s.me).rx r = s.here.rx r) ∧ (t.bank s.me).replay = s.here.replay
      ∧ (t.bank s.me).tlNext 4 = s.here.tlNext 4 + 1 ∧ SameMem s t ∧ Local s t := by
  obtain ⟨hrx, hreplay, htl⟩ := replayStarted_bank h
  have hl : Local s (((s.replayStarted c).wx s.me f.xd (rqstatValue s f)).modBank s.me fun b => b.pass (s.here.pc + w64 8)) :=
    ((replayStarted_local h).modBank _ State.rest_setBank).modBank _ State.rest_setBank
  refine ⟨_, ⟨exec_replayWord h (exec_rqstat_eq c f s) (decide_eq_true hf) ht, ?_, ?_⟩, fun r hr => ?_, ?_, ?_,
    hl.sameMem, hl⟩
  · rw [bank_wx_pass]
    rfl
  · rw [bank_wx_pass, rx_wx_pass]
  · rw [bank_wx_pass, Bank.rx_pass, Bank.rx_wx, if_neg hr, hrx]
  · rw [bank_wx_pass, Bank.pass_replay, Bank.wx_replay, hreplay]
  · rw [bank_wx_pass, ← htl]
    simp [Bank.tlNext, Bank.timeline]

/-! ### vresume (R143) -/

/-- The command that a vresume is in the queue; it names the command with number `target` of tl4. -/
def resumeCmd (s : State) (c : Ctl) (target : Nat) : VCmd :=
  { VCmd.blank .resume with
    bank := s.me, uid := s.here.uid.getD 0, ctl := c, tl := s.here.tlNext 4, seq := s.here.seq, sx := s.here.vl0.setWidth 64,
    sy := s.here.vl1.setWidth 64, pa := target }

/-- A command with no operand is put last in the vector queue. -/
def State.pushVec (s : State) (m : VCmd) : State :=
  (s.setBank s.me (s.here.tlGive 4).nextSeq).setCore (keyCore s.me)
    { s.core (keyCore s.me) with vq := (s.core (keyCore s.me)).vq ++ [m] }

theorem queued_pushVec (s : State) (m : VCmd) : Queued s ((s.pushVec m).modBank s.me fun b => b.pass (s.here.pc + w64 8)) := by
  have hb : ((s.pushVec m).modBank s.me fun b => b.pass (s.here.pc + w64 8)).bank s.me
      = ((s.here.tlGive 4).nextSeq).pass (s.here.pc + w64 8) := by
    simp [State.pushVec]
  refine ⟨?_, ?_, ?_, ?_, fun bk hbk => ?_, fun k hk => ?_, sameMem_of_eq rfl, rfl⟩
  · rw [hb]
    rfl
  · simp [hb, Bank.nextSeq]
  · simp [hb, Bank.nextSeq]
  · simp [hb, Bank.nextSeq]
  · rw [State.bank_modBank_ne _ _ hbk, State.pushVec, State.bank_setCore, State.bank_setBank_ne _ _ hbk]
  · rw [State.core_modBank, State.pushVec, State.core_setCore_ne _ _ hk, State.core_setBank]

/-- The command that the mark of a vresume is held against: the oldest of the task. -/
def State.oldestVec (s : State) : Option VCmd := (s.core (keyCore s.me)).vq.find? fun v => v.uid == s.here.uid.getD 0

/-- The mark in VUPC and VL0 fits a command: it names its opcode, and as many leading elements as it has at most. -/
def VCmd.fitsMark (v : VCmd) (b : Bank) : Prop := v.opc = b.vupc.toNat ∧ b.vl0.toNat ≤ v.count

theorem VCmd.not_fitsMark {v : VCmd} {b : Bank} (h : v.opc ≠ b.vupc.toNat ∨ v.count < b.vl0.toNat) : ¬v.fitsMark b :=
  fun ⟨ho, hc⟩ => h.elim (fun hn => hn ho) fun hn => by omega

section Vresume
variable {s : State} {c : Ctl} (h : VecReady s c)
include h

theorem exec_vresume_unmarked (hv : s.here.vupc = 0) (hl : (s.core (keyCore s.me)).vq.length < 512) :
    exec (.vresume c) s = perform s 8 (.ok (s.pushVec (resumeCmd s c 0))) := by
  have hf := h.flowing
  have hx : exec (.vresume c) s = execVresume c s := rfl
  simp only [State.here] at hf hv
  simp [hx, execVresume, h.checked, hf, hv, hl, need, trapStream, State.pushVec, resumeCmd, State.here, bind, Except.bind, pure,
    Except.pure]

theorem exec_vresume_fits (hv : s.here.vupc ≠ 0) {v : VCmd} (hold : s.oldestVec = some v) (hm : v.fitsMark s.here)
    (hl : (s.core (keyCore s.me)).vq.length < 512) :
    exec (.vresume c) s = perform s 8 (.ok (s.pushVec (resumeCmd s c v.tl))) := by
  have hf := h.flowing
  have hv : ¬s.here.vupc = 0#9 := hv
  obtain ⟨ho, hc⟩ := hm
  have hx : exec (.vresume c) s = execVresume c s := rfl
  simp only [State.oldestVec, State.here] at hf hv hold ho hc
  simp [hx, execVresume, h.checked, hf, hv, hl, hold, ho, hc, need, trapStream, State.pushVec, resumeCmd, State.here, bind,
    Except.bind, pure, Except.pure]

theorem stopsWith_vresume_bad (hv : s.here.vupc ≠ 0) (hm : ∀ v, s.oldestVec = some v → ¬v.fitsMark s.here) :
    StopsWith (.vresume c) s (.bad 24 0x19 0) := by
  have hx : exec (.vresume c) s = execVresume c s := rfl
  have hv : ¬s.here.vupc = 0#9 := hv
  rw [StopsWith, hx]
  cases hold : s.oldestVec with
  | none =>
    simp only [State.oldestVec, State.here] at hv hold
    simp [execVresume, h.checked, hv, hold, need, badOp, bind, Except.bind, perform]
  | some v =>
    have hn := hm v hold
    simp only [VCmd.fitsMark, State.oldestVec, State.here] at hv hold hn
    have hbad : (v.opc != (s.bank s.me).vupc.toNat || decide (v.count < (s.bank s.me).vl0.toNat)) = true := by
      simp only [Bool.or_eq_true, bne_iff_ne, decide_eq_true_eq]
      omega
    simp [execVresume, h.checked, hv, hold, hbad, need, badOp, bind, Except.bind, perform]

end Vresume

/-- What a pushed vresume leaves. -/
theorem resume_enters {s : State} {c : Ctl} {target : Nat}
    (hx : exec (.vresume c) s = perform s 8 (.ok (s.pushVec (resumeCmd s c target)))) :
    ∃ t, exec (.vresume c) s = .next t ∧ Queued s t
      ∧ (t.core (keyCore s.me)).vq = (s.core (keyCore s.me)).vq ++ [resumeCmd s c target] :=
  ⟨_, hx, queued_pushVec s _, by simp [State.pushVec]⟩

/-- The elements of a command, by the kind of its operation (R105, R126). -/
theorem VCmd.count_eq (v : VCmd) : v.count =
    if v.op.isMem = true then 2048 / etWidth v.ty
    else if v.op ≠ .cvt then 2048 / v.op.width v.ty
    else if isMxEt v.etd = true then 2048 / etWidth v.ty
    else if isMxEt v.ty = true then 2048 / etWidth v.etd
    else 2048 / max (etWidth v.ty) (etWidth v.etd) := by
  rw [ite_not]
  rfl

/-! ### loopb (R114) -/

/-- The bank of a loopb that goes on with `lc`, `vrb` and `prb`. -/
def Bank.loopWith (b : Bank) (lc : BitVec 32) (vrb : BitVec 8) (prb : BitVec 6) : Bank :=
  { b with lc := lc, vrb := vrb, prb := prb }

/-- loopb goes to `pc`, leaves LC and the rotating bases as given, and nothing else of the registers and of memory changes. -/
def LoopGoes (s : State) (o : Out) (pc : Word) (lc : BitVec 32) (vrb : BitVec 8) (prb : BitVec 6) : Prop :=
  ∃ t, o = .next t ∧ (t.bank s.me).pc = pc ∧ (t.bank s.me).lc = lc ∧ (t.bank s.me).vrb = vrb ∧ (t.bank s.me).prb = prb
    ∧ (t.bank s.me).x = s.here.x ∧ (t.bank s.me).v = s.here.v ∧ (t.bank s.me).p = s.here.p
    ∧ (t.bank s.me).rot = s.here.rot ∧ SameMem s t ∧ Local s t

theorem loopGoes_of {s t : State} {pc : Word} {lc : BitVec 32} {vrb : BitVec 8} {prb : BitVec 6} {w : Option Crew} {k : Bool}
    (hl : Local s t) (hb : t.bank s.me = (s.here.stamped w k).loopWith lc vrb prb)
    (hpc : pc.toNat % 4 = 0) : LoopGoes s (performJump s (.ok (t, pc))) pc lc vrb prb := by
  have hl' : Local s (t.modBank s.me fun b => b.pass pc) := hl.modBank _ State.rest_setBank
  have hb' : (t.modBank s.me fun b => b.pass pc).bank s.me
      = ((s.here.stamped w k).loopWith lc vrb prb).pass pc := by
    rw [State.bank_modBank_same, hb]
  refine ⟨_, if_pos hpc, ?_, ?_, ?_, ?_, ?_, ?_, ?_, ?_, hl'.sameMem, hl'⟩ <;> rw [hb'] <;> rfl

/-- Where a loopb of the bank goes on, and the state there: without a loop and in the last pass it falls through, and otherwise
it renames and jumps. -/
def loopNext (t : State) (bk : Nat) (g : FBr) : State × Word :=
  let b := t.bank bk
  if b.lc = 0 then (t, b.pc + 8)
  else if b.lc - 1 = 0 then (t.setBank bk (b.loopWith (b.lc - 1) b.vrb b.prb), b.pc + 8)
  else (t.setBank bk (b.loopWith (b.lc - 1)
      (BitVec.ofNat 8 (if b.grant = 0 then 0 else (b.vrb.toNat + b.grant - 1) % b.grant))
      (BitVec.ofNat 6 ((b.prb.toNat + 47) % 48))), b.pc + g.off.signExtend 64 * 4)

section Loopb
variable {s : State} {c : Ctl} {g : FBr} (h : VecReady s c)
  (hq : crewOf s.here .vec = none ∨ maskBusy (s.core (keyCore s.me)) (s.here.uid.getD 0) 2 = false)
  (hm : mayIssue s s.me (s.here.uid.getD 0) .vec c = true)
include h hq hm

/-- A loopb that may be performed issues, and goes on by the value of LC. -/
theorem exec_loopb_eq :
    exec (.loopb c g) s = performJump s (.ok (loopNext (stampIssue s s.me (s.here.uid.getD 0) .vec c) s.me g)) := by
  have hg := h.going
  have hf := h.flowing
  have hneed : ((crewOf s.here .vec).isNone || !maskBusy (s.core (keyCore s.me)) (s.here.uid.getD 0) 2) = true := by
    rcases hq with hq | hq <;> rw [hq]
    · rfl
    · exact Bool.or_true _
  have hx : exec (.loopb c g) s = execLoopb c g s := rfl
  simp only [State.here] at hg hf hneed hm
  simp only [hx, execLoopb, h.checked, hg, hf, hneed, hm, need, trapStopped, trapStream, State.here, bind, Except.bind,
    pure, Except.pure, Bool.and_self, if_true]
  split
  · next h0 => rw [loopNext, if_pos h0]
  · next h0 =>
    split
    · next h1 => rw [loopNext, if_neg h0, if_pos h1]; rfl
    · next h1 => rw [loopNext, if_neg h0, if_neg h1]; rfl

theorem exec_loopb_unlooped (hlc : s.here.lc = 0) (hpc : (s.here.pc + 8).toNat % 4 = 0) :
    LoopGoes s (exec (.loopb c g) s) (s.here.pc + 8) 0 s.here.vrb s.here.prb := by
  obtain ⟨w, k, hb⟩ := stampIssue_bank h.task .vec c
  have hlc' : (s.here.stamped w k).lc = 0 := hlc
  rw [exec_loopb_eq h hq hm, loopNext, hb, if_pos hlc']
  refine loopGoes_of (w := w) (k := k) (stampIssue_local h.task .vec c) (hb.trans ?_) hpc
  rw [← hlc]
  rfl

theorem exec_loopb_last (hlc : s.here.lc = 1) (hpc : (s.here.pc + 8).toNat % 4 = 0) :
    LoopGoes s (exec (.loopb c g) s) (s.here.pc + 8) 0 s.here.vrb s.here.prb := by
  obtain ⟨w, k, hb⟩ := stampIssue_bank h.task .vec c
  have hlc' : (s.here.stamped w k).lc = 1 := hlc
  rw [exec_loopb_eq h hq hm, loopNext, hb, hlc', if_neg (by decide), if_pos (by decide)]
  exact loopGoes_of ((stampIssue_local h.task .vec c).modBank (fun _ => _) State.rest_setBank)
    (State.bank_setBank_same _ _ _) hpc

theorem exec_loopb_again (hlc : 2 ≤ s.here.lc.toNat) (hpc : (s.here.pc + g.off.signExtend 64 * 4).toNat % 4 = 0) :
    LoopGoes s (exec (.loopb c g) s) (s.here.pc + g.off.signExtend 64 * 4) (s.here.lc - 1)
      (BitVec.ofNat 8 (if s.here.grant = 0 then 0 else (s.here.vrb.toNat + s.here.grant - 1) % s.here.grant))
      (BitVec.ofNat 6 ((s.here.prb.toNat + 47) % 48)) := by
  obtain ⟨w, k, hb⟩ := stampIssue_bank h.task .vec c
  have h0 : (s.here.stamped w k).lc ≠ 0 := show s.here.lc ≠ 0 by bv_omega
  have h1 : (s.here.stamped w k).lc - 1 ≠ 0 := show s.here.lc - 1 ≠ 0 by bv_omega
  rw [exec_loopb_eq h hq hm, loopNext, hb, if_neg h0, if_neg h1]
  exact loopGoes_of ((stampIssue_local h.task .vec c).modBank (fun _ => _) State.rest_setBank)
    (State.bank_setBank_same _ _ _) hpc

end Loopb

/-- Settles O30: by how a word starts that the replay-queue controller performs, by what a vresume puts in the queue where its
mark fits, and by the three ways that a loopb goes on. -/
theorem vectorControlWords : Obligations.VectorControlWords := by
  intro s c f g h
  have hrel := exec_rqrel_eq c f s
  have hstat := exec_rqstat_eq c f s
  refine ⟨rqrel_completes h, fun hf => stopsWith_replayWord_stall h hrel (decide_eq_true hf),
    fun hf => stopsWith_replayWord_bad h hrel (decide_eq_false (Nat.not_le.2 hf)), rqstat_completes h,
    fun hf => stopsWith_replayWord_stall h hstat (decide_eq_true hf),
    fun hf => stopsWith_replayWord_bad h hstat (decide_eq_false (Nat.not_le.2 hf)),
    fun hv hl => ?_, fun v hv hold => ?_, fun hv hold => ?_, fun hq hm => ?_⟩
  -- vresume without a mark
  · obtain ⟨t, hx, hqd, hvq⟩ := resume_enters (exec_vresume_unmarked h hv hl)
    exact ⟨t, _, hx, hqd, hvq, rfl, rfl, rfl⟩
  -- vresume with a mark and a command
  · rw [← VCmd.count_eq v]
    have hold' : s.oldestVec = some v := hold
    refine ⟨fun ho hc hl => ?_, fun hbad => stopsWith_vresume_bad h hv fun u hu => ?_⟩
    · obtain ⟨t, hx, hqd, hvq⟩ := resume_enters (exec_vresume_fits h hv hold' ⟨ho, hc⟩ hl)
      exact ⟨t, _, hx, hqd, hvq, rfl, rfl, rfl⟩
    · obtain rfl := Option.some.inj (hold'.symm.trans hu)
      exact VCmd.not_fitsMark hbad
  -- vresume with a mark and no command
  · have hold' : s.oldestVec = none := hold
    exact stopsWith_vresume_bad h hv fun v hu => by rw [hold'] at hu; cases hu
  -- loopb
  · exact ⟨fun hpc hlc => exec_loopb_unlooped h hq hm hlc hpc, fun hpc hlc => exec_loopb_last h hq hm hlc hpc,
      fun hpc hlc => exec_loopb_again h hq hm hlc hpc⟩

end Sys2Proof.Machine
